-- ==== Sys2Proof/Word.lean ====
section
/-!
DEFINITION. The word types of the Utval architecture (R4, R99, R156) and the two plain containers the state is
made of: a table sorted by key and a set of numbers sorted without repeats.
-/
namespace Sys2Proof

/-- A byte. -/
abbrev Byte := BitVec 8
/-- An instruction word, an f32 or a w32 lane (R99). -/
abbrev W32 := BitVec 32
/-- A scalar register, an address, a record word. -/
abbrev W64 := BitVec 64
/-- A vector operand of 512 bytes; lane j of width e is bits [e·j+e−1 : e·j] (R156). -/
abbrev Operand := BitVec 4096
/-- A mask register of 512 lanes (R159). -/
abbrev MaskReg := BitVec 512

/-- A table from numbers to values, keys strictly rising. -/
abbrev Tab (α : Type) := List (Nat × α)

/-- The value at a key. -/
def Tab.get? {α : Type} : Tab α → Nat → Option α
  | [], _ => none
  | (k, v) :: t, a => if a = k then some v else if a < k then none else Tab.get? t a

/-- The value at a key, or the default of an absent key. -/
def Tab.getD {α : Type} (t : Tab α) (a : Nat) (d : α) : α := (Tab.get? t a).getD d

/-- Replaces or inserts the value at a key, keeping keys rising. -/
def Tab.put {α : Type} : Tab α → Nat → α → Tab α
  | [], a, v => [(a, v)]
  | (k, w) :: t, a, v =>
    if a < k then (a, v) :: (k, w) :: t
    else if a = k then (a, v) :: t
    else (k, w) :: Tab.put t a v

/-- Removes a key. -/
def Tab.del {α : Type} : Tab α → Nat → Tab α
  | [], _ => []
  | (k, w) :: t, a => if a = k then t else if a < k then (k, w) :: t else (k, w) :: Tab.del t a

/-- Changes every value. -/
def Tab.mapVals {α β : Type} (t : Tab α) (f : α → β) : Tab β := List.map (fun e => (e.1, f e.2)) t

/-- Keys strictly rising. -/
def Tab.rising {α : Type} : Tab α → Bool
  | [] => true
  | [_] => true
  | (a, _) :: (b, v) :: t => a < b && Tab.rising ((b, v) :: t)

/-- A finite set of numbers, strictly rising. -/
abbrev NSet := List Nat

/-- Adds a number. -/
def NSet.add : NSet → Nat → NSet
  | [], a => [a]
  | b :: t, a => if a < b then a :: b :: t else if a = b then b :: t else b :: NSet.add t a

/-- Removes a number. -/
def NSet.del : NSet → Nat → NSet
  | [], _ => []
  | b :: t, a => if a = b then t else if a < b then b :: t else b :: NSet.del t a

/-- Membership. -/
def NSet.has : NSet → Nat → Bool
  | [], _ => false
  | b :: t, a => if a = b then true else if a < b then false else NSet.has t a

/-- Removes the numbers from lo up to hi − 1. -/
def NSet.cut (t : NSet) (lo hi : Nat) : NSet := List.filter (fun a => a < lo || hi ≤ a) t

/-- Reads bits [lo + n − 1 : lo] of a number. -/
def bits (w lo n : Nat) : Nat := w / 2 ^ lo % 2 ^ n

/-- Reads one bit of a number. -/
def bit (w i : Nat) : Bool := w / 2 ^ i % 2 == 1

end Sys2Proof
end

