-- ==== Sys2Proof/Syntax.lean ====
section
/-!
DEFINITION. The steps of the machine: one constructor per row of the opcode table. The first 217 are instruction
words of the four streams (Tables 7.6 to 7.9), with the fields the table gives them; the push of an engine instruction
also carries its operand words. The other 95 are commands, events and operations without a word of their own
(first the ones the machine itself schedules, then the others, each in the table's order): they name the package (node), the core (0–143 tenant, 144 the Handle, 145–152 the workers), the slice or the switch they
happen at.
-/
namespace Sys2Proof

/-- One step of the part: an instruction of a stream, or an event of the table. -/
inductive Instr where
  /-- ADD_I64 (R118). -/
  | addI64 (d : BitVec 5) (a : BitVec 5) (b : BitVec 5) (g : BitVec 3)
  /-- SUB_I64 (R118). -/
  | subI64 (d : BitVec 5) (a : BitVec 5) (b : BitVec 5) (g : BitVec 3)
  /-- MUL_I64 (R118). -/
  | mulI64 (d : BitVec 5) (a : BitVec 5) (b : BitVec 5) (g : BitVec 3)
  /-- MULH_I64 (R118). -/
  | mulhI64 (d : BitVec 5) (a : BitVec 5) (b : BitVec 5) (g : BitVec 3)
  /-- MULH_W64 (R118). -/
  | mulhW64 (d : BitVec 5) (a : BitVec 5) (b : BitVec 5) (g : BitVec 3)
  /-- DIV_I64 (R118). -/
  | divI64 (d : BitVec 5) (a : BitVec 5) (b : BitVec 5) (g : BitVec 3)
  /-- DIV_W64 (R118). -/
  | divW64 (d : BitVec 5) (a : BitVec 5) (b : BitVec 5) (g : BitVec 3)
  /-- REM_I64 (R118). -/
  | remI64 (d : BitVec 5) (a : BitVec 5) (b : BitVec 5) (g : BitVec 3)
  /-- AND_W64 (R118). -/
  | andW64 (d : BitVec 5) (a : BitVec 5) (b : BitVec 5) (g : BitVec 3)
  /-- OR_W64 (R118). -/
  | orW64 (d : BitVec 5) (a : BitVec 5) (b : BitVec 5) (g : BitVec 3)
  /-- XOR_W64 (R118). -/
  | xorW64 (d : BitVec 5) (a : BitVec 5) (b : BitVec 5) (g : BitVec 3)
  /-- SHL_I64 (R118). -/
  | shlI64 (d : BitVec 5) (a : BitVec 5) (b : BitVec 5) (g : BitVec 3)
  /-- SHR_W64 (R118). -/
  | shrW64 (d : BitVec 5) (a : BitVec 5) (b : BitVec 5) (g : BitVec 3)
  /-- SRA_I64 (R118). -/
  | sraI64 (d : BitVec 5) (a : BitVec 5) (b : BitVec 5) (g : BitVec 3)
  /-- CMP_EQ_I64 (R121). -/
  | cmpEqI64 (d : BitVec 3) (a : BitVec 5) (b : BitVec 5) (g : BitVec 3)
  /-- CMP_NE_I64 (R121). -/
  | cmpNeI64 (d : BitVec 3) (a : BitVec 5) (b : BitVec 5) (g : BitVec 3)
  /-- CMP_LT_I64 (R121). -/
  | cmpLtI64 (d : BitVec 3) (a : BitVec 5) (b : BitVec 5) (g : BitVec 3)
  /-- CMP_GE_I64 (R121). -/
  | cmpGeI64 (d : BitVec 3) (a : BitVec 5) (b : BitVec 5) (g : BitVec 3)
  /-- CMP_LT_W64 (R121). -/
  | cmpLtW64 (d : BitVec 3) (a : BitVec 5) (b : BitVec 5) (g : BitVec 3)
  /-- CMP_GE_W64 (R121). -/
  | cmpGeW64 (d : BitVec 3) (a : BitVec 5) (b : BitVec 5) (g : BitVec 3)
  /-- PAND (R122). -/
  | pand (d : BitVec 3) (a : BitVec 3) (b : BitVec 3) (g : BitVec 3)
  /-- POR (R122). -/
  | por (d : BitVec 3) (a : BitVec 3) (b : BitVec 3) (g : BitVec 3)
  /-- PXOR (R122). -/
  | pxor (d : BitVec 3) (a : BitVec 3) (b : BitVec 3) (g : BitVec 3)
  /-- PANDN (R122). -/
  | pandn (d : BitVec 3) (a : BitVec 3) (b : BitVec 3) (g : BitVec 3)
  /-- PSET (R122). -/
  | pset (d : BitVec 3) (a : BitVec 5) (g : BitVec 3)
  /-- PGET (R122). -/
  | pget (d : BitVec 5) (a : BitVec 3) (g : BitVec 3)
  /-- ADDI_I64 (R119). -/
  | addiI64 (d : BitVec 5) (a : BitVec 5) (g : BitVec 3) (i : BitVec 12)
  /-- ANDI_W64 (R119). -/
  | andiW64 (d : BitVec 5) (a : BitVec 5) (g : BitVec 3) (i : BitVec 12)
  /-- ORI_W64 (R119). -/
  | oriW64 (d : BitVec 5) (a : BitVec 5) (g : BitVec 3) (i : BitVec 12)
  /-- XORI_W64 (R119). -/
  | xoriW64 (d : BitVec 5) (a : BitVec 5) (g : BitVec 3) (i : BitVec 12)
  /-- SHLI_I64 (R119). -/
  | shliI64 (d : BitVec 5) (a : BitVec 5) (g : BitVec 3) (i : BitVec 6)
  /-- SHRI_W64 (R119). -/
  | shriW64 (d : BitVec 5) (a : BitVec 5) (g : BitVec 3) (i : BitVec 6)
  /-- SRAI_I64 (R119). -/
  | sraiI64 (d : BitVec 5) (a : BitVec 5) (g : BitVec 3) (i : BitVec 6)
  /-- LI (R120). -/
  | li (d : BitVec 5) (i : BitVec 20)
  /-- LEA (R120). -/
  | lea (d : BitVec 5) (a : BitVec 4) (g : BitVec 3) (i : BitVec 12)
  /-- BXLEN (R120). -/
  | bxlen (d : BitVec 5) (a : BitVec 4) (g : BitVec 3)
  /-- BR (R123). -/
  | br (g : BitVec 3) (n : BitVec 1) (i : BitVec 21)
  /-- CALL (R123). -/
  | call (g : BitVec 3) (n : BitVec 1) (i : BitVec 21)
  /-- JR (R123). -/
  | jr (a : BitVec 5) (g : BitVec 3)
  /-- RET (R123). -/
  | ret (g : BitVec 3)
  /-- LOOP (R125). -/
  | loop (a : BitVec 5) (g : BitVec 3) (i : BitVec 12)
  /-- LD_W8 (R127). -/
  | ldW8 (d : BitVec 5) (a : BitVec 5) (g : BitVec 3) (i : BitVec 12)
  /-- LD_W16 (R127). -/
  | ldW16 (d : BitVec 5) (a : BitVec 5) (g : BitVec 3) (i : BitVec 12)
  /-- LD_W32 (R127). -/
  | ldW32 (d : BitVec 5) (a : BitVec 5) (g : BitVec 3) (i : BitVec 12)
  /-- LD_W64 (R127). -/
  | ldW64 (d : BitVec 5) (a : BitVec 5) (g : BitVec 3) (i : BitVec 12)
  /-- LD_I8 (R127). -/
  | ldI8 (d : BitVec 5) (a : BitVec 5) (g : BitVec 3) (i : BitVec 12)
  /-- LD_I32 (R127). -/
  | ldI32 (d : BitVec 5) (a : BitVec 5) (g : BitVec 3) (i : BitVec 12)
  /-- ST_W8 (R127). -/
  | stW8 (d : BitVec 5) (a : BitVec 5) (g : BitVec 3) (i : BitVec 12)
  /-- ST_W16 (R127). -/
  | stW16 (d : BitVec 5) (a : BitVec 5) (g : BitVec 3) (i : BitVec 12)
  /-- ST_W32 (R127). -/
  | stW32 (d : BitVec 5) (a : BitVec 5) (g : BitVec 3) (i : BitVec 12)
  /-- ST_W64 (R127). -/
  | stW64 (d : BitVec 5) (a : BitVec 5) (g : BitVec 3) (i : BitVec 12)
  /-- LD_ACQ_W32 (R128). -/
  | ldAcqW32 (d : BitVec 5) (a : BitVec 5) (g : BitVec 3) (s : BitVec 3)
  /-- LD_ACQ_W64 (R128). -/
  | ldAcqW64 (d : BitVec 5) (a : BitVec 5) (g : BitVec 3) (s : BitVec 3)
  /-- ST_REL_W32 (R128). -/
  | stRelW32 (a : BitVec 5) (b : BitVec 5) (g : BitVec 3) (s : BitVec 3)
  /-- ST_REL_W64 (R128). -/
  | stRelW64 (a : BitVec 5) (b : BitVec 5) (g : BitVec 3) (s : BitVec 3)
  /-- WAIT_TK (R236). -/
  | waitTk (p : BitVec 3) (k : BitVec 7) (t : BitVec 5)
  /-- BAR_WAIT (R242). -/
  | barWait (p : BitVec 3) (k : BitVec 7) (t : BitVec 5)
  /-- LDWF_W64 (R237). -/
  | ldwfW64 (p : BitVec 3) (a : BitVec 5) (t : BitVec 5) (d : BitVec 5)
  /-- STWE_W64 (R237). -/
  | stweW64 (p : BitVec 3) (a : BitVec 5) (t : BitVec 5) (d : BitVec 5)
  /-- POP (R130). -/
  | pop (p : BitVec 3) (q : BitVec 7) (t : BitVec 5) (d : BitVec 5)
  /-- SIG_TK (R235). -/
  | sigTk (k : BitVec 7)
  /-- BAR_ARRIVE (R241). -/
  | barArrive (k : BitVec 7)
  /-- JOIN (R239). -/
  | join (k : BitVec 7)
  /-- LEAVE (R239). -/
  | leave (k : BitVec 7)
  /-- AMO_ADD_W64 (R243). -/
  | amoAddW64 (d : BitVec 5) (a : BitVec 5) (b : BitVec 5) (g : BitVec 3)
  /-- AMO_MIN_I64 (R243). -/
  | amoMinI64 (d : BitVec 5) (a : BitVec 5) (b : BitVec 5) (g : BitVec 3)
  /-- AMO_MAX_I64 (R243). -/
  | amoMaxI64 (d : BitVec 5) (a : BitVec 5) (b : BitVec 5) (g : BitVec 3)
  /-- AMO_AND_W64 (R243). -/
  | amoAndW64 (d : BitVec 5) (a : BitVec 5) (b : BitVec 5) (g : BitVec 3)
  /-- AMO_OR_W64 (R243). -/
  | amoOrW64 (d : BitVec 5) (a : BitVec 5) (b : BitVec 5) (g : BitVec 3)
  /-- AMO_XOR_W64 (R243). -/
  | amoXorW64 (d : BitVec 5) (a : BitVec 5) (b : BitVec 5) (g : BitVec 3)
  /-- AMO_XCHG_W64 (R243). -/
  | amoXchgW64 (d : BitVec 5) (a : BitVec 5) (b : BitVec 5) (g : BitVec 3)
  /-- AMO_CAS_W64 (R243). -/
  | amoCasW64 (d : BitVec 5) (a : BitVec 5) (b : BitVec 5) (g : BitVec 3)
  /-- FENCE (R246). -/
  | fence (g : BitVec 3) (s : BitVec 3)
  /-- FENCE_R (R246). -/
  | fenceR (a : BitVec 5) (b : BitVec 5) (g : BitVec 3) (s : BitVec 3)
  /-- RLD (R129). -/
  | rld (d : BitVec 2) (a : BitVec 5) (b : BitVec 5) (g : BitVec 3)
  /-- SETSHAPE_V (R51). -/
  | setshapeV (d : BitVec 5) (a : BitVec 5) (b : BitVec 5) (g : BitVec 3) (n : BitVec 3)
  /-- SETSHAPE_M (R51). -/
  | setshapeM (d : BitVec 5) (a : BitVec 5) (b : BitVec 5) (g : BitVec 3) (n : BitVec 3)
  /-- ASNAP (R132). -/
  | asnap (d : BitVec 5) (a : BitVec 5) (b : BitVec 5) (g : BitVec 3) (n : BitVec 3)
  /-- TSTAT (R133). -/
  | tstat (d : BitVec 5) (g : BitVec 3) (n : BitVec 3)
  /-- SWALLOC (R250). -/
  | swalloc (d : BitVec 5) (a : BitVec 5) (b : BitVec 5) (g : BitVec 3)
  /-- SWFREE (R251). -/
  | swfree (d : BitVec 5) (a : BitVec 5) (g : BitVec 3)
  /-- SWQUOTA (R252). -/
  | swquota (d : BitVec 5) (a : BitVec 5) (g : BitVec 3)
  /-- YIELD (R247). -/
  | yield (i : BitVec 20)
  /-- ENQUEUE_PREFIX (R148). -/
  | enqueuePrefix (e : BitVec 2) (w : BitVec 6) (k : BitVec 6) (t : BitVec 1) (a : BitVec 5) (b : BitVec 5) (w1 w2 : BitVec 32)
  /-- TRAP (R136). -/
  | trap (i : BitVec 20)
  /-- RFT (R136). -/
  | rft (g : BitVec 3)
  /-- END (R137). -/
  | endThread (g : BitVec 3)
  /-- CSRR (R135). -/
  | csrr (d : BitVec 5) (g : BitVec 3) (c : BitVec 12)
  /-- CSRW (R135). -/
  | csrw (a : BitVec 5) (g : BitVec 3) (c : BitVec 12)
  /-- RESUME (R138). -/
  | resume (d : BitVec 5) (a : BitVec 5) (g : BitVec 3)
  /-- QRESET (R139). -/
  | qreset (d : BitVec 5) (a : BitVec 5) (g : BitVec 3)
  /-- TINV_PG1 (R140). -/
  | tinvPg1 (a : BitVec 5) (g : BitVec 3)
  /-- TINV_RG1 (R140). -/
  | tinvRg1 (a : BitVec 5) (b : BitVec 5) (g : BitVec 3)
  /-- TINV_ALL1 (R140). -/
  | tinvAll1 (g : BitVec 3)
  /-- TINV_PG2 (R140). -/
  | tinvPg2 (a : BitVec 5) (b : BitVec 5) (g : BitVec 3)
  /-- TINV_RG2 (R140). -/
  | tinvRg2 (a : BitVec 5) (b : BitVec 5) (g : BitVec 3)
  /-- TINV_ALL2 (R140). -/
  | tinvAll2 (b : BitVec 5) (g : BitVec 3)
  /-- EINJ (R141). -/
  | einj (a : BitVec 5) (b : BitVec 5) (g : BitVec 3)
  /-- TAKE_IB (R28). -/
  | takeIb (d : BitVec 5) (a : BitVec 5) (g : BitVec 3)
  /-- COMMIT_IB (R28). -/
  | commitIb (d : BitVec 5) (a : BitVec 5) (b : BitVec 5) (g : BitVec 3)
  /-- ATTEST (R338). -/
  | attest (d : BitVec 5) (a : BitVec 5) (b : BitVec 5) (g : BitVec 3)
  /-- VADD_F32 (R166). -/
  | vaddF32 (d : BitVec 6) (a : BitVec 6) (b : BitVec 6) (s : BitVec 3) (m : BitVec 3) (x : BitVec 2)
  /-- VSUB_F32 (R166). -/
  | vsubF32 (d : BitVec 6) (a : BitVec 6) (b : BitVec 6) (s : BitVec 3) (m : BitVec 3) (x : BitVec 2)
  /-- VMUL_F32 (R166). -/
  | vmulF32 (d : BitVec 6) (a : BitVec 6) (b : BitVec 6) (s : BitVec 3) (m : BitVec 3) (x : BitVec 2)
  /-- VFMA_F32 (R167). -/
  | vfmaF32 (d : BitVec 6) (a : BitVec 6) (b : BitVec 6) (s : BitVec 3) (m : BitVec 3) (x : BitVec 2)
  /-- VFMA_F32_T_MULTIPLIER (R167). -/
  | vfmaF32TMultiplier (d : BitVec 6) (a : BitVec 6) (b : BitVec 6) (s : BitVec 3) (m : BitVec 3) (x : BitVec 2)
  /-- VMIN_F32 (R166). -/
  | vminF32 (d : BitVec 6) (a : BitVec 6) (b : BitVec 6) (s : BitVec 3) (m : BitVec 3)
  /-- VMAX_F32 (R166). -/
  | vmaxF32 (d : BitVec 6) (a : BitVec 6) (b : BitVec 6) (s : BitVec 3) (m : BitVec 3)
  /-- VABS_F32 (R166). -/
  | vabsF32 (d : BitVec 6) (a : BitVec 6) (s : BitVec 3) (m : BitVec 3)
  /-- VNEG_F32 (R166). -/
  | vnegF32 (d : BitVec 6) (a : BitVec 6) (s : BitVec 3) (m : BitVec 3)
  /-- VCMP_F32 (R168). -/
  | vcmpF32 (d : BitVec 6) (a : BitVec 6) (b : BitVec 6) (s : BitVec 3) (m : BitVec 3) (c : BitVec 2)
  /-- VRCP_F32 (R169). -/
  | vrcpF32 (d : BitVec 6) (a : BitVec 6) (s : BitVec 3) (m : BitVec 3)
  /-- VRSQRT_F32 (R169). -/
  | vrsqrtF32 (d : BitVec 6) (a : BitVec 6) (s : BitVec 3) (m : BitVec 3)
  /-- VEXP2_F32 (R169). -/
  | vexp2F32 (d : BitVec 6) (a : BitVec 6) (s : BitVec 3) (m : BitVec 3)
  /-- VLOG2_F32 (R169). -/
  | vlog2F32 (d : BitVec 6) (a : BitVec 6) (s : BitVec 3) (m : BitVec 3)
  /-- VTANH_F32 (R169). -/
  | vtanhF32 (d : BitVec 6) (a : BitVec 6) (s : BitVec 3) (m : BitVec 3)
  /-- VADD_INT (R170). -/
  | vaddInt (d : BitVec 6) (a : BitVec 6) (b : BitVec 6) (s : BitVec 3) (m : BitVec 3) (x : BitVec 2)
  /-- VSUB_INT (R170). -/
  | vsubInt (d : BitVec 6) (a : BitVec 6) (b : BitVec 6) (s : BitVec 3) (m : BitVec 3) (x : BitVec 2)
  /-- VMUL_INT (R170). -/
  | vmulInt (d : BitVec 6) (a : BitVec 6) (b : BitVec 6) (s : BitVec 3) (m : BitVec 3) (x : BitVec 2)
  /-- VMULH (R170). -/
  | vmulh (d : BitVec 6) (a : BitVec 6) (b : BitVec 6) (s : BitVec 3) (m : BitVec 3) (u : BitVec 1)
  /-- VMIN_INT (R170). -/
  | vminInt (d : BitVec 6) (a : BitVec 6) (b : BitVec 6) (s : BitVec 3) (m : BitVec 3) (u : BitVec 1)
  /-- VMAX_INT (R170). -/
  | vmaxInt (d : BitVec 6) (a : BitVec 6) (b : BitVec 6) (s : BitVec 3) (m : BitVec 3) (u : BitVec 1)
  /-- VABS_INT (R170). -/
  | vabsInt (d : BitVec 6) (a : BitVec 6) (s : BitVec 3) (m : BitVec 3)
  /-- VAND (R171). -/
  | vand (d : BitVec 6) (a : BitVec 6) (b : BitVec 6) (s : BitVec 3) (m : BitVec 3)
  /-- VOR (R171). -/
  | vor (d : BitVec 6) (a : BitVec 6) (b : BitVec 6) (s : BitVec 3) (m : BitVec 3)
  /-- VXOR (R171). -/
  | vxor (d : BitVec 6) (a : BitVec 6) (b : BitVec 6) (s : BitVec 3) (m : BitVec 3)
  /-- VSHL (R171). -/
  | vshl (d : BitVec 6) (a : BitVec 6) (b : BitVec 6) (s : BitVec 3) (m : BitVec 3)
  /-- VSHR (R171). -/
  | vshr (d : BitVec 6) (a : BitVec 6) (b : BitVec 6) (s : BitVec 3) (m : BitVec 3) (u : BitVec 1)
  /-- VCMP_SIGNED (R168). -/
  | vcmpSigned (d : BitVec 6) (a : BitVec 6) (b : BitVec 6) (s : BitVec 3) (m : BitVec 3) (c : BitVec 2)
  /-- VCMP_UNSIGNED (R168). -/
  | vcmpUnsigned (d : BitVec 6) (a : BitVec 6) (b : BitVec 6) (s : BitVec 3) (m : BitVec 3) (c : BitVec 2)
  /-- VSEL (R168). -/
  | vsel (d : BitVec 6) (a : BitVec 6) (b : BitVec 6) (s : BitVec 3) (m : BitVec 3)
  /-- VMASK (R168). -/
  | vmask (d : BitVec 6) (a : BitVec 6) (b : BitVec 6) (s : BitVec 3) (o : BitVec 2)
  /-- VMOV (R177). -/
  | vmov (d : BitVec 6) (a : BitVec 6) (s : BitVec 3) (m : BitVec 3)
  /-- VCVT (R172). -/
  | vcvt (d : BitVec 6) (a : BitVec 6) (t : BitVec 6) (s : BitVec 3) (m : BitVec 3) (x : BitVec 2)
  /-- VCVT_SAT (R172). -/
  | vcvtSat (d : BitVec 6) (a : BitVec 6) (t : BitVec 6) (s : BitVec 3) (m : BitVec 3) (x : BitVec 2)
  /-- VCVT_FLOAT_TO_INT (R172). -/
  | vcvtFloatToInt (d : BitVec 6) (a : BitVec 6) (t : BitVec 6) (s : BitVec 3) (m : BitVec 3) (x : BitVec 2)
  /-- VCVT_INT_TO_FLOAT (R172). -/
  | vcvtIntToFloat (d : BitVec 6) (a : BitVec 6) (t : BitVec 6) (s : BitVec 3) (m : BitVec 3) (x : BitVec 2)
  /-- VCVT_INT_TO_INT (R172). -/
  | vcvtIntToInt (d : BitVec 6) (a : BitVec 6) (t : BitVec 6) (s : BitVec 3) (m : BitVec 3) (x : BitVec 2)
  /-- VBSCALE (R173). -/
  | vbscale (d : BitVec 6) (a : BitVec 6) (f : BitVec 6) (s : BitVec 3) (x : BitVec 2)
  /-- VQUANT (R174). -/
  | vquant (d : BitVec 6) (a : BitVec 6) (f : BitVec 6) (s : BitVec 3) (x : BitVec 2)
  /-- VRED_F32 (R175). -/
  | vredF32 (d : BitVec 6) (a : BitVec 6) (s : BitVec 3) (m : BitVec 3) (o : BitVec 2)
  /-- VRED_INT (R175). -/
  | vredInt (d : BitVec 6) (a : BitVec 6) (u : BitVec 1) (s : BitVec 3) (m : BitVec 3) (o : BitVec 2)
  /-- VSCAN_F32 (R176). -/
  | vscanF32 (d : BitVec 6) (a : BitVec 6) (s : BitVec 3) (m : BitVec 3) (o : BitVec 2)
  /-- VSCAN_INT (R176). -/
  | vscanInt (d : BitVec 6) (a : BitVec 6) (u : BitVec 1) (s : BitVec 3) (m : BitVec 3) (o : BitVec 2)
  /-- VPERM (R177). -/
  | vperm (d : BitVec 6) (a : BitVec 6) (b : BitVec 6) (s : BitVec 3) (m : BitVec 3)
  /-- VROT (R177). -/
  | vrot (d : BitVec 6) (a : BitVec 6) (s : BitVec 3) (m : BitVec 3)
  /-- VIOTA (R177). -/
  | viota (d : BitVec 6) (s : BitVec 3) (m : BitVec 3)
  /-- VPART (R178). -/
  | vpart (d : BitVec 6) (a : BitVec 6) (b : BitVec 6) (s : BitVec 3) (m : BitVec 3)
  /-- VPORT (R161). -/
  | vport (d : BitVec 6) (s : BitVec 3)
  /-- VPORTD (R162). -/
  | vportd (d : BitVec 6) (s : BitVec 3)
  /-- VREP (R154). -/
  | vrep (n : BitVec 6)
  /-- VSPLAT (R177). -/
  | vsplat (d : BitVec 6) (s : BitVec 3) (m : BitVec 3) (c : BitVec 2)
  /-- MLD (R187). -/
  | mld (a : BitVec 3) (s : BitVec 3) (k : BitVec 1)
  /-- MLDT (R187). -/
  | mldt (a : BitVec 3) (s : BitVec 3) (k : BitVec 1)
  /-- MWLD (R187). -/
  | mwld (a : BitVec 3) (s : BitVec 3) (k : BitVec 1)
  /-- MWLDT (R187). -/
  | mwldt (a : BitVec 3) (s : BitVec 3) (k : BitVec 1)
  /-- MMUL_OVW (R189). -/
  | mmulOvw (a : BitVec 3) (b : BitVec 3) (c : BitVec 3) (s : BitVec 3) (k : BitVec 1)
  /-- MMUL_ACC (R189). -/
  | mmulAcc (a : BitVec 3) (b : BitVec 3) (c : BitVec 3) (s : BitVec 3) (k : BitVec 1)
  /-- MGANG_OVW (R193). -/
  | mgangOvw (a : BitVec 3) (b : BitVec 3) (c : BitVec 3) (s : BitVec 3) (g : BitVec 3) (h : BitVec 3) (n : BitVec 7) (k : BitVec 1)
  /-- MGANG_ACC (R193). -/
  | mgangAcc (a : BitVec 3) (b : BitVec 3) (c : BitVec 3) (s : BitVec 3) (g : BitVec 3) (h : BitVec 3) (n : BitVec 7) (k : BitVec 1)
  /-- MZERO (R195). -/
  | mzero (c : BitVec 3) (s : BitVec 3)
  /-- MACC (R195). -/
  | macc (b : BitVec 3) (c : BitVec 3) (s : BitVec 3)
  /-- MLDACC (R195). -/
  | mldacc (c : BitVec 3) (s : BitVec 3)
  /-- MESCALE (R195). -/
  | mescale (c : BitVec 3) (s : BitVec 3)
  /-- MESCV (R195). -/
  | mescv (c : BitVec 3) (s : BitVec 3)
  /-- MEBIAS (R195). -/
  | mebias (c : BitVec 3) (s : BitVec 3)
  /-- MEACT (R196). -/
  | meact (c : BitVec 3) (s : BitVec 3) (f : BitVec 4)
  /-- MECLAMP (R195). -/
  | meclamp (c : BitVec 3) (s : BitVec 3)
  /-- MECVT (R195). -/
  | mecvt (c : BitVec 3) (s : BitVec 3) (t : BitVec 1) (r : BitVec 2) (f : BitVec 5)
  /-- MST (R197). -/
  | mst (c : BitVec 3) (s : BitVec 3) (t : BitVec 1) (r : BitVec 2) (f : BitVec 5)
  /-- MSTN (R197). -/
  | mstn (c : BitVec 3) (s : BitVec 3) (t : BitVec 1) (r : BitVec 2) (f : BitVec 5)
  /-- MSNAP (R198). -/
  | msnap (c : BitVec 3) (s : BitVec 3)
  /-- MSTT (R188). -/
  | mstt (a : BitVec 3) (s : BitVec 3)
  /-- MMOV (R188). -/
  | mmov (a : BitVec 3) (b : BitVec 3) (s : BitVec 3)
  /-- MTR (R188). -/
  | mtr (a : BitVec 3) (b : BitVec 3) (s : BitVec 3)
  /-- CLD_HBM (R207). -/
  | cldHbm (q : BitVec 1) (r : BitVec 1) (s : BitVec 3) (f : BitVec 1) (x : BitVec 20)
  /-- CST_HBM (R207). -/
  | cstHbm (q : BitVec 1) (r : BitVec 1) (s : BitVec 3) (x : BitVec 20)
  /-- CLD_2D (R208). -/
  | cld2d (q : BitVec 1) (r : BitVec 1) (s : BitVec 3) (f : BitVec 1) (x : BitVec 20)
  /-- CST_2D (R208). -/
  | cst2d (q : BitVec 1) (r : BitVec 1) (s : BitVec 3) (x : BitVec 20)
  /-- CCPY (R209). -/
  | ccpy (q : BitVec 1) (r : BitVec 1) (s : BitVec 3) (x : BitVec 20)
  /-- CCVT (R209). -/
  | ccvt (q : BitVec 1) (r : BitVec 1) (s : BitVec 3) (x : BitVec 20)
  /-- CGAT (R210). -/
  | cgat (q : BitVec 1) (r : BitVec 1) (s : BitVec 3) (f : BitVec 1) (x : BitVec 20)
  /-- CSCT (R210). -/
  | csct (q : BitVec 1) (r : BitVec 1) (s : BitVec 3) (x : BitVec 20)
  /-- CFILL (R211). -/
  | cfill (q : BitVec 1) (r : BitVec 1) (s : BitVec 3) (x : BitVec 20)
  /-- CFILL_SP (R211). -/
  | cfillSp (q : BitVec 1) (r : BitVec 1) (s : BitVec 3) (x : BitVec 20)
  /-- CTAG (R211). -/
  | ctag (q : BitVec 1) (r : BitVec 1) (s : BitVec 3) (x : BitVec 20)
  /-- CPREF (R211). -/
  | cpref (q : BitVec 1) (r : BitVec 1) (s : BitVec 3) (x : BitVec 20)
  /-- CMOV_SP (R211). -/
  | cmovSp (q : BitVec 1) (r : BitVec 1) (s : BitVec 3) (f : BitVec 1) (x : BitVec 20)
  /-- CMST (R211). -/
  | cmst (q : BitVec 1) (r : BitVec 1) (s : BitVec 3) (x : BitVec 20)
  /-- CKV_SEND (R215). -/
  | ckvSend (q : BitVec 1) (r : BitVec 1) (s : BitVec 3)
  /-- CKV_PULL (R215). -/
  | ckvPull (q : BitVec 1) (r : BitVec 1) (s : BitVec 3) (p : BitVec 1)
  /-- CKV_SYNC (R216). -/
  | ckvSync (q : BitVec 1) (r : BitVec 1) (s : BitVec 3)
  /-- CLD_SW (R217). -/
  | cldSw (q : BitVec 1) (r : BitVec 1) (s : BitVec 3) (f : BitVec 1) (x : BitVec 20)
  /-- CST_SW (R217). -/
  | cstSw (q : BitVec 1) (r : BitVec 1) (s : BitVec 3) (x : BitVec 20)
  /-- CRED_INIT (R218). -/
  | credInit (q : BitVec 1) (r : BitVec 1) (s : BitVec 3) (x : BitVec 20)
  /-- CRED_SW (R219). -/
  | credSw (q : BitVec 1) (r : BitVec 1) (s : BitVec 3) (x : BitVec 20)
  /-- CLDR_SW (R219). -/
  | cldrSw (q : BitVec 1) (r : BitVec 1) (s : BitVec 3) (f : BitVec 1) (x : BitVec 20)
  /-- CRED_DROP (R220). -/
  | credDrop (q : BitVec 1) (r : BitVec 1) (s : BitVec 3) (b : BitVec 1)
  /-- CMST_SW (R219). -/
  | cmstSw (q : BitVec 1) (r : BitVec 1) (s : BitVec 3) (x : BitVec 20)
  /-- CBAT_ADD (R213). -/
  | cbatAdd (q : BitVec 1) (r : BitVec 1) (s : BitVec 3) (x : BitVec 20)
  /-- CBAT_MIN (R213). -/
  | cbatMin (q : BitVec 1) (r : BitVec 1) (s : BitVec 3) (x : BitVec 20)
  /-- CBAT_MAX (R213). -/
  | cbatMax (q : BitVec 1) (r : BitVec 1) (s : BitVec 3) (x : BitVec 20)
  /-- CBAT_OR (R213). -/
  | cbatOr (q : BitVec 1) (r : BitVec 1) (s : BitVec 3) (x : BitVec 20)
  /-- CBAT_XCHG (R213). -/
  | cbatXchg (q : BitVec 1) (r : BitVec 1) (s : BitVec 3) (x : BitVec 20)
  /-- CSK_INIT (R224). -/
  | cskInit (q : BitVec 1) (r : BitVec 1) (s : BitVec 3) (c : BitVec 1)
  /-- CSK_INS (R225). -/
  | cskIns (q : BitVec 1) (r : BitVec 1) (s : BitVec 3)
  /-- CSK_DEL (R225). -/
  | cskDel (q : BitVec 1) (r : BitVec 1) (s : BitVec 3)
  /-- CSK_SEND (R226). -/
  | cskSend (q : BitVec 1) (r : BitVec 1) (s : BitVec 3)
  /-- CSK_XCHG (R226). -/
  | cskXchg (q : BitVec 1) (r : BitVec 1) (s : BitVec 3)
  /-- CSK_PEEL (R226). -/
  | cskPeel (q : BitVec 1) (r : BitVec 1) (s : BitVec 3)
  /-- CSK_FETCH (R227). -/
  | cskFetch (q : BitVec 1) (r : BitVec 1) (s : BitVec 3) (m : BitVec 1)
  /-- CSK_RSZ (R227). -/
  | cskRsz (q : BitVec 1) (r : BitVec 1) (s : BitVec 3)
  /-- CFENCE (R212). -/
  | cfence (q : BitVec 1) (r : BitVec 1) (s : BitVec 3)
  /-- CSIG (R212). -/
  | csig (q : BitVec 1) (r : BitVec 1) (s : BitVec 3) (k : BitVec 2)
  /-- INVOCATION_START (R31). -/
  | invocationStart (node slice slot : Nat)
  /-- ITERATION_DISPATCH (R46). -/
  | iterationDispatch (node slice : Nat)
  /-- THREAD_START (R47). -/
  | threadStart (node core : Nat)
  /-- THREAD_END (R330). -/
  | threadEnd (node core : Nat)
  /-- COPY_NODE_RETIRE (R15). -/
  | copyNodeRetire (node slice slot n : Nat)
  /-- NODE_COND (R15). -/
  | nodeCond (node slice slot n : Nat)
  /-- NODE_WHILE (R15). -/
  | nodeWhile (node slice slot n : Nat)
  /-- NODE_NOTIFY (R15). -/
  | nodeNotify (node slice slot n : Nat)
  /-- INVOCATION_RETIRE (R331). -/
  | invocationRetire (node slice slot : Nat)
  /-- SCHED_BOUNDARY (R36). -/
  | schedBoundary (node slice slot : Nat)
  /-- PACK_PLACEMENT_DONE (R40). -/
  | packPlacementDone (node slice req : Nat)
  /-- FAULT_HANDLER_START (R75). -/
  | faultHandlerStart (node slice worker : Nat)
  /-- WATCHDOG_EXPIRE (R249). -/
  | watchdogExpire (node core : Nat)
  /-- LOAD_QUEUE_FILL (R129). -/
  | loadQueueFill (node core q idx : Nat)
  /-- GANG_PART_ARRIVE (R193). -/
  | gangPartArrive (node core member : Nat)
  /-- GANG_PART_COMMIT (R194). -/
  | gangPartCommit (node core member : Nat)
  /-- FABRIC_REQUEST_RECEIVE (R281). -/
  | fabricRequestReceive (src dst seq : Nat)
  /-- TAGGED_WAIT_WITHDRAWAL (R233). -/
  | taggedWaitWithdrawal (node core : Nat)
  /-- RETRANSMIT_TIMEOUT (R282). -/
  | retransmitTimeout (src dst seq : Nat)
  /-- SWITCH_FAILURE_NOTICE (R289). -/
  | switchFailureNotice (node sw : Nat)
  /-- READMIT_NOTICE (R346). -/
  | readmitNotice (node sw : Nat)
  /-- KV_HALVES_MATCH (R215). -/
  | kvHalvesMatch (send pull : Nat)
  /-- REDUCTION_ROUND_TIMEOUT (R219). -/
  | reductionRoundTimeout (sw ctx : Nat)
  /-- CONTEXT_RESTORE_DONE (R323). -/
  | contextRestoreDone (node : Nat)
  /-- KV_PAGE_LANDED (R215). -/
  | kvPageLanded (pull page : Nat)
  /-- KV_TRANSFER_TIMEOUT (R215). -/
  | kvTransferTimeout (half : Nat)
  /-- KV_TRANSFER_END (R215). -/
  | kvTransferEnd (half code : Nat)
  /-- STOP_COMPLETE (R317). -/
  | stopComplete (node slice : Nat)
  /-- CONTEXT_SAVE_DONE (R320). -/
  | contextSaveDone (node : Nat)
  /-- FNFREE (R334). -/
  | fnfree (node : Nat) (v : BitVec 64)
  /-- COMMAND_MESSAGE (R26). -/
  | commandMessage (node func ep host seq op len resv bytes : Nat) (tag : BitVec 64) (payload : List (BitVec 64))
  /-- SLOT_LOAD (R12). -/
  | slotLoad (node func idx : Nat)
  /-- SLOT_UNLOAD (R11). -/
  | slotUnload (node func idx : Nat)
  /-- SLOT_QUERY (R11). -/
  | slotQuery (node func idx : Nat)
  /-- INVOKE (R30). -/
  | invoke (node func idx : Nat)
  /-- SCHED_SET (R33). -/
  | schedSet (node func idx : Nat)
  /-- ADMIT (R34). -/
  | admitRequest (node func idx : Nat)
  /-- CANCEL (R38). -/
  | cancel (node func idx : Nat)
  /-- PACK_REGISTER (R39). -/
  | packRegister (node func idx : Nat)
  /-- PACK_DROP (R39). -/
  | packDrop (node func idx : Nat)
  /-- TRANSLATION_WALK (R63). -/
  | translationWalk (node core unit kind : Nat) (va : BitVec 64)
  /-- TIMED_WAIT_TIMEOUT (R233). -/
  | timedWaitTimeout (node core : Nat)
  /-- BANK_POWER_GATE (R309). -/
  | bankPowerGate (node core bank : Nat)
  /-- TAGGED_REQUEST_AT_HOME (R238). -/
  | taggedRequestAtHome (node core : Nat)
  /-- ROUTER_ATOMIC (R244). -/
  | routerAtomic (node core fn : Nat) (addr operand cmp : BitVec 64)
  /-- PACKET_RESIDENCY_DROP (R284). -/
  | packetResidencyDrop (src dst seq : Nat)
  /-- SWITCH_PORT_DOWN_TIMEOUT (R282). -/
  | switchPortDownTimeout (sw node : Nat)
  /-- SWITCH_DROP_NOTICE (R282). -/
  | switchDropNotice (src dst seq : Nat)
  /-- PACKAGE_RESET (R337). -/
  | packageReset (node : Nat)
  /-- LINK_READY (R345). -/
  | linkReady (node link : Nat)
  /-- LINK_DOWN (R345). -/
  | linkDown (node link : Nat)
  /-- REJOIN_QUIET_EXPIRE (R285). -/
  | rejoinQuietExpire (node : Nat)
  /-- REJOIN_NOTICE (R285). -/
  | rejoinNotice (home src : Nat)
  /-- REJOIN_ACK (R285). -/
  | rejoinAck (node src : Nat)
  /-- REJOIN_ACK_TIMEOUT (R285). -/
  | rejoinAckTimeout (node src : Nat)
  /-- PROBE_FIRE (R286). -/
  | probeFire (node router : Nat)
  /-- PROBE_RETURN (R286). -/
  | probeReturn (node router : Nat)
  /-- SWITCH_FAILURE_DECLARE (R289). -/
  | switchFailureDeclare (node sw : Nat)
  /-- MIRROR_ACK (R288). -/
  | mirrorAck (sw idx : Nat)
  /-- REDUCTION_CONTRIBUTION (R219). -/
  | reductionContribution (node core : Nat) (form : Bool) (ctx capb : BitVec 64) (data : List Byte)
  /-- REDUCTION_LOAD (R219). -/
  | reductionLoad (node core : Nat) (ctx capb : BitVec 64)
  /-- D2D_LINK_FAIL (R291). -/
  | d2dLinkFail (node pair : Nat)
  /-- SLBIND (R43). -/
  | slbind (node : Nat) (v : BitVec 64)
  /-- FUNC_STORE (R329). -/
  | funcStore (node slice func : Nat)
  /-- PREEMPT (R316). -/
  | preempt (node : Nat) (v : BitVec 64)
  /-- FREEZE (R318). -/
  | freeze (node core : Nat)
  /-- CTXOP_SAVE (R320). -/
  | ctxopSave (node : Nat) (v : BitVec 64)
  /-- CTXOP_HOLD (R324). -/
  | ctxopHold (node : Nat) (v : BitVec 64)
  /-- CTXOP_RESTORE (R322). -/
  | ctxopRestore (node : Nat) (v : BitVec 64)
  /-- CTXOP_RESUME (R324). -/
  | ctxopResume (node : Nat) (v : BitVec 64)
  /-- EPBIND_DETACH (R328). -/
  | epbindDetach (node : Nat) (v : BitVec 64)
  /-- EPBIND_ATTACH (R328). -/
  | epbindAttach (node : Nat) (v : BitVec 64)
  /-- SLFREE (R333). -/
  | slfree (node : Nat) (v : BitVec 64)
  /-- HELD_RELEASE_PERFORM (R283). -/
  | heldReleasePerform (dst src seq : Nat)
  /-- KEYCTL_LOAD (R340). -/
  | keyctlLoad (node : Nat) (v : BitVec 64)
  /-- KEYCTL_ERASE (R340). -/
  | keyctlErase (node : Nat) (v : BitVec 64)
  /-- DEBUG_UNLOCK (R342). -/
  | debugUnlock (node : Nat) (v : BitVec 64)
  /-- RELBASE (R311). -/
  | relbase (node : Nat) (v : BitVec 64)
  /-- RELTAIL (R311). -/
  | reltail (node : Nat) (v : BitVec 64)
  /-- RELOVF (R310). -/
  | relovf (node : Nat) (v : BitVec 64)
  /-- RELHEAD (R310). -/
  | relhead (node core : Nat) (d : BitVec 5)
  /-- RSTKBASE (R124). -/
  | rstkbase (node core : Nat) (v : BitVec 64)
  /-- SPDM_MESSAGE (R343). -/
  | spdmMessage (node ep code : Nat) (param : BitVec 64)
  /-- OPERATOR_COMMAND (R344). -/
  | operatorCommand (node ep kind : Nat) (key : BitVec 256) (cseq : BitVec 64) (body : List (BitVec 64)) (sig : BitVec 512)
  /-- IMAGE_WRITE (R343). -/
  | imageWrite (node ep : Nat) (key : BitVec 256) (cseq : BitVec 64) (hdr : BitVec 64) (image : List Byte) (sig : BitVec 512)
  /-- TENANT_KEY_DELIVERY (R344). -/
  | tenantKeyDelivery (node ep func : Nat) (key : BitVec 512)
  /-- SWITCH_ATTACH (R294). -/
  | switchAttach (owner ofunc entry node func : Nat) (vbase : BitVec 64)
  /-- SWITCH_READMIT (R346). -/
  | switchReadmit (node sw : Nat)
  /-- LOCKSTEP_MISMATCH (R336). -/
  | lockstepMismatch (node : Nat)
  /-- WORKER_TIMEOUT (R336). -/
  | workerTimeout (node worker : Nat)
  /-- THERMAL_THROTTLE (R346). -/
  | thermalThrottle (node die : Nat)
  /-- POWER_THROTTLE (R346). -/
  | powerThrottle (node die : Nat)
  /-- REPLY_RECEIVE (R284). -/
  | replyReceive (src dst seq : Nat)
  /-- PATROL_SCRUB (R315). -/
  | patrolScrub (node : Nat) (line : BitVec 64)
  /-- LIFECYCLE_CHANGE (R341). -/
  | lifecycleChange (node state : Nat)
  /-- VNOP (R179). -/
  | vnop
  /-- MNOP (R184). -/
  | mnop
  /-- CNOP (R212). -/
  | cnop
  deriving DecidableEq, Repr

end Sys2Proof
end

