-- ==== Sys2Proof/Decode.lean ====
section
/-!
DEFINITION. Decoding and encoding of the four instruction streams (R99 to R115). Each decoder makes the checks of
R108 or of R109 step 2 in their order and rejects by the cause of Table 7.5. The streams share bit patterns, so a word
is read by the decoder of the stream it stands in (R100).
-/
namespace Sys2Proof

/-- Why a word is rejected: the causes of Table 7.5 that a word alone can raise, and a byte list that ends inside the
instruction. -/
inductive EncCause where
  /-- 0x00 -/
  | opcode
  /-- 0x01 -/
  | selector
  /-- 0x02 -/
  | accessField
  /-- 0x03 -/
  | range
  /-- 0x05 -/
  | engineOpcode
  /-- 0x06 -/
  | engineField
  /-- 0x07 -/
  | specifier
  /-- 0x08 -/
  | bank
  /-- 0x09 -/
  | variant
  /-- 0x0A -/
  | followOn
  /-- 0x0C -/
  | followWord
  /-- the bytes end before the instruction does; no word of the machine raises it -/
  | short
  deriving DecidableEq, Repr

/-- The code of Table 7.5. -/
def EncCause.code : EncCause → Nat
  | .opcode => 0x00
  | .selector => 0x01
  | .accessField => 0x02
  | .range => 0x03
  | .engineOpcode => 0x05
  | .engineField => 0x06
  | .specifier => 0x07
  | .bank => 0x08
  | .variant => 0x09
  | .followOn => 0x0A
  | .followWord => 0x0C
  | .short => 0x0D

/-- The k-bit field at bit lo of a word. -/
def fld (k lo n : Nat) : BitVec k := BitVec.ofNat k (n / 2 ^ lo)

/-- R108 steps 3 and 4: reserved fields zero, then every field in range. -/
def admit2 (resv inRange : Bool) (i : Instr) : Except EncCause Instr :=
  if resv then if inRange then .ok i else .error .range else .error .accessField

/-- R109 step 2 for an engine word: reserved fields, specifiers, variants, banks, in this order. -/
def admit4 (resv specs variants banks : Bool) (i : Instr) : Except EncCause Instr :=
  if resv then if specs then if variants then if banks then .ok i else .error .bank
    else .error .variant else .error .specifier else .error .engineField

/-- Table 7.6: an access word, with the two words that follow it for the push of an engine instruction (R99). -/
def decodeAccess (w w1 w2 : W32) : Except EncCause Instr :=
  let n := w.toNat
  match bits n 25 7 with
  | 0x01 =>
    match bits n 0 7 with
    | 0x00 => admit2 (true) (true) (.addI64 (fld 5 20 n) (fld 5 15 n) (fld 5 10 n) (fld 3 7 n))
    | 0x01 => admit2 (true) (true) (.subI64 (fld 5 20 n) (fld 5 15 n) (fld 5 10 n) (fld 3 7 n))
    | 0x02 => admit2 (true) (true) (.mulI64 (fld 5 20 n) (fld 5 15 n) (fld 5 10 n) (fld 3 7 n))
    | 0x03 => admit2 (true) (true) (.mulhI64 (fld 5 20 n) (fld 5 15 n) (fld 5 10 n) (fld 3 7 n))
    | 0x04 => admit2 (true) (true) (.mulhW64 (fld 5 20 n) (fld 5 15 n) (fld 5 10 n) (fld 3 7 n))
    | 0x05 => admit2 (true) (true) (.divI64 (fld 5 20 n) (fld 5 15 n) (fld 5 10 n) (fld 3 7 n))
    | 0x06 => admit2 (true) (true) (.divW64 (fld 5 20 n) (fld 5 15 n) (fld 5 10 n) (fld 3 7 n))
    | 0x07 => admit2 (true) (true) (.remI64 (fld 5 20 n) (fld 5 15 n) (fld 5 10 n) (fld 3 7 n))
    | 0x08 => admit2 (true) (true) (.andW64 (fld 5 20 n) (fld 5 15 n) (fld 5 10 n) (fld 3 7 n))
    | 0x09 => admit2 (true) (true) (.orW64 (fld 5 20 n) (fld 5 15 n) (fld 5 10 n) (fld 3 7 n))
    | 0x0A => admit2 (true) (true) (.xorW64 (fld 5 20 n) (fld 5 15 n) (fld 5 10 n) (fld 3 7 n))
    | 0x0B => admit2 (true) (true) (.shlI64 (fld 5 20 n) (fld 5 15 n) (fld 5 10 n) (fld 3 7 n))
    | 0x0C => admit2 (true) (true) (.shrW64 (fld 5 20 n) (fld 5 15 n) (fld 5 10 n) (fld 3 7 n))
    | 0x0D => admit2 (true) (true) (.sraI64 (fld 5 20 n) (fld 5 15 n) (fld 5 10 n) (fld 3 7 n))
    | _ => .error .selector
  | 0x02 =>
    match bits n 0 7 with
    | 0x00 => admit2 (true) (bits n 23 2 == 0) (.cmpEqI64 (fld 3 20 n) (fld 5 15 n) (fld 5 10 n) (fld 3 7 n))
    | 0x01 => admit2 (true) (bits n 23 2 == 0) (.cmpNeI64 (fld 3 20 n) (fld 5 15 n) (fld 5 10 n) (fld 3 7 n))
    | 0x02 => admit2 (true) (bits n 23 2 == 0) (.cmpLtI64 (fld 3 20 n) (fld 5 15 n) (fld 5 10 n) (fld 3 7 n))
    | 0x03 => admit2 (true) (bits n 23 2 == 0) (.cmpGeI64 (fld 3 20 n) (fld 5 15 n) (fld 5 10 n) (fld 3 7 n))
    | 0x04 => admit2 (true) (bits n 23 2 == 0) (.cmpLtW64 (fld 3 20 n) (fld 5 15 n) (fld 5 10 n) (fld 3 7 n))
    | 0x05 => admit2 (true) (bits n 23 2 == 0) (.cmpGeW64 (fld 3 20 n) (fld 5 15 n) (fld 5 10 n) (fld 3 7 n))
    | _ => .error .selector
  | 0x03 =>
    match bits n 0 7 with
    | 0x00 => admit2 (true) (bits n 13 2 == 0 && bits n 18 2 == 0 && bits n 23 2 == 0) (.pand (fld 3 20 n) (fld 3 15 n) (fld 3 10 n) (fld 3 7 n))
    | 0x01 => admit2 (true) (bits n 13 2 == 0 && bits n 18 2 == 0 && bits n 23 2 == 0) (.por (fld 3 20 n) (fld 3 15 n) (fld 3 10 n) (fld 3 7 n))
    | 0x02 => admit2 (true) (bits n 13 2 == 0 && bits n 18 2 == 0 && bits n 23 2 == 0) (.pxor (fld 3 20 n) (fld 3 15 n) (fld 3 10 n) (fld 3 7 n))
    | 0x03 => admit2 (true) (bits n 13 2 == 0 && bits n 18 2 == 0 && bits n 23 2 == 0) (.pandn (fld 3 20 n) (fld 3 15 n) (fld 3 10 n) (fld 3 7 n))
    | 0x04 => admit2 (bits n 10 5 == 0) (bits n 23 2 == 0) (.pset (fld 3 20 n) (fld 5 15 n) (fld 3 7 n))
    | 0x05 => admit2 (bits n 10 5 == 0) (bits n 18 2 == 0) (.pget (fld 5 20 n) (fld 3 15 n) (fld 3 7 n))
    | _ => .error .selector
  | 0x08 => admit2 (true) (true) (.addiI64 (fld 5 20 n) (fld 5 15 n) (fld 3 12 n) (fld 12 0 n))
  | 0x09 => admit2 (true) (true) (.andiW64 (fld 5 20 n) (fld 5 15 n) (fld 3 12 n) (fld 12 0 n))
  | 0x0A => admit2 (true) (true) (.oriW64 (fld 5 20 n) (fld 5 15 n) (fld 3 12 n) (fld 12 0 n))
  | 0x0B => admit2 (true) (true) (.xoriW64 (fld 5 20 n) (fld 5 15 n) (fld 3 12 n) (fld 12 0 n))
  | 0x0C => admit2 (bits n 6 6 == 0) (true) (.shliI64 (fld 5 20 n) (fld 5 15 n) (fld 3 12 n) (fld 6 0 n))
  | 0x0D => admit2 (bits n 6 6 == 0) (true) (.shriW64 (fld 5 20 n) (fld 5 15 n) (fld 3 12 n) (fld 6 0 n))
  | 0x0E => admit2 (bits n 6 6 == 0) (true) (.sraiI64 (fld 5 20 n) (fld 5 15 n) (fld 3 12 n) (fld 6 0 n))
  | 0x10 => admit2 (true) (true) (.li (fld 5 20 n) (fld 20 0 n))
  | 0x12 => admit2 (true) (bits n 19 1 == 0) (.lea (fld 5 20 n) (fld 4 15 n) (fld 3 12 n) (fld 12 0 n))
  | 0x13 => admit2 (bits n 0 12 == 0) (bits n 19 1 == 0) (.bxlen (fld 5 20 n) (fld 4 15 n) (fld 3 12 n))
  | 0x18 => admit2 (true) (true) (.br (fld 3 22 n) (fld 1 21 n) (fld 21 0 n))
  | 0x19 => admit2 (true) (true) (.call (fld 3 22 n) (fld 1 21 n) (fld 21 0 n))
  | 0x1A =>
    match bits n 0 7 with
    | 0x00 => admit2 (bits n 10 5 == 0 && bits n 20 5 == 0) (true) (.jr (fld 5 15 n) (fld 3 7 n))
    | 0x01 => admit2 (bits n 10 15 == 0) (true) (.ret (fld 3 7 n))
    | _ => .error .selector
  | 0x1B => admit2 (bits n 20 5 == 0) (0 < bits n 0 12) (.loop (fld 5 15 n) (fld 3 12 n) (fld 12 0 n))
  | 0x20 => admit2 (true) (true) (.ldW8 (fld 5 20 n) (fld 5 15 n) (fld 3 12 n) (fld 12 0 n))
  | 0x21 => admit2 (true) (true) (.ldW16 (fld 5 20 n) (fld 5 15 n) (fld 3 12 n) (fld 12 0 n))
  | 0x22 => admit2 (true) (true) (.ldW32 (fld 5 20 n) (fld 5 15 n) (fld 3 12 n) (fld 12 0 n))
  | 0x23 => admit2 (true) (true) (.ldW64 (fld 5 20 n) (fld 5 15 n) (fld 3 12 n) (fld 12 0 n))
  | 0x24 => admit2 (true) (true) (.ldI8 (fld 5 20 n) (fld 5 15 n) (fld 3 12 n) (fld 12 0 n))
  | 0x25 => admit2 (true) (true) (.ldI32 (fld 5 20 n) (fld 5 15 n) (fld 3 12 n) (fld 12 0 n))
  | 0x28 => admit2 (true) (true) (.stW8 (fld 5 20 n) (fld 5 15 n) (fld 3 12 n) (fld 12 0 n))
  | 0x29 => admit2 (true) (true) (.stW16 (fld 5 20 n) (fld 5 15 n) (fld 3 12 n) (fld 12 0 n))
  | 0x2A => admit2 (true) (true) (.stW32 (fld 5 20 n) (fld 5 15 n) (fld 3 12 n) (fld 12 0 n))
  | 0x2B => admit2 (true) (true) (.stW64 (fld 5 20 n) (fld 5 15 n) (fld 3 12 n) (fld 12 0 n))
  | 0x2C =>
    match bits n 3 4 with
    | 0x00 => admit2 (bits n 10 5 == 0) (bits n 0 3 < 5) (.ldAcqW32 (fld 5 20 n) (fld 5 15 n) (fld 3 7 n) (fld 3 0 n))
    | 0x01 => admit2 (bits n 10 5 == 0) (bits n 0 3 < 5) (.ldAcqW64 (fld 5 20 n) (fld 5 15 n) (fld 3 7 n) (fld 3 0 n))
    | 0x02 => admit2 (bits n 20 5 == 0) (bits n 0 3 < 5) (.stRelW32 (fld 5 15 n) (fld 5 10 n) (fld 3 7 n) (fld 3 0 n))
    | 0x03 => admit2 (bits n 20 5 == 0) (bits n 0 3 < 5) (.stRelW64 (fld 5 15 n) (fld 5 10 n) (fld 3 7 n) (fld 3 0 n))
    | _ => .error .selector
  | 0x30 =>
    match bits n 0 5 with
    | 0x00 => admit2 (bits n 5 5 == 0) (0 < bits n 15 7 && bits n 15 7 < 64) (.waitTk (fld 3 22 n) (fld 7 15 n) (fld 5 10 n))
    | 0x01 => admit2 (bits n 5 5 == 0) (true) (.barWait (fld 3 22 n) (fld 7 15 n) (fld 5 10 n))
    | 0x02 => admit2 (true) (bits n 20 2 == 0) (.ldwfW64 (fld 3 22 n) (fld 5 15 n) (fld 5 10 n) (fld 5 5 n))
    | 0x03 => admit2 (true) (bits n 20 2 == 0) (.stweW64 (fld 3 22 n) (fld 5 15 n) (fld 5 10 n) (fld 5 5 n))
    | 0x04 => admit2 (true) (bits n 15 7 < 4) (.pop (fld 3 22 n) (fld 7 15 n) (fld 5 10 n) (fld 5 5 n))
    | _ => .error .selector
  | 0x31 =>
    match bits n 0 5 with
    | 0x00 => admit2 (bits n 5 10 == 0 && bits n 22 3 == 0) (0 < bits n 15 7 && bits n 15 7 < 64) (.sigTk (fld 7 15 n))
    | 0x01 => admit2 (bits n 5 10 == 0 && bits n 22 3 == 0) (true) (.barArrive (fld 7 15 n))
    | 0x02 => admit2 (bits n 5 10 == 0 && bits n 22 3 == 0) (bits n 15 7 < 64) (.join (fld 7 15 n))
    | 0x03 => admit2 (bits n 5 10 == 0 && bits n 22 3 == 0) (bits n 15 7 < 64) (.leave (fld 7 15 n))
    | _ => .error .selector
  | 0x34 =>
    match bits n 0 7 with
    | 0x00 => admit2 (true) (true) (.amoAddW64 (fld 5 20 n) (fld 5 15 n) (fld 5 10 n) (fld 3 7 n))
    | 0x01 => admit2 (true) (true) (.amoMinI64 (fld 5 20 n) (fld 5 15 n) (fld 5 10 n) (fld 3 7 n))
    | 0x02 => admit2 (true) (true) (.amoMaxI64 (fld 5 20 n) (fld 5 15 n) (fld 5 10 n) (fld 3 7 n))
    | 0x03 => admit2 (true) (true) (.amoAndW64 (fld 5 20 n) (fld 5 15 n) (fld 5 10 n) (fld 3 7 n))
    | 0x04 => admit2 (true) (true) (.amoOrW64 (fld 5 20 n) (fld 5 15 n) (fld 5 10 n) (fld 3 7 n))
    | 0x05 => admit2 (true) (true) (.amoXorW64 (fld 5 20 n) (fld 5 15 n) (fld 5 10 n) (fld 3 7 n))
    | 0x06 => admit2 (true) (true) (.amoXchgW64 (fld 5 20 n) (fld 5 15 n) (fld 5 10 n) (fld 3 7 n))
    | 0x07 => admit2 (true) (true) (.amoCasW64 (fld 5 20 n) (fld 5 15 n) (fld 5 10 n) (fld 3 7 n))
    | _ => .error .selector
  | 0x36 =>
    match bits n 3 4 with
    | 0x00 => admit2 (bits n 10 15 == 0) (bits n 0 3 < 5) (.fence (fld 3 7 n) (fld 3 0 n))
    | 0x01 => admit2 (bits n 20 5 == 0) (bits n 0 3 < 5) (.fenceR (fld 5 15 n) (fld 5 10 n) (fld 3 7 n) (fld 3 0 n))
    | _ => .error .selector
  | 0x37 => admit2 (bits n 0 7 == 0) (bits n 22 3 == 0) (.rld (fld 2 20 n) (fld 5 15 n) (fld 5 10 n) (fld 3 7 n))
  | 0x38 =>
    match bits n 3 4 with
    | 0x00 => admit2 (true) (true) (.setshapeV (fld 5 20 n) (fld 5 15 n) (fld 5 10 n) (fld 3 7 n) (fld 3 0 n))
    | 0x01 => admit2 (true) (bits n 15 5 < 30) (.setshapeM (fld 5 20 n) (fld 5 15 n) (fld 5 10 n) (fld 3 7 n) (fld 3 0 n))
    | _ => .error .selector
  | 0x3A =>
    match bits n 3 4 with
    | 0x00 => admit2 (true) (0 < bits n 20 5 && bits n 20 5 < 31) (.asnap (fld 5 20 n) (fld 5 15 n) (fld 5 10 n) (fld 3 7 n) (fld 3 0 n))
    | 0x01 => admit2 (bits n 10 10 == 0) (true) (.tstat (fld 5 20 n) (fld 3 7 n) (fld 3 0 n))
    | _ => .error .selector
  | 0x3C =>
    match bits n 0 7 with
    | 0x00 => admit2 (true) (true) (.swalloc (fld 5 20 n) (fld 5 15 n) (fld 5 10 n) (fld 3 7 n))
    | 0x01 => admit2 (bits n 10 5 == 0) (true) (.swfree (fld 5 20 n) (fld 5 15 n) (fld 3 7 n))
    | 0x02 => admit2 (bits n 10 5 == 0) (0 < bits n 20 5 && bits n 20 5 < 31) (.swquota (fld 5 20 n) (fld 5 15 n) (fld 3 7 n))
    | _ => .error .selector
  | 0x3F => admit2 (bits n 20 5 == 0) (true) (.yield (fld 20 0 n))
  | 0x40 => .ok (.enqueuePrefix (fld 2 23 n) (fld 6 17 n) (fld 6 11 n) (fld 1 10 n) (fld 5 5 n) (fld 5 0 n) w1 w2)
  | 0x70 => admit2 (bits n 20 5 == 0) (true) (.trap (fld 20 0 n))
  | 0x71 =>
    match bits n 0 7 with
    | 0x00 => admit2 (bits n 10 15 == 0) (true) (.rft (fld 3 7 n))
    | 0x01 => admit2 (bits n 10 15 == 0) (true) (.endThread (fld 3 7 n))
    | _ => .error .selector
  | 0x72 => admit2 (bits n 15 5 == 0) (true) (.csrr (fld 5 20 n) (fld 3 12 n) (fld 12 0 n))
  | 0x73 => admit2 (bits n 20 5 == 0) (true) (.csrw (fld 5 15 n) (fld 3 12 n) (fld 12 0 n))
  | 0x74 =>
    match bits n 0 7 with
    | 0x00 => admit2 (bits n 10 5 == 0) (true) (.resume (fld 5 20 n) (fld 5 15 n) (fld 3 7 n))
    | 0x01 => admit2 (bits n 10 5 == 0) (true) (.qreset (fld 5 20 n) (fld 5 15 n) (fld 3 7 n))
    | 0x02 =>
      match bits n 20 5 with
      | 0 => admit2 (bits n 10 5 == 0) (true) (.tinvPg1 (fld 5 15 n) (fld 3 7 n))
      | 1 => admit2 (true) (true) (.tinvRg1 (fld 5 15 n) (fld 5 10 n) (fld 3 7 n))
      | 2 => admit2 (bits n 10 10 == 0) (true) (.tinvAll1 (fld 3 7 n))
      | 3 => admit2 (true) (true) (.tinvPg2 (fld 5 15 n) (fld 5 10 n) (fld 3 7 n))
      | 4 => admit2 (true) (true) (.tinvRg2 (fld 5 15 n) (fld 5 10 n) (fld 3 7 n))
      | 5 => admit2 (bits n 15 5 == 0) (true) (.tinvAll2 (fld 5 10 n) (fld 3 7 n))
      | _ => .error .range
    | 0x03 => admit2 (bits n 20 5 == 0) (true) (.einj (fld 5 15 n) (fld 5 10 n) (fld 3 7 n))
    | _ => .error .selector
  | 0x7C =>
    match bits n 0 7 with
    | 0x00 => admit2 (bits n 10 5 == 0) (true) (.takeIb (fld 5 20 n) (fld 5 15 n) (fld 3 7 n))
    | 0x01 => admit2 (true) (true) (.commitIb (fld 5 20 n) (fld 5 15 n) (fld 5 10 n) (fld 3 7 n))
    | 0x02 => admit2 (true) (true) (.attest (fld 5 20 n) (fld 5 15 n) (fld 5 10 n) (fld 3 7 n))
    | _ => .error .selector
  | _ => .error .opcode

/-- A source specifier (Table 7.4). -/
def srcOk (v : Nat) : Bool := v < 0x38 || v == 0x38 || v == 0x39 || v == 0x3C

/-- A destination specifier (Table 7.4). -/
def dstOk (v : Nat) : Bool := v < 0x20 || (0x30 ≤ v && v < 0x34) || v == 0x3F

/-- R107: two named registers must be of different banks. -/
def bankOk (a b : Nat) : Bool := !(a < 0x20 && b < 0x20) || a % 2 != b % 2

/-- The block format codes of Table 4.2. -/
def blockCode (f : Nat) : Bool := (0x08 ≤ f && f ≤ 0x0A) || (0x0C ≤ f && f ≤ 0x0E)

/-- R112, R172: the type pair of a conversion: float or integer classes as the opcode names them, codes assigned, and
different types. -/
def pairOk (tgtFloat srcFloat : Bool) (t : Nat) : Bool :=
  let tg := t / 8 % 8
  let sr := t % 8
  tg < (if tgtFloat then 6 else 5) && sr < (if srcFloat then 6 else 5) && (tgtFloat != srcFloat || tg != sr)

/-- Table 7.7: a vector word. -/
def decodeVector (w : W32) : Except EncCause Instr :=
  let n := w.toNat
  match bits n 26 6 with
  | 0x01 => admit4 (true) (dstOk (bits n 20 6) && srcOk (bits n 14 6) && srcOk (bits n 8 6)) (true) (bankOk (bits n 14 6) (bits n 8 6)) (.vaddF32 (fld 6 20 n) (fld 6 14 n) (fld 6 8 n) (fld 3 5 n) (fld 3 2 n) (fld 2 0 n))
  | 0x02 => admit4 (true) (dstOk (bits n 20 6) && srcOk (bits n 14 6) && srcOk (bits n 8 6)) (true) (bankOk (bits n 14 6) (bits n 8 6)) (.vsubF32 (fld 6 20 n) (fld 6 14 n) (fld 6 8 n) (fld 3 5 n) (fld 3 2 n) (fld 2 0 n))
  | 0x03 => admit4 (true) (dstOk (bits n 20 6) && srcOk (bits n 14 6) && srcOk (bits n 8 6)) (true) (bankOk (bits n 14 6) (bits n 8 6)) (.vmulF32 (fld 6 20 n) (fld 6 14 n) (fld 6 8 n) (fld 3 5 n) (fld 3 2 n) (fld 2 0 n))
  | 0x04 => admit4 (true) (dstOk (bits n 20 6) && srcOk (bits n 14 6) && srcOk (bits n 8 6)) (true) (bankOk (bits n 14 6) (bits n 8 6)) (.vfmaF32 (fld 6 20 n) (fld 6 14 n) (fld 6 8 n) (fld 3 5 n) (fld 3 2 n) (fld 2 0 n))
  | 0x05 => admit4 (true) (dstOk (bits n 20 6) && srcOk (bits n 14 6) && srcOk (bits n 8 6)) (true) (bankOk (bits n 14 6) (bits n 8 6)) (.vfmaF32TMultiplier (fld 6 20 n) (fld 6 14 n) (fld 6 8 n) (fld 3 5 n) (fld 3 2 n) (fld 2 0 n))
  | 0x06 => admit4 (true) (dstOk (bits n 20 6) && srcOk (bits n 14 6) && srcOk (bits n 8 6)) (bits n 0 2 == 0) (bankOk (bits n 14 6) (bits n 8 6)) (.vminF32 (fld 6 20 n) (fld 6 14 n) (fld 6 8 n) (fld 3 5 n) (fld 3 2 n))
  | 0x07 => admit4 (true) (dstOk (bits n 20 6) && srcOk (bits n 14 6) && srcOk (bits n 8 6)) (bits n 0 2 == 0) (bankOk (bits n 14 6) (bits n 8 6)) (.vmaxF32 (fld 6 20 n) (fld 6 14 n) (fld 6 8 n) (fld 3 5 n) (fld 3 2 n))
  | 0x08 => admit4 (bits n 8 6 == 0) (dstOk (bits n 20 6) && srcOk (bits n 14 6)) (bits n 0 2 == 0) (true) (.vabsF32 (fld 6 20 n) (fld 6 14 n) (fld 3 5 n) (fld 3 2 n))
  | 0x09 => admit4 (bits n 8 6 == 0) (dstOk (bits n 20 6) && srcOk (bits n 14 6)) (bits n 0 2 == 0) (true) (.vnegF32 (fld 6 20 n) (fld 6 14 n) (fld 3 5 n) (fld 3 2 n))
  | 0x0A => admit4 (true) (0 < bits n 20 6 && bits n 20 6 < 8 && srcOk (bits n 14 6) && srcOk (bits n 8 6)) (true) (bankOk (bits n 14 6) (bits n 8 6)) (.vcmpF32 (fld 6 20 n) (fld 6 14 n) (fld 6 8 n) (fld 3 5 n) (fld 3 2 n) (fld 2 0 n))
  | 0x0B => admit4 (bits n 8 6 == 0) (dstOk (bits n 20 6) && srcOk (bits n 14 6)) (bits n 0 2 == 0) (true) (.vrcpF32 (fld 6 20 n) (fld 6 14 n) (fld 3 5 n) (fld 3 2 n))
  | 0x0C => admit4 (bits n 8 6 == 0) (dstOk (bits n 20 6) && srcOk (bits n 14 6)) (bits n 0 2 == 0) (true) (.vrsqrtF32 (fld 6 20 n) (fld 6 14 n) (fld 3 5 n) (fld 3 2 n))
  | 0x0D => admit4 (bits n 8 6 == 0) (dstOk (bits n 20 6) && srcOk (bits n 14 6)) (bits n 0 2 == 0) (true) (.vexp2F32 (fld 6 20 n) (fld 6 14 n) (fld 3 5 n) (fld 3 2 n))
  | 0x0E => admit4 (bits n 8 6 == 0) (dstOk (bits n 20 6) && srcOk (bits n 14 6)) (bits n 0 2 == 0) (true) (.vlog2F32 (fld 6 20 n) (fld 6 14 n) (fld 3 5 n) (fld 3 2 n))
  | 0x0F => admit4 (bits n 8 6 == 0) (dstOk (bits n 20 6) && srcOk (bits n 14 6)) (bits n 0 2 == 0) (true) (.vtanhF32 (fld 6 20 n) (fld 6 14 n) (fld 3 5 n) (fld 3 2 n))
  | 0x10 => admit4 (true) (dstOk (bits n 20 6) && srcOk (bits n 14 6) && srcOk (bits n 8 6)) (true) (bankOk (bits n 14 6) (bits n 8 6)) (.vaddInt (fld 6 20 n) (fld 6 14 n) (fld 6 8 n) (fld 3 5 n) (fld 3 2 n) (fld 2 0 n))
  | 0x11 => admit4 (true) (dstOk (bits n 20 6) && srcOk (bits n 14 6) && srcOk (bits n 8 6)) (true) (bankOk (bits n 14 6) (bits n 8 6)) (.vsubInt (fld 6 20 n) (fld 6 14 n) (fld 6 8 n) (fld 3 5 n) (fld 3 2 n) (fld 2 0 n))
  | 0x12 => admit4 (true) (dstOk (bits n 20 6) && srcOk (bits n 14 6) && srcOk (bits n 8 6)) (true) (bankOk (bits n 14 6) (bits n 8 6)) (.vmulInt (fld 6 20 n) (fld 6 14 n) (fld 6 8 n) (fld 3 5 n) (fld 3 2 n) (fld 2 0 n))
  | 0x13 => admit4 (true) (dstOk (bits n 20 6) && srcOk (bits n 14 6) && srcOk (bits n 8 6)) (bits n 1 1 == 0) (bankOk (bits n 14 6) (bits n 8 6)) (.vmulh (fld 6 20 n) (fld 6 14 n) (fld 6 8 n) (fld 3 5 n) (fld 3 2 n) (fld 1 0 n))
  | 0x14 => admit4 (true) (dstOk (bits n 20 6) && srcOk (bits n 14 6) && srcOk (bits n 8 6)) (bits n 1 1 == 0) (bankOk (bits n 14 6) (bits n 8 6)) (.vminInt (fld 6 20 n) (fld 6 14 n) (fld 6 8 n) (fld 3 5 n) (fld 3 2 n) (fld 1 0 n))
  | 0x15 => admit4 (true) (dstOk (bits n 20 6) && srcOk (bits n 14 6) && srcOk (bits n 8 6)) (bits n 1 1 == 0) (bankOk (bits n 14 6) (bits n 8 6)) (.vmaxInt (fld 6 20 n) (fld 6 14 n) (fld 6 8 n) (fld 3 5 n) (fld 3 2 n) (fld 1 0 n))
  | 0x16 => admit4 (bits n 8 6 == 0) (dstOk (bits n 20 6) && srcOk (bits n 14 6)) (bits n 0 2 == 0) (true) (.vabsInt (fld 6 20 n) (fld 6 14 n) (fld 3 5 n) (fld 3 2 n))
  | 0x17 => admit4 (true) (dstOk (bits n 20 6) && srcOk (bits n 14 6) && srcOk (bits n 8 6)) (bits n 0 2 == 0) (bankOk (bits n 14 6) (bits n 8 6)) (.vand (fld 6 20 n) (fld 6 14 n) (fld 6 8 n) (fld 3 5 n) (fld 3 2 n))
  | 0x18 => admit4 (true) (dstOk (bits n 20 6) && srcOk (bits n 14 6) && srcOk (bits n 8 6)) (bits n 0 2 == 0) (bankOk (bits n 14 6) (bits n 8 6)) (.vor (fld 6 20 n) (fld 6 14 n) (fld 6 8 n) (fld 3 5 n) (fld 3 2 n))
  | 0x19 => admit4 (true) (dstOk (bits n 20 6) && srcOk (bits n 14 6) && srcOk (bits n 8 6)) (bits n 0 2 == 0) (bankOk (bits n 14 6) (bits n 8 6)) (.vxor (fld 6 20 n) (fld 6 14 n) (fld 6 8 n) (fld 3 5 n) (fld 3 2 n))
  | 0x1A => admit4 (true) (dstOk (bits n 20 6) && srcOk (bits n 14 6) && srcOk (bits n 8 6)) (bits n 0 2 == 0) (bankOk (bits n 14 6) (bits n 8 6)) (.vshl (fld 6 20 n) (fld 6 14 n) (fld 6 8 n) (fld 3 5 n) (fld 3 2 n))
  | 0x1B => admit4 (true) (dstOk (bits n 20 6) && srcOk (bits n 14 6) && srcOk (bits n 8 6)) (bits n 1 1 == 0) (bankOk (bits n 14 6) (bits n 8 6)) (.vshr (fld 6 20 n) (fld 6 14 n) (fld 6 8 n) (fld 3 5 n) (fld 3 2 n) (fld 1 0 n))
  | 0x1C => admit4 (true) (0 < bits n 20 6 && bits n 20 6 < 8 && srcOk (bits n 14 6) && srcOk (bits n 8 6)) (true) (bankOk (bits n 14 6) (bits n 8 6)) (.vcmpSigned (fld 6 20 n) (fld 6 14 n) (fld 6 8 n) (fld 3 5 n) (fld 3 2 n) (fld 2 0 n))
  | 0x1D => admit4 (true) (0 < bits n 20 6 && bits n 20 6 < 8 && srcOk (bits n 14 6) && srcOk (bits n 8 6)) (true) (bankOk (bits n 14 6) (bits n 8 6)) (.vcmpUnsigned (fld 6 20 n) (fld 6 14 n) (fld 6 8 n) (fld 3 5 n) (fld 3 2 n) (fld 2 0 n))
  | 0x1E => admit4 (true) (dstOk (bits n 20 6) && srcOk (bits n 14 6) && srcOk (bits n 8 6)) (bits n 0 2 == 0) (bankOk (bits n 14 6) (bits n 8 6)) (.vsel (fld 6 20 n) (fld 6 14 n) (fld 6 8 n) (fld 3 5 n) (fld 3 2 n))
  | 0x1F => admit4 (bits n 2 3 == 0) (0 < bits n 20 6 && bits n 20 6 < 8 && bits n 14 6 < 8 && bits n 8 6 < 8) (true) (true) (.vmask (fld 6 20 n) (fld 6 14 n) (fld 6 8 n) (fld 3 5 n) (fld 2 0 n))
  | 0x20 => admit4 (bits n 8 6 == 0) (dstOk (bits n 20 6) && srcOk (bits n 14 6)) (bits n 0 2 == 0) (true) (.vmov (fld 6 20 n) (fld 6 14 n) (fld 3 5 n) (fld 3 2 n))
  | 0x21 => admit4 (true) (dstOk (bits n 20 6) && srcOk (bits n 14 6)) (pairOk true true (bits n 8 6)) (true) (.vcvt (fld 6 20 n) (fld 6 14 n) (fld 6 8 n) (fld 3 5 n) (fld 3 2 n) (fld 2 0 n))
  | 0x22 => admit4 (true) (dstOk (bits n 20 6) && srcOk (bits n 14 6)) (pairOk true true (bits n 8 6)) (true) (.vcvtSat (fld 6 20 n) (fld 6 14 n) (fld 6 8 n) (fld 3 5 n) (fld 3 2 n) (fld 2 0 n))
  | 0x23 => admit4 (true) (dstOk (bits n 20 6) && srcOk (bits n 14 6)) (pairOk false true (bits n 8 6)) (true) (.vcvtFloatToInt (fld 6 20 n) (fld 6 14 n) (fld 6 8 n) (fld 3 5 n) (fld 3 2 n) (fld 2 0 n))
  | 0x24 => admit4 (true) (dstOk (bits n 20 6) && srcOk (bits n 14 6)) (pairOk true false (bits n 8 6)) (true) (.vcvtIntToFloat (fld 6 20 n) (fld 6 14 n) (fld 6 8 n) (fld 3 5 n) (fld 3 2 n) (fld 2 0 n))
  | 0x25 => admit4 (true) (dstOk (bits n 20 6) && srcOk (bits n 14 6)) (pairOk false false (bits n 8 6)) (true) (.vcvtIntToInt (fld 6 20 n) (fld 6 14 n) (fld 6 8 n) (fld 3 5 n) (fld 3 2 n) (fld 2 0 n))
  | 0x26 => admit4 (bits n 2 3 == 0) (dstOk (bits n 20 6) && srcOk (bits n 14 6)) (blockCode (bits n 8 6)) (true) (.vbscale (fld 6 20 n) (fld 6 14 n) (fld 6 8 n) (fld 3 5 n) (fld 2 0 n))
  | 0x27 => admit4 (bits n 2 3 == 0) (dstOk (bits n 20 6) && srcOk (bits n 14 6)) (blockCode (bits n 8 6)) (true) (.vquant (fld 6 20 n) (fld 6 14 n) (fld 6 8 n) (fld 3 5 n) (fld 2 0 n))
  | 0x28 => admit4 (bits n 8 6 == 0) (dstOk (bits n 20 6) && srcOk (bits n 14 6)) (bits n 0 2 < 3) (true) (.vredF32 (fld 6 20 n) (fld 6 14 n) (fld 3 5 n) (fld 3 2 n) (fld 2 0 n))
  | 0x29 => admit4 (bits n 9 5 == 0) (dstOk (bits n 20 6) && srcOk (bits n 14 6)) (true) (true) (.vredInt (fld 6 20 n) (fld 6 14 n) (fld 1 8 n) (fld 3 5 n) (fld 3 2 n) (fld 2 0 n))
  | 0x2A => admit4 (bits n 8 6 == 0) (dstOk (bits n 20 6) && srcOk (bits n 14 6)) (bits n 0 2 < 3) (true) (.vscanF32 (fld 6 20 n) (fld 6 14 n) (fld 3 5 n) (fld 3 2 n) (fld 2 0 n))
  | 0x2B => admit4 (bits n 9 5 == 0) (dstOk (bits n 20 6) && srcOk (bits n 14 6)) (true) (true) (.vscanInt (fld 6 20 n) (fld 6 14 n) (fld 1 8 n) (fld 3 5 n) (fld 3 2 n) (fld 2 0 n))
  | 0x2C => admit4 (true) (dstOk (bits n 20 6) && srcOk (bits n 14 6) && srcOk (bits n 8 6)) (bits n 0 2 == 0) (bankOk (bits n 14 6) (bits n 8 6)) (.vperm (fld 6 20 n) (fld 6 14 n) (fld 6 8 n) (fld 3 5 n) (fld 3 2 n))
  | 0x2D => admit4 (bits n 8 6 == 0) (dstOk (bits n 20 6) && srcOk (bits n 14 6)) (bits n 0 2 == 0) (true) (.vrot (fld 6 20 n) (fld 6 14 n) (fld 3 5 n) (fld 3 2 n))
  | 0x2E => admit4 (bits n 8 12 == 0) (dstOk (bits n 20 6)) (bits n 0 2 == 0) (true) (.viota (fld 6 20 n) (fld 3 5 n) (fld 3 2 n))
  | 0x2F => admit4 (true) (8 ≤ bits n 20 6 && bits n 20 6 < 12 && srcOk (bits n 14 6) && 8 ≤ bits n 8 6 && bits n 8 6 < 12 && 0 < bits n 2 3) (bits n 0 2 == 0) (true) (.vpart (fld 6 20 n) (fld 6 14 n) (fld 6 8 n) (fld 3 5 n) (fld 3 2 n))
  | 0x30 => admit4 (bits n 2 3 == 0 && bits n 8 12 == 0) (bits n 20 6 < 12) (bits n 0 2 == 0) (true) (.vport (fld 6 20 n) (fld 3 5 n))
  | 0x31 => admit4 (bits n 2 3 == 0 && bits n 8 12 == 0) (bits n 20 6 < 12) (bits n 0 2 == 0) (true) (.vportd (fld 6 20 n) (fld 3 5 n))
  | 0x32 => admit4 (bits n 2 18 == 0) (true) (bits n 0 2 == 0 && 0 < bits n 20 6) (true) (.vrep (fld 6 20 n))
  | 0x33 => admit4 (bits n 8 12 == 0) (dstOk (bits n 20 6)) (bits n 0 2 < 2) (true) (.vsplat (fld 6 20 n) (fld 3 5 n) (fld 3 2 n) (fld 2 0 n))
  | 0x34 => admit4 (bits n 2 24 == 0) (true) (bits n 0 2 == 0) (true) .vnop
  | _ => .error .engineOpcode

/-- R113, R185: the format codes that mecvt takes. -/
def cvtCode (f : Nat) : Bool := (0x01 ≤ f && f ≤ 0x04) || f == 0x06

/-- R113: the format codes that a store takes. -/
def storeCode (f : Nat) : Bool := (0x01 ≤ f && f ≤ 0x06) || blockCode f || f == 0x14 || f == 0x15

/-- R185: the formats for which the saturation bit is a reserved variant. -/
def noSatCode (f : Nat) : Bool := f == 0x05 || f == 0x14 || f == 0x15 || blockCode f

/-- Table 7.8: a matrix word. -/
def decodeMatrix (w : W32) : Except EncCause Instr :=
  let n := w.toNat
  match bits n 27 5 with
  | 0x01 => admit4 (bits n 1 14 == 0 && bits n 18 6 == 0) true (true) true (.mld (fld 3 24 n) (fld 3 15 n) (fld 1 0 n))
  | 0x02 => admit4 (bits n 1 14 == 0 && bits n 18 6 == 0) true (true) true (.mldt (fld 3 24 n) (fld 3 15 n) (fld 1 0 n))
  | 0x03 => admit4 (bits n 1 14 == 0 && bits n 18 6 == 0) true (true) true (.mwld (fld 3 24 n) (fld 3 15 n) (fld 1 0 n))
  | 0x04 => admit4 (bits n 1 14 == 0 && bits n 18 6 == 0) true (true) true (.mwldt (fld 3 24 n) (fld 3 15 n) (fld 1 0 n))
  | 0x05 => admit4 (bits n 1 14 == 0) true (true) true (.mmulOvw (fld 3 24 n) (fld 3 21 n) (fld 3 18 n) (fld 3 15 n) (fld 1 0 n))
  | 0x06 => admit4 (bits n 1 14 == 0) true (true) true (.mmulAcc (fld 3 24 n) (fld 3 21 n) (fld 3 18 n) (fld 3 15 n) (fld 1 0 n))
  | 0x07 => admit4 (bits n 1 1 == 0) true (true) true (.mgangOvw (fld 3 24 n) (fld 3 21 n) (fld 3 18 n) (fld 3 15 n) (fld 3 12 n) (fld 3 9 n) (fld 7 2 n) (fld 1 0 n))
  | 0x08 => admit4 (bits n 1 1 == 0) true (true) true (.mgangAcc (fld 3 24 n) (fld 3 21 n) (fld 3 18 n) (fld 3 15 n) (fld 3 12 n) (fld 3 9 n) (fld 7 2 n) (fld 1 0 n))
  | 0x09 => admit4 (bits n 0 15 == 0 && bits n 21 6 == 0) true (true) true (.mzero (fld 3 18 n) (fld 3 15 n))
  | 0x0A => admit4 (bits n 0 15 == 0 && bits n 24 3 == 0) true (true) true (.macc (fld 3 21 n) (fld 3 18 n) (fld 3 15 n))
  | 0x0B => admit4 (bits n 0 15 == 0 && bits n 21 6 == 0) true (true) true (.mldacc (fld 3 18 n) (fld 3 15 n))
  | 0x0C => admit4 (bits n 0 15 == 0 && bits n 21 6 == 0) true (true) true (.mescale (fld 3 18 n) (fld 3 15 n))
  | 0x0D => admit4 (bits n 0 15 == 0 && bits n 21 6 == 0) true (true) true (.mescv (fld 3 18 n) (fld 3 15 n))
  | 0x0E => admit4 (bits n 0 15 == 0 && bits n 21 6 == 0) true (true) true (.mebias (fld 3 18 n) (fld 3 15 n))
  | 0x0F => admit4 (bits n 4 11 == 0 && bits n 21 6 == 0) true (bits n 0 4 < 4) true (.meact (fld 3 18 n) (fld 3 15 n) (fld 4 0 n))
  | 0x10 => admit4 (bits n 0 15 == 0 && bits n 21 6 == 0) true (true) true (.meclamp (fld 3 18 n) (fld 3 15 n))
  | 0x11 => admit4 (bits n 8 7 == 0 && bits n 21 6 == 0) true (cvtCode (bits n 0 5)) true (.mecvt (fld 3 18 n) (fld 3 15 n) (fld 1 7 n) (fld 2 5 n) (fld 5 0 n))
  | 0x12 => admit4 (bits n 8 7 == 0 && bits n 21 6 == 0) true (storeCode (bits n 0 5) && !(bits n 7 1 == 1 && noSatCode (bits n 0 5))) true (.mst (fld 3 18 n) (fld 3 15 n) (fld 1 7 n) (fld 2 5 n) (fld 5 0 n))
  | 0x13 => admit4 (bits n 8 7 == 0 && bits n 21 6 == 0) true (storeCode (bits n 0 5) && !(bits n 7 1 == 1 && noSatCode (bits n 0 5))) true (.mstn (fld 3 18 n) (fld 3 15 n) (fld 1 7 n) (fld 2 5 n) (fld 5 0 n))
  | 0x14 => admit4 (bits n 0 15 == 0 && bits n 21 6 == 0) true (true) true (.msnap (fld 3 18 n) (fld 3 15 n))
  | 0x15 => admit4 (bits n 0 15 == 0 && bits n 18 6 == 0) true (true) true (.mstt (fld 3 24 n) (fld 3 15 n))
  | 0x16 => admit4 (bits n 0 15 == 0 && bits n 18 3 == 0) true (true) true (.mmov (fld 3 24 n) (fld 3 21 n) (fld 3 15 n))
  | 0x17 => admit4 (bits n 0 15 == 0 && bits n 18 3 == 0) true (true) true (.mtr (fld 3 24 n) (fld 3 21 n) (fld 3 15 n))
  | 0x18 => admit4 (bits n 0 27 == 0) true (true) true .mnop
  | _ => .error .engineOpcode

/-- R105: the scope field of a copy word with its acquire and release bits. -/
def scopeOk (q r s : Nat) : Bool := s < 5 && (q == 1 || r == 1 || s == 0)

/-- R218: the P field of cred.init. -/
def redFieldOk (x : Nat) : Bool :=
  bits x 16 4 < 4 && (bits x 11 5 == 0x01 || bits x 11 5 == 0x02 || bits x 11 5 == 0x14 || bits x 11 5 == 0x15) &&
  !(bits x 10 1 == 1 && bits x 11 5 == 0x15) && bits x 8 2 == 0 && 2 ≤ bits x 0 8 && bits x 0 8 ≤ 144

/-- R209: the target formats of ccvt. -/
def ccvtCode (f : Nat) : Bool := cvtCode f || f == 0x14 || blockCode f

/-- R109 steps 2 and 3 for a copy word: reserved fields, variants, then the follow-on bit where no follow-on is allowed. -/
def admitC (resv variants noFollow : Bool) (i : Instr) : Except EncCause Instr :=
  if resv then if variants then if noFollow then .ok i else .error .followOn
    else .error .variant else .error .engineField

/-- Table 7.9: a copy word. -/
def decodeCopy (w : W32) : Except EncCause Instr :=
  let n := w.toNat
  match bits n 26 6 with
  | 0x01 => admitC (scopeOk (bits n 25 1) (bits n 24 1) (bits n 21 3) && bits n 0 20 < 0xC0000) (true) (true) (.cldHbm (fld 1 25 n) (fld 1 24 n) (fld 3 21 n) (fld 1 20 n) (fld 20 0 n))
  | 0x02 => admitC (scopeOk (bits n 25 1) (bits n 24 1) (bits n 21 3) && bits n 0 20 < 0xC0000) (true) (bits n 20 1 == 0) (.cstHbm (fld 1 25 n) (fld 1 24 n) (fld 3 21 n) (fld 20 0 n))
  | 0x03 => admitC (scopeOk (bits n 25 1) (bits n 24 1) (bits n 21 3) && bits n 0 20 < 0xC0000) (true) (true) (.cld2d (fld 1 25 n) (fld 1 24 n) (fld 3 21 n) (fld 1 20 n) (fld 20 0 n))
  | 0x04 => admitC (scopeOk (bits n 25 1) (bits n 24 1) (bits n 21 3) && bits n 0 20 < 0xC0000) (true) (bits n 20 1 == 0) (.cst2d (fld 1 25 n) (fld 1 24 n) (fld 3 21 n) (fld 20 0 n))
  | 0x05 => admitC (scopeOk (bits n 25 1) (bits n 24 1) (bits n 21 3)) (0 < bits n 0 20) (bits n 20 1 == 0) (.ccpy (fld 1 25 n) (fld 1 24 n) (fld 3 21 n) (fld 20 0 n))
  | 0x06 => admitC (scopeOk (bits n 25 1) (bits n 24 1) (bits n 21 3)) (0 < bits n 8 12 && ccvtCode (bits n 0 5)) (bits n 20 1 == 0) (.ccvt (fld 1 25 n) (fld 1 24 n) (fld 3 21 n) (fld 20 0 n))
  | 0x07 => admitC (scopeOk (bits n 25 1) (bits n 24 1) (bits n 21 3) && bits n 0 20 < 0xC0000) (true) (true) (.cgat (fld 1 25 n) (fld 1 24 n) (fld 3 21 n) (fld 1 20 n) (fld 20 0 n))
  | 0x08 => admitC (scopeOk (bits n 25 1) (bits n 24 1) (bits n 21 3) && bits n 0 20 < 0xC0000) (true) (bits n 20 1 == 0) (.csct (fld 1 25 n) (fld 1 24 n) (fld 3 21 n) (fld 20 0 n))
  | 0x09 => admitC (scopeOk (bits n 25 1) (bits n 24 1) (bits n 21 3)) (0 < bits n 0 20) (bits n 20 1 == 0) (.cfill (fld 1 25 n) (fld 1 24 n) (fld 3 21 n) (fld 20 0 n))
  | 0x0A => admitC (scopeOk (bits n 25 1) (bits n 24 1) (bits n 21 3) && bits n 0 20 < 0xC0000) (true) (bits n 20 1 == 0) (.cfillSp (fld 1 25 n) (fld 1 24 n) (fld 3 21 n) (fld 20 0 n))
  | 0x0B => admitC (scopeOk (bits n 25 1) (bits n 24 1) (bits n 21 3) && bits n 0 20 < 0xC0000) (true) (bits n 20 1 == 0) (.ctag (fld 1 25 n) (fld 1 24 n) (fld 3 21 n) (fld 20 0 n))
  | 0x0C => admitC (scopeOk (bits n 25 1) (bits n 24 1) (bits n 21 3)) (0 < bits n 0 20) (bits n 20 1 == 0) (.cpref (fld 1 25 n) (fld 1 24 n) (fld 3 21 n) (fld 20 0 n))
  | 0x0D => admitC (scopeOk (bits n 25 1) (bits n 24 1) (bits n 21 3) && bits n 0 20 < 0xC0000) (true) (true) (.cmovSp (fld 1 25 n) (fld 1 24 n) (fld 3 21 n) (fld 1 20 n) (fld 20 0 n))
  | 0x0E => admitC (scopeOk (bits n 25 1) (bits n 24 1) (bits n 21 3) && bits n 0 20 < 0xC0000) (true) (bits n 20 1 == 0) (.cmst (fld 1 25 n) (fld 1 24 n) (fld 3 21 n) (fld 20 0 n))
  | 0x0F => admitC (bits n 0 20 == 0 && scopeOk (bits n 25 1) (bits n 24 1) (bits n 21 3)) (true) (bits n 20 1 == 0) (.ckvSend (fld 1 25 n) (fld 1 24 n) (fld 3 21 n))
  | 0x10 => admitC (bits n 1 19 == 0 && scopeOk (bits n 25 1) (bits n 24 1) (bits n 21 3)) (true) (bits n 20 1 == 0) (.ckvPull (fld 1 25 n) (fld 1 24 n) (fld 3 21 n) (fld 1 0 n))
  | 0x11 => admitC (bits n 0 20 == 0 && scopeOk (bits n 25 1) (bits n 24 1) (bits n 21 3)) (true) (bits n 20 1 == 0) (.ckvSync (fld 1 25 n) (fld 1 24 n) (fld 3 21 n))
  | 0x12 => admitC (scopeOk (bits n 25 1) (bits n 24 1) (bits n 21 3) && bits n 0 20 < 0xC0000) (true) (true) (.cldSw (fld 1 25 n) (fld 1 24 n) (fld 3 21 n) (fld 1 20 n) (fld 20 0 n))
  | 0x13 => admitC (scopeOk (bits n 25 1) (bits n 24 1) (bits n 21 3) && bits n 0 20 < 0xC0000) (true) (bits n 20 1 == 0) (.cstSw (fld 1 25 n) (fld 1 24 n) (fld 3 21 n) (fld 20 0 n))
  | 0x14 => admitC (scopeOk (bits n 25 1) (bits n 24 1) (bits n 21 3)) (redFieldOk (bits n 0 20)) (bits n 20 1 == 0) (.credInit (fld 1 25 n) (fld 1 24 n) (fld 3 21 n) (fld 20 0 n))
  | 0x15 => admitC (scopeOk (bits n 25 1) (bits n 24 1) (bits n 21 3) && bits n 0 20 < 0xC0000) (true) (bits n 20 1 == 0) (.credSw (fld 1 25 n) (fld 1 24 n) (fld 3 21 n) (fld 20 0 n))
  | 0x16 => admitC (scopeOk (bits n 25 1) (bits n 24 1) (bits n 21 3) && bits n 0 20 < 0xC0000) (true) (true) (.cldrSw (fld 1 25 n) (fld 1 24 n) (fld 3 21 n) (fld 1 20 n) (fld 20 0 n))
  | 0x17 => admitC (bits n 1 19 == 0 && scopeOk (bits n 25 1) (bits n 24 1) (bits n 21 3)) (true) (bits n 20 1 == 0) (.credDrop (fld 1 25 n) (fld 1 24 n) (fld 3 21 n) (fld 1 0 n))
  | 0x18 => admitC (scopeOk (bits n 25 1) (bits n 24 1) (bits n 21 3) && bits n 0 20 < 0xC0000) (true) (bits n 20 1 == 0) (.cmstSw (fld 1 25 n) (fld 1 24 n) (fld 3 21 n) (fld 20 0 n))
  | 0x19 => admitC (scopeOk (bits n 25 1) (bits n 24 1) (bits n 21 3) && bits n 0 20 < 0xC0000) (true) (bits n 20 1 == 0) (.cbatAdd (fld 1 25 n) (fld 1 24 n) (fld 3 21 n) (fld 20 0 n))
  | 0x1A => admitC (scopeOk (bits n 25 1) (bits n 24 1) (bits n 21 3) && bits n 0 20 < 0xC0000) (true) (bits n 20 1 == 0) (.cbatMin (fld 1 25 n) (fld 1 24 n) (fld 3 21 n) (fld 20 0 n))
  | 0x1B => admitC (scopeOk (bits n 25 1) (bits n 24 1) (bits n 21 3) && bits n 0 20 < 0xC0000) (true) (bits n 20 1 == 0) (.cbatMax (fld 1 25 n) (fld 1 24 n) (fld 3 21 n) (fld 20 0 n))
  | 0x1C => admitC (scopeOk (bits n 25 1) (bits n 24 1) (bits n 21 3) && bits n 0 20 < 0xC0000) (true) (bits n 20 1 == 0) (.cbatOr (fld 1 25 n) (fld 1 24 n) (fld 3 21 n) (fld 20 0 n))
  | 0x1D => admitC (scopeOk (bits n 25 1) (bits n 24 1) (bits n 21 3) && bits n 0 20 < 0xC0000) (true) (bits n 20 1 == 0) (.cbatXchg (fld 1 25 n) (fld 1 24 n) (fld 3 21 n) (fld 20 0 n))
  | 0x1E => admitC (bits n 1 19 == 0 && scopeOk (bits n 25 1) (bits n 24 1) (bits n 21 3)) (true) (bits n 20 1 == 0) (.cskInit (fld 1 25 n) (fld 1 24 n) (fld 3 21 n) (fld 1 0 n))
  | 0x1F => admitC (bits n 0 20 == 0 && scopeOk (bits n 25 1) (bits n 24 1) (bits n 21 3)) (true) (bits n 20 1 == 0) (.cskIns (fld 1 25 n) (fld 1 24 n) (fld 3 21 n))
  | 0x20 => admitC (bits n 0 20 == 0 && scopeOk (bits n 25 1) (bits n 24 1) (bits n 21 3)) (true) (bits n 20 1 == 0) (.cskDel (fld 1 25 n) (fld 1 24 n) (fld 3 21 n))
  | 0x21 => admitC (bits n 0 20 == 0 && scopeOk (bits n 25 1) (bits n 24 1) (bits n 21 3)) (true) (bits n 20 1 == 0) (.cskSend (fld 1 25 n) (fld 1 24 n) (fld 3 21 n))
  | 0x22 => admitC (bits n 0 20 == 0 && scopeOk (bits n 25 1) (bits n 24 1) (bits n 21 3)) (true) (bits n 20 1 == 0) (.cskXchg (fld 1 25 n) (fld 1 24 n) (fld 3 21 n))
  | 0x23 => admitC (bits n 0 20 == 0 && scopeOk (bits n 25 1) (bits n 24 1) (bits n 21 3)) (true) (bits n 20 1 == 0) (.cskPeel (fld 1 25 n) (fld 1 24 n) (fld 3 21 n))
  | 0x24 => admitC (bits n 1 19 == 0 && scopeOk (bits n 25 1) (bits n 24 1) (bits n 21 3)) (true) (bits n 20 1 == 0) (.cskFetch (fld 1 25 n) (fld 1 24 n) (fld 3 21 n) (fld 1 0 n))
  | 0x25 => admitC (bits n 0 20 == 0 && scopeOk (bits n 25 1) (bits n 24 1) (bits n 21 3)) (true) (bits n 20 1 == 0) (.cskRsz (fld 1 25 n) (fld 1 24 n) (fld 3 21 n))
  | 0x26 => admitC (bits n 0 20 == 0 && bits n 21 5 == 0) (true) (bits n 20 1 == 0) .cnop
  | 0x27 => admitC (bits n 0 20 == 0 && scopeOk (bits n 25 1) (bits n 24 1) (bits n 21 3)) (true) (bits n 20 1 == 0) (.cfence (fld 1 25 n) (fld 1 24 n) (fld 3 21 n))
  | 0x28 => admitC (bits n 2 18 == 0 && scopeOk (bits n 25 1) (bits n 24 1) (bits n 21 3)) (bits n 0 2 < 2) (bits n 20 1 == 0) (.csig (fld 1 25 n) (fld 1 24 n) (fld 3 21 n) (fld 2 0 n))
  | _ => .error .engineOpcode

/-- A field's value at its bit of the word. -/
def put {k : Nat} (x : BitVec k) (lo : Nat) : Nat := x.toNat * 2 ^ lo

/-- One word: the opcode and selector bits of a row and its fields, each at its place. -/
def word (row : Nat) (fs : List Nat) : List W32 := [BitVec.ofNat 32 (row + fs.sum)]

/-- The words of an instruction, from the same encoding tables: one word, or for the push of an engine instruction the
enqueue word and the engine words it carries (R99). An event has none. -/
def encode : Instr → List W32
  | .addI64 d a b g => word 0x02000000 [put d 20, put a 15, put b 10, put g 7]
  | .subI64 d a b g => word 0x02000001 [put d 20, put a 15, put b 10, put g 7]
  | .mulI64 d a b g => word 0x02000002 [put d 20, put a 15, put b 10, put g 7]
  | .mulhI64 d a b g => word 0x02000003 [put d 20, put a 15, put b 10, put g 7]
  | .mulhW64 d a b g => word 0x02000004 [put d 20, put a 15, put b 10, put g 7]
  | .divI64 d a b g => word 0x02000005 [put d 20, put a 15, put b 10, put g 7]
  | .divW64 d a b g => word 0x02000006 [put d 20, put a 15, put b 10, put g 7]
  | .remI64 d a b g => word 0x02000007 [put d 20, put a 15, put b 10, put g 7]
  | .andW64 d a b g => word 0x02000008 [put d 20, put a 15, put b 10, put g 7]
  | .orW64 d a b g => word 0x02000009 [put d 20, put a 15, put b 10, put g 7]
  | .xorW64 d a b g => word 0x0200000A [put d 20, put a 15, put b 10, put g 7]
  | .shlI64 d a b g => word 0x0200000B [put d 20, put a 15, put b 10, put g 7]
  | .shrW64 d a b g => word 0x0200000C [put d 20, put a 15, put b 10, put g 7]
  | .sraI64 d a b g => word 0x0200000D [put d 20, put a 15, put b 10, put g 7]
  | .cmpEqI64 d a b g => word 0x04000000 [put d 20, put a 15, put b 10, put g 7]
  | .cmpNeI64 d a b g => word 0x04000001 [put d 20, put a 15, put b 10, put g 7]
  | .cmpLtI64 d a b g => word 0x04000002 [put d 20, put a 15, put b 10, put g 7]
  | .cmpGeI64 d a b g => word 0x04000003 [put d 20, put a 15, put b 10, put g 7]
  | .cmpLtW64 d a b g => word 0x04000004 [put d 20, put a 15, put b 10, put g 7]
  | .cmpGeW64 d a b g => word 0x04000005 [put d 20, put a 15, put b 10, put g 7]
  | .pand d a b g => word 0x06000000 [put d 20, put a 15, put b 10, put g 7]
  | .por d a b g => word 0x06000001 [put d 20, put a 15, put b 10, put g 7]
  | .pxor d a b g => word 0x06000002 [put d 20, put a 15, put b 10, put g 7]
  | .pandn d a b g => word 0x06000003 [put d 20, put a 15, put b 10, put g 7]
  | .pset d a g => word 0x06000004 [put d 20, put a 15, put g 7]
  | .pget d a g => word 0x06000005 [put d 20, put a 15, put g 7]
  | .addiI64 d a g i => word 0x10000000 [put d 20, put a 15, put g 12, put i 0]
  | .andiW64 d a g i => word 0x12000000 [put d 20, put a 15, put g 12, put i 0]
  | .oriW64 d a g i => word 0x14000000 [put d 20, put a 15, put g 12, put i 0]
  | .xoriW64 d a g i => word 0x16000000 [put d 20, put a 15, put g 12, put i 0]
  | .shliI64 d a g i => word 0x18000000 [put d 20, put a 15, put g 12, put i 0]
  | .shriW64 d a g i => word 0x1A000000 [put d 20, put a 15, put g 12, put i 0]
  | .sraiI64 d a g i => word 0x1C000000 [put d 20, put a 15, put g 12, put i 0]
  | .li d i => word 0x20000000 [put d 20, put i 0]
  | .lea d a g i => word 0x24000000 [put d 20, put a 15, put g 12, put i 0]
  | .bxlen d a g => word 0x26000000 [put d 20, put a 15, put g 12]
  | .br g n i => word 0x30000000 [put g 22, put n 21, put i 0]
  | .call g n i => word 0x32000000 [put g 22, put n 21, put i 0]
  | .jr a g => word 0x34000000 [put a 15, put g 7]
  | .ret g => word 0x34000001 [put g 7]
  | .loop a g i => word 0x36000000 [put a 15, put g 12, put i 0]
  | .ldW8 d a g i => word 0x40000000 [put d 20, put a 15, put g 12, put i 0]
  | .ldW16 d a g i => word 0x42000000 [put d 20, put a 15, put g 12, put i 0]
  | .ldW32 d a g i => word 0x44000000 [put d 20, put a 15, put g 12, put i 0]
  | .ldW64 d a g i => word 0x46000000 [put d 20, put a 15, put g 12, put i 0]
  | .ldI8 d a g i => word 0x48000000 [put d 20, put a 15, put g 12, put i 0]
  | .ldI32 d a g i => word 0x4A000000 [put d 20, put a 15, put g 12, put i 0]
  | .stW8 d a g i => word 0x50000000 [put d 20, put a 15, put g 12, put i 0]
  | .stW16 d a g i => word 0x52000000 [put d 20, put a 15, put g 12, put i 0]
  | .stW32 d a g i => word 0x54000000 [put d 20, put a 15, put g 12, put i 0]
  | .stW64 d a g i => word 0x56000000 [put d 20, put a 15, put g 12, put i 0]
  | .ldAcqW32 d a g s => word 0x58000000 [put d 20, put a 15, put g 7, put s 0]
  | .ldAcqW64 d a g s => word 0x58000008 [put d 20, put a 15, put g 7, put s 0]
  | .stRelW32 a b g s => word 0x58000010 [put a 15, put b 10, put g 7, put s 0]
  | .stRelW64 a b g s => word 0x58000018 [put a 15, put b 10, put g 7, put s 0]
  | .waitTk p k t => word 0x60000000 [put p 22, put k 15, put t 10]
  | .barWait p k t => word 0x60000001 [put p 22, put k 15, put t 10]
  | .ldwfW64 p a t d => word 0x60000002 [put p 22, put a 15, put t 10, put d 5]
  | .stweW64 p a t d => word 0x60000003 [put p 22, put a 15, put t 10, put d 5]
  | .pop p q t d => word 0x60000004 [put p 22, put q 15, put t 10, put d 5]
  | .sigTk k => word 0x62000000 [put k 15]
  | .barArrive k => word 0x62000001 [put k 15]
  | .join k => word 0x62000002 [put k 15]
  | .leave k => word 0x62000003 [put k 15]
  | .amoAddW64 d a b g => word 0x68000000 [put d 20, put a 15, put b 10, put g 7]
  | .amoMinI64 d a b g => word 0x68000001 [put d 20, put a 15, put b 10, put g 7]
  | .amoMaxI64 d a b g => word 0x68000002 [put d 20, put a 15, put b 10, put g 7]
  | .amoAndW64 d a b g => word 0x68000003 [put d 20, put a 15, put b 10, put g 7]
  | .amoOrW64 d a b g => word 0x68000004 [put d 20, put a 15, put b 10, put g 7]
  | .amoXorW64 d a b g => word 0x68000005 [put d 20, put a 15, put b 10, put g 7]
  | .amoXchgW64 d a b g => word 0x68000006 [put d 20, put a 15, put b 10, put g 7]
  | .amoCasW64 d a b g => word 0x68000007 [put d 20, put a 15, put b 10, put g 7]
  | .fence g s => word 0x6C000000 [put g 7, put s 0]
  | .fenceR a b g s => word 0x6C000008 [put a 15, put b 10, put g 7, put s 0]
  | .rld d a b g => word 0x6E000000 [put d 20, put a 15, put b 10, put g 7]
  | .setshapeV d a b g n => word 0x70000000 [put d 20, put a 15, put b 10, put g 7, put n 0]
  | .setshapeM d a b g n => word 0x70000008 [put d 20, put a 15, put b 10, put g 7, put n 0]
  | .asnap d a b g n => word 0x74000000 [put d 20, put a 15, put b 10, put g 7, put n 0]
  | .tstat d g n => word 0x74000008 [put d 20, put g 7, put n 0]
  | .swalloc d a b g => word 0x78000000 [put d 20, put a 15, put b 10, put g 7]
  | .swfree d a g => word 0x78000001 [put d 20, put a 15, put g 7]
  | .swquota d a g => word 0x78000002 [put d 20, put a 15, put g 7]
  | .yield i => word 0x7E000000 [put i 0]
  | .enqueuePrefix e w k t a b w1 w2 =>
    word 0x80000000 [put e 23, put w 17, put k 11, put t 10, put a 5, put b 0] ++
      (if e = 0 then [] else if e = 3 && bit w1.toNat 20 then [w1, w2] else [w1])
  | .trap i => word 0xE0000000 [put i 0]
  | .rft g => word 0xE2000000 [put g 7]
  | .endThread g => word 0xE2000001 [put g 7]
  | .csrr d g c => word 0xE4000000 [put d 20, put g 12, put c 0]
  | .csrw a g c => word 0xE6000000 [put a 15, put g 12, put c 0]
  | .resume d a g => word 0xE8000000 [put d 20, put a 15, put g 7]
  | .qreset d a g => word 0xE8000001 [put d 20, put a 15, put g 7]
  | .tinvPg1 a g => word 0xE8000002 [put a 15, put g 7]
  | .tinvRg1 a b g => word 0xE8100002 [put a 15, put b 10, put g 7]
  | .tinvAll1 g => word 0xE8200002 [put g 7]
  | .tinvPg2 a b g => word 0xE8300002 [put a 15, put b 10, put g 7]
  | .tinvRg2 a b g => word 0xE8400002 [put a 15, put b 10, put g 7]
  | .tinvAll2 b g => word 0xE8500002 [put b 10, put g 7]
  | .einj a b g => word 0xE8000003 [put a 15, put b 10, put g 7]
  | .takeIb d a g => word 0xF8000000 [put d 20, put a 15, put g 7]
  | .commitIb d a b g => word 0xF8000001 [put d 20, put a 15, put b 10, put g 7]
  | .attest d a b g => word 0xF8000002 [put d 20, put a 15, put b 10, put g 7]
  | .vaddF32 d a b s m x => word 0x04000000 [put d 20, put a 14, put b 8, put s 5, put m 2, put x 0]
  | .vsubF32 d a b s m x => word 0x08000000 [put d 20, put a 14, put b 8, put s 5, put m 2, put x 0]
  | .vmulF32 d a b s m x => word 0x0C000000 [put d 20, put a 14, put b 8, put s 5, put m 2, put x 0]
  | .vfmaF32 d a b s m x => word 0x10000000 [put d 20, put a 14, put b 8, put s 5, put m 2, put x 0]
  | .vfmaF32TMultiplier d a b s m x => word 0x14000000 [put d 20, put a 14, put b 8, put s 5, put m 2, put x 0]
  | .vminF32 d a b s m => word 0x18000000 [put d 20, put a 14, put b 8, put s 5, put m 2]
  | .vmaxF32 d a b s m => word 0x1C000000 [put d 20, put a 14, put b 8, put s 5, put m 2]
  | .vabsF32 d a s m => word 0x20000000 [put d 20, put a 14, put s 5, put m 2]
  | .vnegF32 d a s m => word 0x24000000 [put d 20, put a 14, put s 5, put m 2]
  | .vcmpF32 d a b s m c => word 0x28000000 [put d 20, put a 14, put b 8, put s 5, put m 2, put c 0]
  | .vrcpF32 d a s m => word 0x2C000000 [put d 20, put a 14, put s 5, put m 2]
  | .vrsqrtF32 d a s m => word 0x30000000 [put d 20, put a 14, put s 5, put m 2]
  | .vexp2F32 d a s m => word 0x34000000 [put d 20, put a 14, put s 5, put m 2]
  | .vlog2F32 d a s m => word 0x38000000 [put d 20, put a 14, put s 5, put m 2]
  | .vtanhF32 d a s m => word 0x3C000000 [put d 20, put a 14, put s 5, put m 2]
  | .vaddInt d a b s m x => word 0x40000000 [put d 20, put a 14, put b 8, put s 5, put m 2, put x 0]
  | .vsubInt d a b s m x => word 0x44000000 [put d 20, put a 14, put b 8, put s 5, put m 2, put x 0]
  | .vmulInt d a b s m x => word 0x48000000 [put d 20, put a 14, put b 8, put s 5, put m 2, put x 0]
  | .vmulh d a b s m u => word 0x4C000000 [put d 20, put a 14, put b 8, put s 5, put m 2, put u 0]
  | .vminInt d a b s m u => word 0x50000000 [put d 20, put a 14, put b 8, put s 5, put m 2, put u 0]
  | .vmaxInt d a b s m u => word 0x54000000 [put d 20, put a 14, put b 8, put s 5, put m 2, put u 0]
  | .vabsInt d a s m => word 0x58000000 [put d 20, put a 14, put s 5, put m 2]
  | .vand d a b s m => word 0x5C000000 [put d 20, put a 14, put b 8, put s 5, put m 2]
  | .vor d a b s m => word 0x60000000 [put d 20, put a 14, put b 8, put s 5, put m 2]
  | .vxor d a b s m => word 0x64000000 [put d 20, put a 14, put b 8, put s 5, put m 2]
  | .vshl d a b s m => word 0x68000000 [put d 20, put a 14, put b 8, put s 5, put m 2]
  | .vshr d a b s m u => word 0x6C000000 [put d 20, put a 14, put b 8, put s 5, put m 2, put u 0]
  | .vcmpSigned d a b s m c => word 0x70000000 [put d 20, put a 14, put b 8, put s 5, put m 2, put c 0]
  | .vcmpUnsigned d a b s m c => word 0x74000000 [put d 20, put a 14, put b 8, put s 5, put m 2, put c 0]
  | .vsel d a b s m => word 0x78000000 [put d 20, put a 14, put b 8, put s 5, put m 2]
  | .vmask d a b s o => word 0x7C000000 [put d 20, put a 14, put b 8, put s 5, put o 0]
  | .vmov d a s m => word 0x80000000 [put d 20, put a 14, put s 5, put m 2]
  | .vcvt d a t s m x => word 0x84000000 [put d 20, put a 14, put t 8, put s 5, put m 2, put x 0]
  | .vcvtSat d a t s m x => word 0x88000000 [put d 20, put a 14, put t 8, put s 5, put m 2, put x 0]
  | .vcvtFloatToInt d a t s m x => word 0x8C000000 [put d 20, put a 14, put t 8, put s 5, put m 2, put x 0]
  | .vcvtIntToFloat d a t s m x => word 0x90000000 [put d 20, put a 14, put t 8, put s 5, put m 2, put x 0]
  | .vcvtIntToInt d a t s m x => word 0x94000000 [put d 20, put a 14, put t 8, put s 5, put m 2, put x 0]
  | .vbscale d a f s x => word 0x98000000 [put d 20, put a 14, put f 8, put s 5, put x 0]
  | .vquant d a f s x => word 0x9C000000 [put d 20, put a 14, put f 8, put s 5, put x 0]
  | .vredF32 d a s m o => word 0xA0000000 [put d 20, put a 14, put s 5, put m 2, put o 0]
  | .vredInt d a u s m o => word 0xA4000000 [put d 20, put a 14, put u 8, put s 5, put m 2, put o 0]
  | .vscanF32 d a s m o => word 0xA8000000 [put d 20, put a 14, put s 5, put m 2, put o 0]
  | .vscanInt d a u s m o => word 0xAC000000 [put d 20, put a 14, put u 8, put s 5, put m 2, put o 0]
  | .vperm d a b s m => word 0xB0000000 [put d 20, put a 14, put b 8, put s 5, put m 2]
  | .vrot d a s m => word 0xB4000000 [put d 20, put a 14, put s 5, put m 2]
  | .viota d s m => word 0xB8000000 [put d 20, put s 5, put m 2]
  | .vpart d a b s m => word 0xBC000000 [put d 20, put a 14, put b 8, put s 5, put m 2]
  | .vport d s => word 0xC0000000 [put d 20, put s 5]
  | .vportd d s => word 0xC4000000 [put d 20, put s 5]
  | .vrep n => word 0xC8000000 [put n 20]
  | .vsplat d s m c => word 0xCC000000 [put d 20, put s 5, put m 2, put c 0]
  | .vnop => word 0xD0000000 []
  | .mld a s k => word 0x08000000 [put a 24, put s 15, put k 0]
  | .mldt a s k => word 0x10000000 [put a 24, put s 15, put k 0]
  | .mwld a s k => word 0x18000000 [put a 24, put s 15, put k 0]
  | .mwldt a s k => word 0x20000000 [put a 24, put s 15, put k 0]
  | .mmulOvw a b c s k => word 0x28000000 [put a 24, put b 21, put c 18, put s 15, put k 0]
  | .mmulAcc a b c s k => word 0x30000000 [put a 24, put b 21, put c 18, put s 15, put k 0]
  | .mgangOvw a b c s g h n k => word 0x38000000 [put a 24, put b 21, put c 18, put s 15, put g 12, put h 9, put n 2, put k 0]
  | .mgangAcc a b c s g h n k => word 0x40000000 [put a 24, put b 21, put c 18, put s 15, put g 12, put h 9, put n 2, put k 0]
  | .mzero c s => word 0x48000000 [put c 18, put s 15]
  | .macc b c s => word 0x50000000 [put b 21, put c 18, put s 15]
  | .mldacc c s => word 0x58000000 [put c 18, put s 15]
  | .mescale c s => word 0x60000000 [put c 18, put s 15]
  | .mescv c s => word 0x68000000 [put c 18, put s 15]
  | .mebias c s => word 0x70000000 [put c 18, put s 15]
  | .meact c s f => word 0x78000000 [put c 18, put s 15, put f 0]
  | .meclamp c s => word 0x80000000 [put c 18, put s 15]
  | .mecvt c s t r f => word 0x88000000 [put c 18, put s 15, put t 7, put r 5, put f 0]
  | .mst c s t r f => word 0x90000000 [put c 18, put s 15, put t 7, put r 5, put f 0]
  | .mstn c s t r f => word 0x98000000 [put c 18, put s 15, put t 7, put r 5, put f 0]
  | .msnap c s => word 0xA0000000 [put c 18, put s 15]
  | .mstt a s => word 0xA8000000 [put a 24, put s 15]
  | .mmov a b s => word 0xB0000000 [put a 24, put b 21, put s 15]
  | .mtr a b s => word 0xB8000000 [put a 24, put b 21, put s 15]
  | .mnop => word 0xC0000000 []
  | .cldHbm q r s f x => word 0x04000000 [put q 25, put r 24, put s 21, put f 20, put x 0]
  | .cstHbm q r s x => word 0x08000000 [put q 25, put r 24, put s 21, put x 0]
  | .cld2d q r s f x => word 0x0C000000 [put q 25, put r 24, put s 21, put f 20, put x 0]
  | .cst2d q r s x => word 0x10000000 [put q 25, put r 24, put s 21, put x 0]
  | .ccpy q r s x => word 0x14000000 [put q 25, put r 24, put s 21, put x 0]
  | .ccvt q r s x => word 0x18000000 [put q 25, put r 24, put s 21, put x 0]
  | .cgat q r s f x => word 0x1C000000 [put q 25, put r 24, put s 21, put f 20, put x 0]
  | .csct q r s x => word 0x20000000 [put q 25, put r 24, put s 21, put x 0]
  | .cfill q r s x => word 0x24000000 [put q 25, put r 24, put s 21, put x 0]
  | .cfillSp q r s x => word 0x28000000 [put q 25, put r 24, put s 21, put x 0]
  | .ctag q r s x => word 0x2C000000 [put q 25, put r 24, put s 21, put x 0]
  | .cpref q r s x => word 0x30000000 [put q 25, put r 24, put s 21, put x 0]
  | .cmovSp q r s f x => word 0x34000000 [put q 25, put r 24, put s 21, put f 20, put x 0]
  | .cmst q r s x => word 0x38000000 [put q 25, put r 24, put s 21, put x 0]
  | .ckvSend q r s => word 0x3C000000 [put q 25, put r 24, put s 21]
  | .ckvPull q r s p => word 0x40000000 [put q 25, put r 24, put s 21, put p 0]
  | .ckvSync q r s => word 0x44000000 [put q 25, put r 24, put s 21]
  | .cldSw q r s f x => word 0x48000000 [put q 25, put r 24, put s 21, put f 20, put x 0]
  | .cstSw q r s x => word 0x4C000000 [put q 25, put r 24, put s 21, put x 0]
  | .credInit q r s x => word 0x50000000 [put q 25, put r 24, put s 21, put x 0]
  | .credSw q r s x => word 0x54000000 [put q 25, put r 24, put s 21, put x 0]
  | .cldrSw q r s f x => word 0x58000000 [put q 25, put r 24, put s 21, put f 20, put x 0]
  | .credDrop q r s b => word 0x5C000000 [put q 25, put r 24, put s 21, put b 0]
  | .cmstSw q r s x => word 0x60000000 [put q 25, put r 24, put s 21, put x 0]
  | .cbatAdd q r s x => word 0x64000000 [put q 25, put r 24, put s 21, put x 0]
  | .cbatMin q r s x => word 0x68000000 [put q 25, put r 24, put s 21, put x 0]
  | .cbatMax q r s x => word 0x6C000000 [put q 25, put r 24, put s 21, put x 0]
  | .cbatOr q r s x => word 0x70000000 [put q 25, put r 24, put s 21, put x 0]
  | .cbatXchg q r s x => word 0x74000000 [put q 25, put r 24, put s 21, put x 0]
  | .cskInit q r s c => word 0x78000000 [put q 25, put r 24, put s 21, put c 0]
  | .cskIns q r s => word 0x7C000000 [put q 25, put r 24, put s 21]
  | .cskDel q r s => word 0x80000000 [put q 25, put r 24, put s 21]
  | .cskSend q r s => word 0x84000000 [put q 25, put r 24, put s 21]
  | .cskXchg q r s => word 0x88000000 [put q 25, put r 24, put s 21]
  | .cskPeel q r s => word 0x8C000000 [put q 25, put r 24, put s 21]
  | .cskFetch q r s m => word 0x90000000 [put q 25, put r 24, put s 21, put m 0]
  | .cskRsz q r s => word 0x94000000 [put q 25, put r 24, put s 21]
  | .cnop => word 0x98000000 []
  | .cfence q r s => word 0x9C000000 [put q 25, put r 24, put s 21]
  | .csig q r s k => word 0xA0000000 [put q 25, put r 24, put s 21, put k 0]
  | .commandMessage _ _ _ _ _ _ _ _ _ _ _ => []
  | .slotLoad _ _ _ => []
  | .slotUnload _ _ _ => []
  | .slotQuery _ _ _ => []
  | .invoke _ _ _ => []
  | .schedSet _ _ _ => []
  | .admitRequest _ _ _ => []
  | .cancel _ _ _ => []
  | .packRegister _ _ _ => []
  | .packDrop _ _ _ => []
  | .invocationStart _ _ _ => []
  | .iterationDispatch _ _ => []
  | .threadStart _ _ => []
  | .threadEnd _ _ => []
  | .copyNodeRetire _ _ _ _ => []
  | .nodeCond _ _ _ _ => []
  | .nodeWhile _ _ _ _ => []
  | .nodeNotify _ _ _ _ => []
  | .invocationRetire _ _ _ => []
  | .schedBoundary _ _ _ => []
  | .packPlacementDone _ _ _ => []
  | .translationWalk _ _ _ _ _ => []
  | .faultHandlerStart _ _ _ => []
  | .timedWaitTimeout _ _ => []
  | .watchdogExpire _ _ => []
  | .bankPowerGate _ _ _ => []
  | .loadQueueFill _ _ _ _ => []
  | .taggedRequestAtHome _ _ => []
  | .routerAtomic _ _ _ _ _ _ => []
  | .gangPartArrive _ _ _ => []
  | .gangPartCommit _ _ _ => []
  | .fabricRequestReceive _ _ _ => []
  | .retransmitTimeout _ _ _ => []
  | .replyReceive _ _ _ => []
  | .packetResidencyDrop _ _ _ => []
  | .heldReleasePerform _ _ _ => []
  | .switchPortDownTimeout _ _ => []
  | .switchDropNotice _ _ _ => []
  | .packageReset _ => []
  | .linkReady _ _ => []
  | .linkDown _ _ => []
  | .rejoinQuietExpire _ => []
  | .rejoinNotice _ _ => []
  | .rejoinAck _ _ => []
  | .rejoinAckTimeout _ _ => []
  | .probeFire _ _ => []
  | .probeReturn _ _ => []
  | .switchFailureDeclare _ _ => []
  | .switchFailureNotice _ _ => []
  | .mirrorAck _ _ => []
  | .reductionContribution _ _ _ _ _ _ => []
  | .reductionLoad _ _ _ _ => []
  | .reductionRoundTimeout _ _ => []
  | .d2dLinkFail _ _ => []
  | .kvHalvesMatch _ _ => []
  | .kvPageLanded _ _ => []
  | .kvTransferTimeout _ => []
  | .kvTransferEnd _ _ => []
  | .slbind _ _ => []
  | .funcStore _ _ _ => []
  | .preempt _ _ => []
  | .stopComplete _ _ => []
  | .freeze _ _ => []
  | .ctxopSave _ _ => []
  | .ctxopHold _ _ => []
  | .ctxopRestore _ _ => []
  | .ctxopResume _ _ => []
  | .contextSaveDone _ => []
  | .contextRestoreDone _ => []
  | .epbindDetach _ _ => []
  | .epbindAttach _ _ => []
  | .slfree _ _ => []
  | .fnfree _ _ => []
  | .keyctlLoad _ _ => []
  | .keyctlErase _ _ => []
  | .debugUnlock _ _ => []
  | .relbase _ _ => []
  | .reltail _ _ => []
  | .relovf _ _ => []
  | .relhead _ _ _ => []
  | .rstkbase _ _ _ => []
  | .spdmMessage _ _ _ _ => []
  | .operatorCommand _ _ _ _ _ _ _ => []
  | .imageWrite _ _ _ _ _ _ _ => []
  | .tenantKeyDelivery _ _ _ _ => []
  | .switchAttach _ _ _ _ _ _ => []
  | .switchReadmit _ _ => []
  | .readmitNotice _ _ => []
  | .lockstepMismatch _ => []
  | .workerTimeout _ _ => []
  | .thermalThrottle _ _ => []
  | .powerThrottle _ _ => []
  | .taggedWaitWithdrawal _ _ => []
  | .patrolScrub _ _ => []
  | .lifecycleChange _ _ => []

/-- How many words an instruction takes, from its first word and the word behind it (R99). -/
def wordCount (w w1 : W32) : Nat :=
  if bits w.toNat 25 7 != 0x40 then 1
  else if bits w.toNat 23 2 == 0 then 1
  else if bits w.toNat 23 2 == 3 && bit w1.toNat 20 then 3 else 2

/-- A little-endian word (R4, R99). -/
def wordOfBytes : List Byte → Option (W32 × List Byte)
  | a :: b :: c :: d :: t => some (BitVec.ofNat 32 (a.toNat + b.toNat * 2 ^ 8 + c.toNat * 2 ^ 16 + d.toNat * 2 ^ 24), t)
  | _ => none

/-- The four bytes of a word, little-endian. -/
def bytesOfWord (w : W32) : List Byte :=
  [BitVec.ofNat 8 w.toNat, BitVec.ofNat 8 (w.toNat / 2 ^ 8), BitVec.ofNat 8 (w.toNat / 2 ^ 16), BitVec.ofNat 8 (w.toNat / 2 ^ 24)]

/-- The access instruction at the head of a byte list and the bytes behind it. Operand words that the instruction does
not have are read as zero. -/
def decode (bs : List Byte) : Except EncCause (Instr × List Byte) :=
  match wordOfBytes bs with
  | none => .error .short
  | some (w, t1) =>
    match wordOfBytes t1 with
    | none => if wordCount w 0 = 1 then (decodeAccess w 0 0).map (·, t1) else .error .short
    | some (w1, t2) =>
      match wordCount w w1 with
      | 1 => (decodeAccess w 0 0).map (·, t1)
      | 2 => (decodeAccess w w1 0).map (·, t2)
      | _ =>
        match wordOfBytes t2 with
        | none => .error .short
        | some (w2, t3) => (decodeAccess w w1 w2).map (·, t3)

/-- The first decoder, in the order access, vector, matrix, copy, that admits a word. -/
def firstStream (w : W32) : Option Instr :=
  match decodeAccess w 0 0 with
  | .ok i => some i
  | .error _ =>
    match decodeVector w with
    | .ok i => some i
    | .error _ =>
      match decodeMatrix w with
      | .ok i => some i
      | .error _ =>
        match decodeCopy w with
        | .ok i => some i
        | .error _ => none

/-- What a decoder admits, or else what is given. -/
def admitted {ε β : Type} (r : Except ε (Instr × β)) (other : Option Instr) : Option Instr :=
  match r with
  | .ok x => some x.1
  | .error _ => other

/-- The instruction that three words begin with, in the first stream that has it. -/
def decodeWords (w0 w1 w2 : W32) : Option Instr := admitted (decode ([w0, w1, w2].flatMap bytesOfWord)) (firstStream w0)

/-- The host's question about a table word: the instruction's bytes, the bits above nbits zero, given to the decoders. A
word that the access stream admits is an access word; the table gives an engine row no mark of its stream, so any
other word is read by the first engine decoder that admits it. -/
def decodeTableWord (nbits w : Nat) : Option Instr :=
  let n := w % 2 ^ nbits
  decodeWords (BitVec.ofNat 32 n) (BitVec.ofNat 32 (n / 2 ^ 32)) (BitVec.ofNat 32 (n / 2 ^ 64))

end Sys2Proof
end

