-- ==== Sys2Proof/Config.lean ====
section
/-!
DEFINITION. What an implementation fixes and the spec leaves open: opaque constants, of which nothing can be evaluated
or proved. Those that take a plain number are free values: the machine applies them to its counter of used free values
(State.nondet), so that every use is a fresh one.
-/
namespace Sys2Proof.Config

/-- A free choice (log entry 3). -/
opaque freeBool : Nat → Bool
/-- A free number (log entry 3). -/
opaque freeNat : Nat → Nat
/-- A free 64-bit value (log entry 3). -/
opaque freeW64 : Nat → W64
/-- A free byte of a range: the use, and the byte's place (log entry 3). -/
opaque freeByte : Nat → Nat → Byte

/-- The bytes of a 64-byte line written under one key and read under another (R76: AES-256-XTS, the tweak being the
line's address; none is plain storage). Log entry 4. -/
opaque recrypt : (line : Nat) → (written read : Option (BitVec 512)) → BitVec 512 → BitVec 512

/-- SHA-512, named by R337 and defined outside the spec. Log entry 5. -/
opaque sha512 : List Byte → BitVec 512
/-- Ed25519 verification of a message under a public key. Log entry 5. -/
opaque ed25519 : (key : BitVec 256) → (msg : List Byte) → (sig : BitVec 512) → Bool

/-- Fuse rows (R337, R339, R342, R344). Log entry 6. -/
opaque signHash : BitVec 512
opaque rootKey : BitVec 256
opaque debugKey : BitVec 256
opaque opKey : Bool → BitVec 512
opaque devId : (node : Nat) → BitVec 128
/-- The number of the fuse row that the lifecycle is read from (R341, 0xFA of Table 20.14). -/
opaque lifecycleRow : W64

/-- The approximate functions of R169 and R196 before their stated bounds and special inputs are applied: fixed
functions of the input. Log entry 7. -/
opaque rcp : W32 → W32
opaque rsqrt : W32 → W32
opaque exp2 : W32 → W32
opaque log2 : W32 → W32
opaque tanh : W32 → W32
opaque gelu : W32 → W32
opaque silu : W32 → W32
opaque sigmoid : W32 → W32

/-- The identifier of the Ultra Ethernet endpoint that a package's function has of its own (R25). Log entry 37. -/
opaque ownEndpoint : (node func : Nat) → BitVec 48

/-- The Handle's threshold for the shadow divergences of a core (Table 20.8). Log entry 42. -/
opaque divergenceLimit : Nat

/-- The Handle's configured limit for a taken command (R336), in cycles. Log entry 8. -/
opaque workerLimit : Nat

end Sys2Proof.Config
end

