-- ==== Sys2Proof/Machine/State.lean ====
section
/-!
DEFINITION. The state of a pod: every piece of state the spec gives the machine, as plain data. One State holds the
memory of every node, the cores of every package, the slices and their work, the firmware complex, the fabric and the
switches, and the list (agenda) that says which agent or event moves next. Tables are sparse: an absent key stands for
the value after reset.
-/
namespace Sys2Proof.Machine

/-- Bytes by address, in one canonical form: addresses strictly rising and no byte zero (an unlisted byte reads 0). -/
abbrev Memory := List Host.Cell

/-- Why the machine stops with a fault: nothing. Every fault the spec describes (a trap, a stall, a park, an error
response, the end of an invocation) is taken, and the machine goes on; an address that does not exist answers with an
error response (R304). So no constructor is needed, and nothing raises one. -/
inductive Fault where
  deriving DecidableEq, Repr

/-- Why an instruction is refused. -/
inductive Refusal where
  /-- Raised by the dispatch alone, for an instruction without a meaning yet. Safe: the run stops. -/
  | notModelled (mnemonic : String)
  deriving DecidableEq, Repr

/-! ### The access core -/

/-- What a core is doing (R46, R47, R137). -/
inductive Run where
  /-- No thread: free for dispatch. -/
  | idle
  /-- Taken by the Weaver; its tiles are being staged (R47). -/
  | staging
  /-- A thread fetches and executes. -/
  | running
  /-- The thread executed end; its rings are draining (R137, R330). -/
  | ended
  deriving DecidableEq, Repr

/-- An active counted loop (R125). -/
structure Loop where
  count : W64
  sta : W64
  lend : W64
  cdepth : BitVec 20
  deriving DecidableEq, Repr

/-- A not-yet-met wait on a token, in the order in which the claims were made (R147): an engine entry's, by its ring
and sequence number, or the access core's. -/
inductive Claim where
  | entry (ring : Nat) (seq : W64)
  | access
  deriving DecidableEq, Repr

/-- A token (R147): VALUE, PRAISE, PWAIT and the claims in order. -/
structure Token where
  value : W32 := 0
  praise : Nat := 0
  pwait : Nat := 0
  claims : List Claim := []
  deriving DecidableEq, Repr

/-- A core's side of a barrier (R240). -/
structure CoreBar where
  pend : Bool := false
  tgt : W32 := 0
  gc : Byte := 0
  deriving DecidableEq, Repr

/-- One load-queue place (R129): a load that is still to be performed at its home, one that was performed and whose bytes are
on their way, or what has arrived: bytes with their element format, or an error mark with the home's cause (R302). -/
inductive LqSlot where
  | pending (pa va : W64) (len : Nat) (fmt : Nat) (enc : Bool)
  | sent (r : LqSlot)
  /-- taken by an entry of a ring's retained window, and kept for its replay (R153, R160) -/
  | used (ring : Nat) (r : LqSlot)
  | data (bytes : List Byte) (fmt : Nat)
  | mark (va : W64) (home : Nat)
  deriving DecidableEq, Repr

/-- A load queue (R129, R130): counts of loads issued and of claims made, the number of the claim that the access core
still holds, and the entries not yet taken, by issue number. -/
structure LoadQueue where
  issued : Nat := 0
  claimed : Nat := 0
  taken : Nat := 0
  standing : Option Nat := none
  slots : Tab LqSlot := []
  deriving DecidableEq, Repr

/-- Where a tagged request stands (R237, R238): waiting at the word's home, or answered. -/
inductive TagReply where
  | waiting
  | done (v : W64)
  | refused (cause : Nat)
  /-- taken back unperformed after its time-out (R233) -/
  | withdrawn
  deriving DecidableEq, Repr

/-- A timed wait in progress (R233): the cycle it started in, and the word of its instruction, which is not fetched again while the
wait lasts. -/
structure Wait where
  start : Nat
  word : W32 := 0
  reply : Option TagReply := none
  deriving DecidableEq, Repr

/-- One walk of a port (R161, R162): operand bytes, base, counts, strides, skew row units, and the load queue it is
bound to. -/
structure Walk where
  opb : Nat
  elem : Nat
  base : Nat
  cnt : List Nat
  str : List Int
  rowb : Nat
  lq : Option Nat
  deriving DecidableEq, Repr

/-- A port: its walk and the number of operands taken so far; on the push side, the number promised so far (R164). -/
structure Port where
  walk : Walk
  pos : Nat
  /-- the number of the first load-queue claim of a bound port (R165) -/
  first : Nat
  deriving DecidableEq, Repr

/-- Parts of a ganged multiply (R192 to R194): the slice cores of the group as captured, and those whose part is done. -/
structure Gang where
  members : NSet := []
  done : NSet := []
  sent : NSet := []
  /-- which thread each member ran at the push -/
  ids : Tab Nat := []
  deriving DecidableEq, Repr

/-- Progress of a repeat, a batch atomic or a sketch command (R154, R213, R228): repetition, place, whether the entry holds
the set's LOCK; a sketch command's count n, its flag (peel: the sweep has peeled; rsz: C and ROUND are stepped) and its two
counts. -/
structure Progress where
  rep : Nat := 0
  pos : Nat := 0
  lock : Bool := false
  n : Nat := 0
  flag : Bool := false
  a : Nat := 0
  b : Nat := 0
  deriving DecidableEq, Repr

/-- A ring entry: Table 9.1, with what the push captured beside it (R130 claims, R151 ranges, R192 membership). -/
structure Entry where
  word : W32 := 0
  waitk : BitVec 6 := 0
  raisek : BitVec 6 := 0
  tsm : Bool := false
  held : Bool := false
  stale : Bool := false
  wdone : Bool := false
  seq : W64 := 0
  capa : W64 := 0
  capb : W64 := 0
  shape : W64 := 0
  /-- scratchpad ranges declared at push: reads, then the write, as first byte and byte behind the last -/
  reads : List (Nat × Nat) := []
  writes : List (Nat × Nat) := []
  /-- first load-queue claim, and how many -/
  lqClaim : Option (Nat × Nat) := none
  /-- the walk that a port configuration captured at push (R162) -/
  walk : Option Port := none
  gang : Gang := {}
  /-- a multicast's group membership as captured at push (R24) -/
  group : NSet := []
  /-- an orphaned wait (R139): parks with 0x81 when reached -/
  orphan : Bool := false
  /-- executed again by a replay: its raise was applied already (R153) -/
  raised : Bool := false
  /-- of the entry of the copy ring that consumed an error: what it had done before the replay, which it does not do again (R213,
  R228) -/
  prog : Progress := {}
  /-- has completed while an earlier entry of another unit was still running (R183); the read pointer has not passed it yet -/
  finished : Bool := false
  deriving DecidableEq, Repr

/-- A parked ring or a stalled unit: the cause, which fault queue holds its record and under which number (R72, R302). -/
structure Park where
  cause : Nat
  handle : Bool
  fnum : Nat
  deriving DecidableEq, Repr

/-- A command ring (R142 to R146, R153). The entry at the read pointer is the head of queue; past holds the entries
behind it that are still kept, newest first. -/
structure Ring where
  queue : List Entry := []
  past : List Entry := []
  /-- read and write pointers, counted without wrapping; the entry of count n stands at n mod 1,024 -/
  rp : Nat := 0
  wp : Nat := 0
  /-- entries pushed since thread start or the last reset of the ring (R154) -/
  pushed : Nat := 0
  /-- start of the retained window, if one has been opened, and whether it was truncated -/
  win : Option Nat := none
  trunc : Bool := false
  prog : Progress := {}
  park : Option Park := none
  /-- a replay of the window is under way (R306), up to the entry that consumed the error -/
  replayFor : Option W64 := none
  /-- entry and lane or column of the last shadow divergence (R308) -/
  diverged : Option (W64 × Nat) := none
  /-- of a parked ring that was restored onto another package: 1 where its entry is to repeat its translations, 2 where it has
  (R323) -/
  retry : Nat := 0
  /-- while an entry executes ahead of a running one of another unit (R183): the entries in front of it -/
  aside : List Entry := []
  deriving DecidableEq, Repr

/-- A push that has passed its checks (R109, R148, R301): its ring, its entry, a copy's follow-on, and what it changes in the push-side
tables when it is entered: a port that it configures, load-queue places that it claims, operands that it takes from ports so many times,
and the order of a tile. -/
structure Plan where
  r : Nat
  e : Entry
  follow : Option Entry := none
  port : Option (Nat × Port) := none
  claim : Option (Nat × Nat) := none
  uses : List (Nat × Nat) := []
  times : Nat := 1
  tr : Option (Fin 8 × Bool) := none
  deriving DecidableEq, Repr

/-- What the retained copy of the vector engine holds (R160). -/
structure VecCopy where
  v : Vector Operand 32
  q : Vector Operand 16
  m : Vector MaskReg 8
  ports : Tab Port
  deriving DecidableEq, Repr

/-- The vector engine (R156 to R160). -/
structure VecUnit where
  v : Vector Operand 32 := Vector.replicate 32 0
  q : Vector Operand 16 := Vector.replicate 16 0
  /-- vm0 stands at index 0 and is never written; it reads as all ones -/
  m : Vector MaskReg 8 := Vector.replicate 8 0
  /-- ports by port-space value; an absent port is unconfigured -/
  ports : Tab Port := []
  copy : Option VecCopy := none
  /-- power-gated banks (R309): 0 even, 1 odd -/
  gated : NSet := []
  /-- cycle in which an entry last named a register of a bank -/
  lastNamed : Tab Nat := []
  deriving DecidableEq, Repr

/-- A tile register (R182): element store, scale store, TR. -/
structure Tile where
  elems : Memory := []
  scales : Memory := []
  tr : Bool := false
  deriving DecidableEq, Repr

/-- An accumulator slot (R182): elements by m × 64 + n, pass count, status bits NAN, INF, OVF (R95), row and column
sums and CKV. Absent elements are +0. -/
structure Slot where
  elems : Tab W32 := []
  pass : W64 := 0
  nan : Bool := false
  inf : Bool := false
  ovf : Bool := false
  rows : Tab W32 := []
  cols : Tab W32 := []
  ckv : Bool := false
  /-- cycles of the drains that set the bits (the 24-cycle rule of R95) -/
  nanAt : Nat := 0
  infAt : Nat := 0
  ovfAt : Nat := 0
  deriving DecidableEq, Repr

/-- What the retained copy of the matrix engine holds (R199). -/
structure MatCopy where
  tiles : Vector Tile 8
  slots : Vector Slot 8
  deriving DecidableEq, Repr

/-- A part of a ganged multiply that has arrived at a member (R193). -/
structure Part where
  /-- the issuer's core -/
  issuer : Nat
  seq : W64
  word : W32
  shape : W64
  /-- the member's matrix entries pushed before the arrival, by the ring's write pointer at arrival -/
  after : Nat
  /-- an entry that the part waits for was discarded, and so does not complete (R193, R194) -/
  blocked : Bool := false
  deriving DecidableEq, Repr

/-- A frozen multiply (R318, R321): its sequence number, the cycle it stopped at, the pass values of the elements that have left
their column, by m × 64 + n, and the array's entries that hold a row (Table 21.5), by n × 128 + k. -/
structure Frozen where
  seq : W64 := 0
  cycle : Nat := 0
  done : Tab W32 := []
  cells : Tab (W64 × W64) := []
  deriving DecidableEq, Repr

/-- The matrix engine (R182, R193, R318). -/
structure MatUnit where
  tiles : Vector Tile 8 := Vector.replicate 8 {}
  slots : Vector Slot 8 := Vector.replicate 8 {}
  /-- the weight register whose contents the array holds (R182) -/
  weights : Option (Fin 8) := none
  /-- the access core's push-side copies of TR -/
  pushTr : Vector Bool 8 := Vector.replicate 8 false
  copy : Option MatCopy := none
  frozen : Option Frozen := none
  parts : List Part := []
  deriving DecidableEq, Repr

/-- What a write leaves at each of its bytes for an acquire that reads it (R255, R268): the releasing core, its release
number, and the scope of the release. -/
structure Stamp where
  ck : Nat
  rc : Nat
  scope : Nat
  deriving DecidableEq, Repr

/-- A fence as it stays in force for its access core (R255, R246): scope, the release number of its release half, and the
input addresses it covers, first byte and byte behind the last. -/
structure FenceHalf where
  scope : Nat
  rc : Nat
  lo : Nat
  hi : Nat
  deriving DecidableEq, Repr

/-- A stamped value that the access core has read, for the acquire half of a later fence (R255): where it read, by input and
physical address, and the stamp. -/
structure SeenStamp where
  va : Nat
  len : Nat
  pa : Nat
  stamp : Stamp
  deriving DecidableEq, Repr

/-- A line of the data cache: its bytes, its number among the lines that the core has filled, and the release stamps of its bytes, by
their place in the line: a value read from it is the release's that wrote it (R255). -/
structure CacheLine where
  bytes : List Byte
  born : Nat
  stamps : Tab (List Stamp) := []
  deriving DecidableEq, Repr

/-- A cached translation (R69): the input page, and the leaves of both stages. -/
structure TlbEntry where
  base : Nat
  size : Nat
  d1 : W64
  z1 : Nat
  d2 : W64
  z2 : Nat
  /-- address of the stage-2 leaf, for the D bit (R68) -/
  at2 : Nat
  /-- intermediate address of the input page -/
  ipa : Nat
  deriving DecidableEq, Repr

/-- A transient fault of a unit: an input of the environment (R305, R307). unit: 1 to 4 the arithmetic units as Table 5.7
numbers them, 5 a tile register, 7 the router's atomic unit, 8 the data cache, 9 the instruction cache, 10 the tag store, 11 a checked-line
record, 12 a release image, 13 the die cache, 14 the core's self-test at bring-up (on a key of the firmware complex the supply or
clock fault that makes a reset), 15 the lifecycle fuse row (on the key node × 256 + 144, met at package reset), 16 a switch's stacks (on the key node × 256 + 144 of
the package that declares it). parity says that a function table word failed (R307), or that the die-cache
line was disabled. -/
structure Upset where
  unit : Nat
  lane : Nat
  flip : W64
  parity : Bool
  deriving DecidableEq, Repr

/-- An access core with its engines. Keys of cores are node × 256 + core, with 144 the Handle and 145 to 152 the
workers. -/
structure Core where
  run : Run := .idle
  /-- stopped for a pre-emption: the STOP code of Table 21.4 -/
  stop : Option Nat := none
  /-- the access unit stands faulted (R72): UNIT 0 fetch or 1 data -/
  fault : Option (Park × Nat) := none
  pc : W64 := 0
  s : Vector W64 32 := Vector.replicate 32 0
  p : Vector Bool 8 := (Vector.replicate 8 false).set 0 true
  bx : Vector (W64 × W64) 16 := Vector.replicate 16 (0, 0)
  sh : Vector W64 8 := Vector.replicate 8 0
  /-- hardware return-address store, newest first -/
  rstk : List W64 := []
  rstkBase : W64 := 0
  rstkLim : W64 := 0
  rstkPtr : W64 := 0
  loops : List Loop := []
  cdepth : BitVec 20 := 0
  trapCause : Byte := 0
  trapAddr : W64 := 0
  trapPc : W64 := 0
  tvec : W64 := 0
  trapH : Bool := false
  skCells : W64 := 0
  skGrow : W64 := 0
  skRounds : W64 := 0
  /-- the thread's sequence counter (R144) -/
  seq : W64 := 0
  watchdog : Nat := 0
  tokens : Tab Token := []
  bars : Tab CoreBar := []
  lq : Vector LoadQueue 4 := Vector.replicate 4 {}
  wait : Option Wait := none
  vring : Ring := {}
  mring : Ring := {}
  cring : Ring := {}
  vec : VecUnit := {}
  mat : MatUnit := {}
  /-- push-side port table (R164) -/
  pushPorts : Tab Port := []
  /-- release counter, release numbers of the package's cores, images (R268) -/
  rc : Nat := 0
  view : Tab Nat := []
  images : List (Nat × Tab Nat) := []
  /-- fences in force, and stamped values read, of the access core (R255) -/
  fences : List FenceHalf := []
  seen : List SeenStamp := []
  dcache : Tab CacheLine := []
  /-- lines filled so far, and the ranges of fence.r: input addresses [lo, hi), for which only lines filled since count (R246) -/
  fills : Nat := 0
  rfences : List (Nat × Nat × Nat) := []
  /-- error responses to stores that had left the core, by input address: each traps before the next instruction (R304) -/
  lateErr : List W64 := []
  /-- the address of a release that waits for acknowledgements (0x96 of Table 17.3) -/
  relWait : Option W64 := none
  /-- a push that stalls on a full ring has passed its checks (R301): what it enters, and the address of the next instruction -/
  pushHeld : Option (Plan × W64) := none
  icache : Tab W32 := []
  tlb : List TlbEntry := []
  /-- replaced entries that accesses still to be performed have used (R140) -/
  tlbOld : List TlbEntry := []
  /-- the thread's slice, slice core number, slot of its invocation, level indices, and its iteration's node (R45, R23) -/
  slice : Option Nat := none
  slcore : Nat := 0
  /-- how many threads the core has started -/
  thread : Nat := 0
  slot : Nat := 0
  node : Nat := 0
  index : List Nat := []
  /-- a worker core running a resident fault handler: the slice, and the fault it serves (R75) -/
  handling : Option (Nat × Nat) := none
  /-- the core whose fault the handler serves, with the thread that it ran, and its slot -/
  serves : Nat × Nat × Nat := (0, 0, 0)
  /-- staging copies still to make: declaration and next row (R47, R48) -/
  stage : List (Nat × Nat) := []
  /-- of a row that is under way: the bytes that have landed, and the format of its pages -/
  stageAt : Option (Nat × Nat) := none
  stagePark : Option Park := none
  /-- faults that the arithmetic units are about to have, oldest first -/
  upsets : List Upset := []
  deriving DecidableEq, Repr

/-! ### Slices and their work -/

/-- A slice's side of a barrier (R240). -/
structure SliceBar where
  gen : W32 := 0
  arr : NSet := []
  /-- releases of arrivals, merged by a completed wait (R271): generation, core key, release number -/
  rels : List (Nat × Nat × Nat) := []
  deriving DecidableEq, Repr

/-- A fault record (Table 5.7), with the core and unit it belongs to. -/
structure FaultRec where
  fnum : Nat
  /-- its place among the 64 of the slice's queue -/
  place : Nat := 0
  core : Nat
  unit : Nat
  words : List W64
  deriving DecidableEq, Repr

/-- Slot states (Table 2.1). -/
inductive SlotState where
  | empty
  | loading
  | resident
  | unloading
  deriving DecidableEq, Repr

/-- A model slot (R10): the eight descriptor words and STATE; pins stand for the pages of check 6 (R12). -/
structure ModelSlot where
  words : List W64 := []
  state : SlotState := .empty
  pinned : Bool := false
  deriving DecidableEq, Repr

/-- A node of an active graph (R17): activated, started, its enumeration counter, dispatched and retired iterations,
trips. -/
structure NodeRun where
  started : Bool := false
  retired : Bool := false
  /-- order of activation -/
  order : Nat := 0
  /-- iterations enumerated, dispatched and not yet retired, and retired -/
  next : Nat := 0
  live : Nat := 0
  done : Nat := 0
  deriving DecidableEq, Repr

/-- An edge of an active graph (R19): queued entries, oldest first, and the free-slot counter. -/
structure EdgeRun where
  entries : List W64 := []
  free : Nat := 0
  deriving DecidableEq, Repr

/-- Who asked for an invocation: the command to answer, or the scheduler's batch (R31, R37). -/
inductive Asker where
  | host (seq : Nat) (tag : W64) (ep : Nat)
  | batch (ids : List (Nat × Nat))
  deriving DecidableEq, Repr

/-- An invocation (R31): the slot, the relocation set, and the Weaver's state of its graph or loop nest. -/
structure Invocation where
  slot : Nat
  asker : Asker
  bx : List (W64 × W64)
  /-- order of starting (R46) -/
  order : Nat
  nodes : Tab NodeRun := []
  edges : Tab EdgeRun := []
  trips : Tab Nat := []
  /-- nodes activated so far, and iterations retired -/
  acts : Nat := 0
  done : Nat := 0
  /-- the first fault that ended it: cause and DETAIL (R303) -/
  fault : Option W64 := none
  deriving DecidableEq, Repr

/-- Request states (R35). -/
inductive ReqState where
  | fetch
  | ready
  | running
  | done
  | cancelled
  | failed
  deriving DecidableEq, Repr

/-- A request of the request table (Table 3.6, R35). -/
structure Request where
  slot : Nat
  prio : Nat
  pack : Option Nat
  prompt : Nat
  maxNew : Nat
  inbuf : W64
  outbuf : W64
  kvlist : W64
  state : ReqState
  /-- admission order, prompt tokens processed, tokens generated, tokens before the request's own (R40) -/
  order : Nat
  processed : Nat
  generated : Nat
  pos0 : Nat
  cancel : Bool
  seq : Nat
  tag : W64
  ep : Nat
  /-- the pack as it stood at admission: placement, page list, pages (R39) -/
  packInfo : Option (Nat × W64 × Nat) := none
  deriving DecidableEq, Repr

/-- A scheduled slot (R33). -/
structure Sched where
  budget : Nat
  maxBatch : Nat
  table : W64
  bufs : List (W64 × W64)
  iter : Nat := 0
  removed : Bool := false
  /-- the batch that retired and is not yet applied (R37): request ids with NTOK, and the fault's cause -/
  retired : Option (List (Nat × Nat) × Option Nat) := none
  /-- parameters that replace these at the next boundary -/
  next : Option (Nat × Nat × W64 × List (W64 × W64)) := none
  deriving DecidableEq, Repr

/-- A context pack (R39). -/
structure Pack where
  place : Nat
  tokens : Nat
  list : W64
  pages : Nat
  deriving DecidableEq, Repr

/-- Where a slice stands in a stop (R316, R317, R324). -/
inductive SliceStop where
  | running
  | stopping
  /-- stopping, and the deadline has expired: no matrix entry starts any more (R318) -/
  | freezing
  | stopped
  | held
  /-- being torn down: its threads have ended, and what it asked for is still to be performed (R333) -/
  | ending
  deriving DecidableEq, Repr

/-- A slice (R41). Its binding record stands in the control region; bound says that it has taken effect. Keys of slices
are node × 64 + slice. -/
structure Slice where
  bound : Bool := false
  /-- the function for which an operator had it bound with FUNC 0 (R340, R344); 0 none -/
  bindFor : Nat := 0
  /-- bound, and nothing has run on it yet (R322) -/
  fresh : Bool := false
  s1root : W64 := 0
  fltbase : W64 := 0
  groups : Tab NSet := []
  bars : Tab SliceBar := []
  faults : List FaultRec := []
  nextF : Nat := 0
  /-- units faulted while the queue was full, oldest first: their records wait (R73) -/
  late : List FaultRec := []
  slots : Tab ModelSlot := []
  active : List Invocation := []
  /-- accepted invocations not started, in command order -/
  waiting : List Invocation := []
  started : Nat := 0
  /-- the record served last, by its invocation's order and its node, if any (R46) -/
  served : Option (Nat × Nat) := none
  scheds : Tab Sched := []
  reqs : Tab Request := []
  packs : Tab Pack := []
  admitted : Nat := 0
  /-- worker core running the resident fault handler, and the fault it took (R75) -/
  handler : Option (Nat × Nat) := none
  stop : SliceStop := .running
  /-- an endpoint attached before the function's slice was restored drops its messages (R328) -/
  await : Bool := false
  /-- BASE of the last save (R328), and whether the slice has been stopped since: what its inbox receives is then stored, and moves
  with the image (R326) -/
  saved : Option Nat := none
  kept : Bool := false
  deriving DecidableEq, Repr

/-! ### Packages, switches, transfers -/

/-- An inbox entry (R26, R28). -/
structure InboxEntry where
  seq : Nat
  op : Nat
  tag : W64
  ep : Nat
  hdr : W64 := 0
  payload : List W64
  wellFormed : Bool
  delivered : Bool := false
  inhand : Bool := false
  reprise : Bool := false
  deriving DecidableEq, Repr

/-- A completion record or a management message sent to a host (R32, R343). -/
structure Message where
  node : Nat
  ep : Nat
  words : List W64
  deriving DecidableEq, Repr

/-- A function's inbox (R26): NEXT, the entries by SEQ mod 256, and the last 256 KIND 1 completions, newest first. -/
structure Inbox where
  next : Nat := 0
  entries : Tab InboxEntry := []
  sent : List (Nat × Message) := []
  deriving DecidableEq, Repr

/-- A posted store or store-release outstanding in the fabric (R281 to R283): its sequence number, the core and its thread,
the bytes, its stream index (for a release that counts, the count it carries), how often it was sent and its injection stamp, and
the stamps that it leaves. -/
structure Posted where
  seq : Nat
  core : Nat
  thread : Nat
  func : Nat
  fw : Bool
  release : Bool
  /-- a release that carries the count of the writes before it (R283) -/
  counts : Bool
  va : W64
  pa : Nat
  alt : Option Nat
  sent : Nat
  stamps : List Stamp
  size : Nat
  value : W64
  index : Nat
  sends : Nat
  enc : Bool
  chk : Bool
  deriving DecidableEq, Repr

/-- A reply-cache entry (R281), and the cycle in which the reply was sent last (R284). -/
structure Reply where
  seq : Nat
  reply : W64
  sent : Nat := 0
  deriving DecidableEq, Repr

/-- A store-release held at the target's Border, with its source node (R283). -/
structure HeldRelease where
  src : Nat
  post : Posted
  deriving DecidableEq, Repr

/-- A management session (R343, R344). -/
structure Session where
  ep : Nat
  func : Nat
  /-- transcript hash as fixed at FINISH -/
  hash : BitVec 512
  established : Bool
  lastSeq : Option Nat
  deriving DecidableEq, Repr

/-- A package with its firmware complex, by node number. -/
structure Package where
  /-- UV720 (R2, R54) -/
  uv720 : Bool := false
  /-- CYCLE at the last package reset -/
  born : Nat := 0
  inboxes : Tab Inbox := []
  /-- function of each endpoint that EPBIND has attached, and the functions whose own endpoint is detached (R25, R328) -/
  endpoints : Tab Nat := []
  ownGone : NSet := []
  /-- the Handle's fault queue (R73) -/
  faults : List FaultRec := []
  nextF : Nat := 0
  /-- CSRs of the firmware complex, by CSR number: SLBIND, PREEMPT, CTXOP, EPBIND, SLFREE, FNFREE, RELBASE, RELHEAD,
  RELTAIL, RELOVF, MRSEL, KEYCTL, KEYSRC, DBGNONCE, DBGCTL, BOOTSTAT (kept exclusive-or 0xFF00: absent means FAIL none), LIFECYCLE
  as the fuse rows were read -/
  csr : Tab W64 := []
  recNum : W32 := 0
  /-- READY (Table 24.5) -/
  ready : W64 := 0
  mr : Vector (BitVec 512) 16 := Vector.replicate 16 0
  /-- tenant keys by slot (R340) -/
  keys : Tab (BitVec 512) := []
  debugOpen : Bool := false
  /-- module flash (R337) -/
  flash : Memory := []
  booted : Bool := false
  sessions : List Session := []
  /-- a stop in progress: the slice, the cycle of the request (R316) -/
  stopping : Option (Nat × Nat) := none
  /-- a save or a restore in progress (R319): OP, slice, BASE, DISCARD -/
  ctxop : Option (Nat × Nat × Nat × Bool) := none
  /-- Border: next sequence number and dead marks by destination, outstanding requests, stream counts (R281 to R283) -/
  seqTo : Tab Nat := []
  dead : NSet := []
  outstanding : Tab (List Posted) := []
  /-- reply caches by source node × 4,096 + sequence number mod 4,096 (R281) -/
  replies : Tab Reply := []
  /-- counted writes of each stream so far, by (core key × 4 + unit: 0 the access core, 1 to 3 its rings) × 256 + destination
  (R283) -/
  streams : Tab Nat := []
  held : List HeldRelease := []
  /-- rejoining (R285): quiet until the 200 µs are over, then the nodes whose acknowledgement is missing -/
  quiet : Bool := false
  unacked : NSet := []
  /-- cycle in which the 200 µs, or the 1 ms after the notices, began; nodes that have taken the notice -/
  rejoinAt : Nat := 0
  noticed : NSet := []
  /-- failed switches (R289) -/
  failedSw : NSet := []
  /-- degraded entries of mirrors that SWA was lost of, so that SWB survives (R80), by function × 256 + entry -/
  firstLost : NSet := []
  /-- packages that have not acknowledged the notice of a switch's readmission by this one, by switch × 256 + node (R346) -/
  readmits : NSet := []
  /-- cycle in which a link went down, by its bit of READY (R282, R289) -/
  downAt : Tab Nat := []
  /-- mesh reserve entries in use, by router (R286) -/
  reserve : NSet := []
  /-- probes fired (R286); heads of router queues that do not move, as router and the cycle since which, an input of the
  environment; and the routers whose probe is under way -/
  probes : Nat := 0
  heads : List (Nat × Nat) := []
  fired : NSet := []
  /-- failed die pairs (R291) -/
  d2dDown : NSet := []
  /-- the walk cache of each die (R69): descriptors by address, newest first, at most 4,096 -/
  walkCache : Tab (List (Nat × W64)) := []
  /-- commands that worker cores have in hand (R336): the worker, the cycle it took the command in, function × 256 + entry -/
  taken : List (Nat × Nat × Nat) := []
  /-- the lifecycle fuse rows, as LIFECYCLE's code (R341) -/
  fuse : Nat := 0
  /-- shadow divergences of each core so far, and the cores that the Handle has withdrawn from service (R308) -/
  diverged : Tab Nat := []
  withdrawn : NSet := []
  throttled : NSet := []
  deriving DecidableEq, Repr

/-- How the last round of a context ended (R219): its number, STATE, result, and the members that were missing. -/
structure RoundEnd where
  round : Nat
  state : Nat
  result : List Byte
  missing : List Nat
  deriving DecidableEq, Repr

/-- A reduction context of a switch (R218, R219). The running sum of the first members is a function of parts. -/
structure RedCtx where
  valid : Bool
  op : Nat
  fmt : Nat
  wide : Bool
  m : Nat
  n : Nat
  tmo : Nat
  round : Nat := 0
  /-- contributions of the open round by member number, and the cycle of the first -/
  parts : Tab (List Byte) := []
  start : Nat := 0
  last : Option RoundEnd := none
  /-- cores whose cldr.sw waits for the open round -/
  waiters : NSet := []
  deriving DecidableEq, Repr

/-- Space of a switch that allocations hold (R250, R294): first byte, byte behind the last, and the entries not yet freed
that name it, as node, function and VBASE. -/
structure SwSpace where
  lo : Nat
  hi : Nat
  holders : List (Nat × Nat × Nat)
  deriving DecidableEq, Repr

/-- A Hoop switch, by switch number. -/
structure Switch where
  used : List SwSpace := []
  /-- contexts by offset; answers of the last multicast, by core key -/
  ctxs : Tab RedCtx := []
  answers : Tab (List Byte) := []
  replies : Tab Reply := []
  /-- its memory is lost, and the packages are told (R289) -/
  lost : Bool := false
  /-- packages that it has declared dead (R282) -/
  portsDown : NSet := []
  /-- mirrored writes that SWB has not acknowledged (R288): address, bytes, and the request's source and sequence number -/
  mirror : List (Nat × List Byte × Nat × Nat) := []
  deriving DecidableEq, Repr

/-- A posted key-value half that has not ended (R214, R215). -/
structure KvHalf where
  id : Nat
  core : Nat
  seq : W64
  pull : Bool
  words : List W64
  /-- where the descriptor stands and whether encrypted; and the 4 KiB parts of the listed pages: address, ENC, CHK -/
  desc : Nat × Bool
  /-- whether the descriptor's page is checked (R270) -/
  descChk : Bool := false
  pages : List (Nat × Bool × Bool)
  /-- the translations that the transfer uses (R140, R215) -/
  used : List TlbEntry := []
  /-- the other half, once they match -/
  peer : Option Nat := none
  landed : Nat := 0
  /-- cycle of its post -/
  posted : Nat := 0
  deriving DecidableEq, Repr

/-- A tagged request waiting at a word's home (R238). -/
structure TagReq where
  word : Nat
  core : Nat
  fill : Bool
  value : W64
  /-- input address, and the request's sequence number where its home is on another node -/
  va : Nat := 0
  seq : Nat := 0
  /-- the package of its core has been reset since -/
  gone : Bool := false
  deriving DecidableEq, Repr

/-- What happens next: a core executes an instruction, a ring's engine handles its next entry, an event of the
opcode table takes place, or a slice's teardown goes on (R333). -/
inductive Happening where
  | core (ck : Nat)
  | ring (ck r : Nat)
  | event (i : Instr)
  | teardown (node : Nat) (v : W64)
  deriving DecidableEq, Repr

/-- The pod. -/
structure State where
  /-- bytes at physical addresses of every node (R59); the firmware cores' own scratchpads stand above 2^56 -/
  mem : Memory := []
  /-- full 8-byte scratchpad words, by address / 8 (R237, R238) -/
  tags : NSet := []
  /-- poisoned scratchpad words and HBM or switch lines, by first address (R305) -/
  poison : NSet := []
  /-- scratchpad words with a correctable error (R141), and its bit -/
  soft : Tab Nat := []
  /-- checked-line records by address / 64 (R269); absent means no writer -/
  lines : Tab W64 := []
  /-- the release stamps of a byte, of the release that wrote it and of the atomics behind it (R255, R268, R271) -/
  stamps : Tab (List Stamp) := []
  /-- for a line written with ENC = 1, its key (R76), by address / 64 -/
  enc : Tab (BitVec 512) := []
  cores : Tab Core := []
  slices : Tab Slice := []
  pkgs : Tab Package := []
  switches : Tab Switch := []
  /-- nodes of the pod: packages 0x00 to 0x8F and switches 0xA0 to 0xB1 -/
  nodes : NSet := []
  transfers : List KvHalf := []
  nextKv : Nat := 0
  tagQ : List TagReq := []
  /-- completions and messages sent to hosts, oldest first (R32) -/
  out : List Message := []
  /-- the acting core -/
  cur : Nat := 0
  agenda : List Happening := []
  /-- arithmetic-clock cycles of the pod (R134 CYCLE counts from a package's reset) -/
  clock : Nat := 0
  /-- the model's own: how many free values have been used -/
  nondet : Nat := 0
  /-- the model's own: cycles that the coming steps take, an input of the environment; 1 where the list has ended -/
  ticks : List Nat := []
  /-- the model's own: fates of the sends of fabric requests, an input of the environment (R279): 0 answered, 1 the request is
  lost, 2 the reply is lost, 3 a store stays on its way; 0 where the list has ended -/
  fates : List Nat := []
  deriving DecidableEq, Repr

/-- The pod right after reset: a full pod of 144 packages and 18 switches, nothing running, memory with nothing listed,
every register at the value its structure gives as default. The boot of a package (R337) is the event PACKAGE_RESET. -/
def State.reset : State :=
  { nodes := List.range 144 ++ (List.range 18).map (· + 0xA0), cur := 144 }

end Sys2Proof.Machine
end

