-- ==== Sys2Proof/Machine/Mem.lean ====
section
/-!
DEFINITION. Accessors of the state's tables, and memory: bytes in canonical form, the physical address map (R59), ECC
marks (R305) and encrypted lines (R76).
-/
/-- Bits [lo + n − 1 : lo] of a word as a number (R4). -/
def BitVec.fld {w : Nat} (x : BitVec w) (lo n : Nat) : Nat := x.toNat / 2 ^ lo % 2 ^ n

namespace Sys2Proof.Machine

/-! ### Bit fields -/

/-- Sign extension of the low n bits of a number to 64 bits (R6). -/
def sext (v n : Nat) : W64 := (BitVec.ofNat n v).signExtend 64

/-- The number a list of bytes holds, little-endian (R4). -/
def leNat : List Byte → Nat
  | [] => 0
  | b :: t => b.toNat + 256 * leNat t

/-- The low n bytes of a number, little-endian. -/
def leBytes : Nat → Nat → List Byte
  | 0, _ => []
  | n + 1, v => BitVec.ofNat 8 v :: leBytes n (v / 256)

/-- A 64-bit word's bytes. -/
def wordBytes (w : W64) : List Byte := leBytes 8 w.toNat

/-- The first eight bytes as a 64-bit word, zero-filled. -/
def bytesWord (bs : List Byte) : W64 := BitVec.ofNat 64 (leNat (bs.take 8))

/-! ### Tables of the state -/

/-- A table of words in which an absent key reads 0: writing 0 removes the entry. -/
def Tab.write {w : Nat} (t : Tab (BitVec w)) (a : Nat) (v : BitVec w) : Tab (BitVec w) :=
  if v = 0 then Tab.del t a else Tab.put t a v

def State.core (s : State) (ck : Nat) : Core := Tab.getD s.cores ck {}
def State.putCore (s : State) (ck : Nat) (c : Core) : State := { s with cores := Tab.put s.cores ck c }
/-- The acting core. -/
def State.me (s : State) : Core := s.core s.cur
def State.setMe (s : State) (c : Core) : State := s.putCore s.cur c
def State.slice (s : State) (sk : Nat) : Slice := Tab.getD s.slices sk {}
def State.putSlice (s : State) (sk : Nat) (c : Slice) : State := { s with slices := Tab.put s.slices sk c }
def State.pkg (s : State) (n : Nat) : Package := Tab.getD s.pkgs n {}
def State.putPkg (s : State) (n : Nat) (p : Package) : State := { s with pkgs := Tab.put s.pkgs n p }
def State.switch (s : State) (n : Nat) : Switch := Tab.getD s.switches n {}
def State.putSwitch (s : State) (n : Nat) (w : Switch) : State := { s with switches := Tab.put s.switches n w }

/-- Node and physical number of a core key. -/
def ckNode (ck : Nat) : Nat := ck / 256
def ckCore (ck : Nat) : Nat := ck % 256
/-- The firmware complex: the Handle (144) and the workers (145 to 152) (R336). -/
def isFirmware (ck : Nat) : Bool := 144 ≤ ckCore ck
def isHandle (ck : Nat) : Bool := ckCore ck == 144
/-- Key of a slice. -/
def skOf (node n : Nat) : Nat := node * 64 + n
def skNode (sk : Nat) : Nat := sk / 64
def skNum (sk : Nat) : Nat := sk % 64

/-- Puts a happening at the end of the agenda, or before everything else. -/
def State.later (s : State) (h : Happening) : State := { s with agenda := s.agenda ++ [h] }
def State.now (s : State) (h : Happening) : State := { s with agenda := h :: s.agenda }
/-- Puts a happening at the end of the agenda unless it stands there already. -/
def State.wake (s : State) (h : Happening) : State := if h ∈ s.agenda then s else s.later h

/-- The next free value, and the state in which it is used up. -/
def State.pickBool (s : State) : Bool × State := (Config.freeBool s.nondet, { s with nondet := s.nondet + 1 })
def State.pickNat (s : State) : Nat × State := (Config.freeNat s.nondet, { s with nondet := s.nondet + 1 })
def State.pickW64 (s : State) : W64 × State := (Config.freeW64 s.nondet, { s with nondet := s.nondet + 1 })

/-- CYCLE of a package (R134). -/
def State.cycle (s : State) (node : Nat) : Nat := (s.clock - (s.pkg node).born) % 2 ^ 48

/-! ### Physical addresses -/

/-- Where a physical address lies (Table 5.1). -/
inductive Region where
  | hbm (node chan : Nat)
  | pad (ck off : Nat)
  | control (node off : Nat)
  | switch (sw off : Nat)
  | reserved
  deriving DecidableEq, Repr

def padWindows : Nat := 0x010000000000
def controlBase : Nat := 0x020000000000
/-- Bytes of a scratchpad, and where its ring region begins (R142). -/
def padSize : Nat := 0x300000
def ringRegion : Nat := 0x2E8000

/-- NODE 0xFF names the issuing package (R59). -/
def normPa (node pa : Nat) : Nat := if pa / 2 ^ 48 = 0xFF then node * 2 ^ 48 + pa % 2 ^ 48 else pa

/-- The region of a normalised physical address. The firmware cores' own scratchpads stand above 2^56 and are reached
only as their own. -/
def region (pa : Nat) : Region :=
  if 2 ^ 56 ≤ pa then .reserved
  else
    let node := pa / 2 ^ 48
    let off := pa % 2 ^ 48
    if node < 0x90 then
      if off < 0x8000000000 then .hbm node (off / 2 ^ 31)
      else if padWindows ≤ off ∧ off < padWindows + 144 * 0x400000 then
        let o := (off - padWindows) % 0x400000
        if o < padSize then .pad (node * 256 + (off - padWindows) / 0x400000) o else .reserved
      else if controlBase ≤ off ∧ off < controlBase + 0x100000000 then .control node (off - controlBase)
      else .reserved
    else if 0xA0 ≤ node ∧ node < 0xB2 ∧ off < 0x2000000000 then .switch (node - 0xA0) off
    else .reserved

/-- First address of a core's own scratchpad. -/
def padBase (ck : Nat) : Nat :=
  if isFirmware ck then 2 ^ 56 + ck * 0x400000
  else ckNode ck * 2 ^ 48 + padWindows + ckCore ck * 0x400000

/-- The node at which a physical address is at home; a firmware core's own scratchpad is at home on its package. -/
def homeNode (pa : Nat) : Nat := if 2 ^ 56 ≤ pa then ckNode ((pa - 2 ^ 56) / 0x400000) else pa / 2 ^ 48

/-- A scratchpad address, own or through a window. -/
def isPad (pa : Nat) : Bool := 2 ^ 56 ≤ pa || (padWindows ≤ pa % 2 ^ 48 && pa % 2 ^ 48 < controlBase)

/-- Address of offset off of a package's control region. -/
def ctl (node off : Nat) : Nat := node * 2 ^ 48 + controlBase + off

/-- The die of a core (R41), and of an HBM channel (four dies, two stacks of 32 channels each). -/
def dieOf (core : Nat) : Nat := core / 36
def chanDie (chan : Nat) : Nat := chan / 64

/-! ### Bytes -/

def Memory.get (m : Memory) (a : Nat) : Byte := Tab.getD m a 0
def Memory.set (m : Memory) (a : Nat) (v : Byte) : Memory := Tab.write m a v
/-- The n bytes from a on, of a list whose entries begin at a or later. -/
def Memory.readFrom : Memory → Nat → Nat → List Byte
  | _, _, 0 => []
  | [], a, n + 1 => 0 :: Memory.readFrom [] (a + 1) n
  | (k, v) :: t, a, n + 1 => if k = a then v :: Memory.readFrom t (a + 1) n else 0 :: Memory.readFrom ((k, v) :: t) (a + 1) n
def Memory.read (m : Memory) (a n : Nat) : List Byte := Memory.readFrom (m.dropWhile fun c => c.1 < a) a n
/-- The entries that bytes from a on stand as: a byte 0 is not listed. -/
def Memory.listed (a : Nat) : List Byte → Memory
  | [] => []
  | b :: t => if b = 0 then Memory.listed (a + 1) t else (a, b) :: Memory.listed (a + 1) t
/-- Bytes from a on replaced by those of a list. -/
def Memory.write : Memory → Nat → List Byte → Memory
  | [], a, bs => Memory.listed a bs
  | (k, v) :: t, a, bs =>
    if k < a then (k, v) :: Memory.write t a bs else Memory.listed a bs ++ ((k, v) :: t).dropWhile fun c => c.1 < a + bs.length
def Memory.zero (m : Memory) (lo hi : Nat) : Memory := m.filter fun c => c.1 < lo || hi ≤ c.1

/-- The canonical form: addresses strictly rising and no listed byte 0. -/
def Memory.wf (m : Memory) : Bool := Tab.rising m && m.all fun c => c.2 != 0

/-- Raw bytes and words at a physical address, as stored. -/
def State.bytes (s : State) (a n : Nat) : List Byte := s.mem.read a n
def State.setBytes (s : State) (a : Nat) (bs : List Byte) : State := { s with mem := s.mem.write a bs }
def State.word (s : State) (a : Nat) : W64 := bytesWord (s.bytes a 8)
def State.setWord (s : State) (a : Nat) (v : W64) : State := s.setBytes a (wordBytes v)

/-! ### Encrypted lines (R76) -/

abbrev Key := BitVec 512

/-- One byte of a line as it reads under a key (none: without decryption). -/
def State.keyByte (s : State) (key : Option Key) (a : Nat) : Byte :=
  let line := a / 64
  if s.enc.get? line = key then s.mem.get a
  else
    let raw : BitVec 512 := BitVec.ofNat 512 (leNat (s.bytes (line * 64) 64))
    BitVec.ofNat 8 ((Config.recrypt (line * 64) (s.enc.get? line) key raw).toNat / 2 ^ (8 * (a % 64)))

def State.keyBytes (s : State) (key : Option Key) (a : Nat) : Nat → List Byte
  | 0 => []
  | n + 1 => s.keyByte key a :: s.keyBytes key (a + 1) n

/-- Turns a line into the form of a key before bytes of it are written under that key. -/
def State.rekey (s : State) (key : Option Key) (line : Nat) : State :=
  if s.enc.get? line = key then s
  else
    let s := s.setBytes (line * 64) (s.keyBytes key (line * 64) 64)
    match key with
    | none => { s with enc := s.enc.del line }
    | some k => { s with enc := s.enc.put line k }

/-- Writes bytes that lie in one line or scratchpad, under a key. A write of the whole 8-byte scratchpad word or of the
whole 64-byte line clears its poison (R305), and a scratchpad word's correctable error goes with the word. -/
def State.poke (s : State) (key : Option Key) (a : Nat) (bs : List Byte) : State :=
  let s := s.rekey key (a / 64)
  let s := s.setBytes a bs
  let unit := if isPad a then 8 else 64
  let lo := (a + unit - 1) / unit * unit
  let hi := (a + bs.length) / unit * unit
  if s.poison.isEmpty && s.soft.isEmpty then s
  else { s with poison := s.poison.cut lo hi, soft := s.soft.filter fun e => e.1 < lo || hi ≤ e.1 }

/-- The first poisoned byte of a range, if any (R305). -/
def State.poisonAt (s : State) (a n : Nat) : Option Nat :=
  (s.poison.find? fun p => p < a + n && a < p + (if isPad p then 8 else 64)).map (max a)

end Sys2Proof.Machine
end

