-- ==== Sys2Proof/Machine/Rel.lean ====
section
/-!
DEFINITION. Binding records (R42), the CSRs that hold their state in the package, and the reliability engine: counters
(R314) and the record ring (R310 to R313).
-/
namespace Sys2Proof.Machine

/-! ### Binding records (Table 4.1) -/

/-- Word w of the binding record of a slice. -/
def State.bindWord (s : State) (sk w : Nat) : W64 := s.word (ctl (skNode sk) 0x10000 + 64 * skNum sk + 8 * w)
def State.sliceFunc (s : State) (sk : Nat) : Nat := (s.bindWord sk 0).fld 58 6
def State.sliceQuads (s : State) (sk : Nat) : Nat := (s.bindWord sk 0).fld 16 36
/-- The channel mask, bit c for channel c. -/
def State.sliceChans (s : State) (sk : Nat) : Nat := leNat (s.bytes (ctl (skNode sk) 0x10000 + 64 * skNum sk + 8) 32)
def State.s2root (s : State) (sk : Nat) : Nat := (s.bindWord sk 6).toNat
/-- YLIMIT as a watchdog loads it (R248). -/
def State.ylimit (s : State) (sk : Nat) : Nat :=
  let y := (s.bindWord sk 7).fld 0 24
  if y = 0 then 65536 else max y 256

/-- Physical cores of a mask of quads, ascending (R45). -/
def quadCores (quads : Nat) : List Nat := (List.range 144).filter fun c => bit quads (c / 4)
def State.sliceCores (s : State) (sk : Nat) : List Nat := quadCores (s.sliceQuads sk)
/-- Core key of a slice core number. -/
def State.sliceCoreKey (s : State) (sk n : Nat) : Option Nat := ((s.sliceCores sk)[n]?).map (skNode sk * 256 + ·)
/-- Slice core number of a physical core. -/
def State.sliceCoreNum (s : State) (sk core : Nat) : Nat := ((s.sliceCores sk).findIdx (· == core))
/-- The bound slice that owns a core, a channel, or a function, on a package. -/
def State.findSlice (s : State) (node : Nat) (f : Nat → Bool) : Option Nat :=
  ((List.range 36).map (skOf node)).find? fun sk => (s.slice sk).bound && f sk
def State.ownerOfCore (s : State) (node core : Nat) : Option Nat := s.findSlice node fun sk => bit (s.sliceQuads sk) (core / 4)
def State.ownerOfChan (s : State) (node chan : Nat) : Option Nat := s.findSlice node fun sk => bit (s.sliceChans sk) chan
def State.sliceOfFunc (s : State) (node func : Nat) : Option Nat :=
  if func = 0 then none else s.findSlice node fun sk => s.sliceFunc sk == func

/-! ### CSRs of the firmware complex -/

def State.pcsr (s : State) (node n : Nat) : W64 := Tab.getD (s.pkg node).csr n 0
def State.setPcsr (s : State) (node n : Nat) (v : W64) : State :=
  let p := s.pkg node
  s.putPkg node { p with csr := p.csr.put n v }

/-! ### Counters and records -/

/-- The cause codes that are assigned: x0 to xC of each class (R315). -/
def assignedCause (c : Nat) : Bool := c < 0x100 && c % 16 < 13

/-- Advances a cause's 32-bit saturating counter (R314). -/
def State.count (s : State) (node cause : Nat) : State :=
  if assignedCause cause then
    let a := ctl node 0x200000 + 8 * cause
    let v := leNat (s.bytes a 4)
    if v = 2 ^ 32 - 1 then s else s.setBytes a (leBytes 4 (v + 1))
  else s

/-- An error record (Table 20.4). -/
structure Rec where
  cause : Nat
  sev : Nat
  func : Nat := 63
  slice : Nat := 63
  core : Nat := 0xFF
  unit : Nat := 15
  die : Nat := 0
  kind : Nat := 0
  addr : W64 := 0
  peer : Nat := 0xFF
  syndrome : W64 := 0
  detail : W64 := 0
  deriving DecidableEq, Repr

/-- Table 20.5 by cause; an event that ended a thread or an invocation is said to be so by its caller. -/
def sevOf (c : Nat) : Nat :=
  if c = 0xEC then 5
  else if c ∈ [0xD0, 0xD1, 0xDB, 0xDC, 0x6A, 0x6B, 0x8B, 0x8C] then 4
  else if c ∈ [0xBB, 0xBC, 0xE1, 0xE2, 0xE6, 0x6C, 0x63, 0x73, 0x95, 0xC7, 0xC8, 0xC9] then 3
  else if c ∈ [0xE3, 0xE4, 0xE5, 0xE0, 0x79, 0x7A, 0x7B, 0x7C, 0xAA, 0xE9] then 1
  else if c ∈ [0xE7, 0xE8, 0xEA, 0xEB, 0xD2, 0xD3, 0xF2, 0xF4, 0xF5, 0xFC, 0x92, 0x93, 0x72, 0x2B, 0x2C, 0xA6, 0xA8] then 0
  else 2

/-- Whether what a cause logs is an address of the thread or the core that met it (Tables 8.1, 9.4, 12.10, 20.8 to 20.14): the other causes
log an instruction word, a number or a value (R312). -/
def logsAddress (c : Nat) : Bool :=
  (0x40 ≤ c && c < 0x63) ||
    c ∈ [0x12, 0x15, 0x16, 0x28, 0x66, 0x67, 0x70, 0x71, 0x94, 0xB0, 0xB1, 0xB2, 0xB3, 0xB8, 0xC0, 0xC8, 0xCB, 0xD0, 0xE1, 0xE2]

/-- ADDRKIND of what the end of a thread logs (R312): an input address of its slice, a physical address on a core of the firmware complex, or
none. A trap within a trap handler logs what the inner cause does. -/
def endKind (cause inner : Nat) (tenant : Bool) : Nat :=
  if logsAddress (if cause = 0xD1 then inner else cause) then (if tenant then 1 else 3) else 0

/-- A record of the Handle. -/
def handleRec (cause : Nat) (addr : W64) : Rec := { cause := cause, sev := sevOf cause, core := 0xFE, unit := 12, addr := addr }

/-- The eight words of a record. -/
def Rec.words (r : Rec) (stamp : Nat) (num : W32) : List W64 :=
  [BitVec.ofNat 64 (r.cause * 2 ^ 56 + r.sev % 8 * 2 ^ 53 + r.func % 64 * 2 ^ 42 + r.slice % 64 * 2 ^ 36 + r.core % 256 * 2 ^ 28
      + r.unit % 16 * 2 ^ 24 + r.die % 4 * 2 ^ 22 + r.kind % 4 * 2 ^ 20 + r.peer % 256),
    r.addr, BitVec.ofNat 64 stamp, num.setWidth 64, r.syndrome, r.detail, 0, 0]

/-- Number of records of the ring; none when writing is disabled (Table 20.3). -/
def State.relSize (s : State) (node : Nat) : Option Nat :=
  let z := (s.pcsr node 0x110).fld 0 5
  if 6 ≤ z ∧ z ≤ 20 then some (2 ^ z) else none

def State.relFull (s : State) (node : Nat) : Bool :=
  match s.relSize node with
  | none => true
  | some n => ((s.pcsr node 0x111).fld 0 20 + 1) % n == (s.pcsr node 0x112).fld 0 20

/-- Writes a record at HEAD of a ring that is not full. -/
def State.relPut (s : State) (node : Nat) (r : Rec) : State :=
  let head := (s.pcsr node 0x111).fld 0 20
  let p := s.pkg node
  let base := (s.pcsr node 0x110).fld 12 44 * 4096
  let s := s.poke none (normPa node (base + 64 * head)) ((r.words (s.cycle node) p.recNum).flatMap wordBytes)
  let s := s.putPkg node { s.pkg node with recNum := p.recNum + 1 }
  s.setPcsr node 0x111 (BitVec.ofNat 64 ((head + 1) % (s.relSize node).getD 1))

/-- A lost record takes its number, sets OVF and adds 1 to LOST. -/
def State.relLose (s : State) (node : Nat) : State :=
  let o := s.pcsr node 0x113
  let lost := min (o.fld 16 32 + 1) (2 ^ 32 - 1)
  let p := s.pkg node
  (s.putPkg node { p with recNum := p.recNum + 1 }).setPcsr node 0x113 (BitVec.ofNat 64 (lost * 2 ^ 16 + 1))

/-- R311: one record of an event that has been counted already. -/
def State.writeRecord (s : State) (node : Nat) (r : Rec) : State :=
  if s.relFull node then s.relLose node
  else
    let o := s.pcsr node 0x113
    if o.fld 16 32 = 0 then s.relPut node r
    else
      let s := s.count node 0xE7
      let s := s.relPut node { cause := 0xE7, sev := sevOf 0xE7, detail := BitVec.ofNat 64 (o.fld 16 32) }
      let s := s.setPcsr node 0x113 (BitVec.ofNat 64 (o.fld 0 1))
      if s.relFull node then s.relLose node else s.relPut node r

/-- R299: one record, which also advances the cause's counter. -/
def State.record (s : State) (node : Nat) (r : Rec) : State := (s.count node r.cause).writeRecord node r

/-- A record about a core's unit, with its function, slice and die. -/
def State.coreRec (s : State) (ck cause unit : Nat) : Rec :=
  let sl := (s.core ck).slice
  { cause := cause, sev := sevOf cause,
    func := match sl with | some sk => s.sliceFunc sk | none => 63
    slice := match sl with | some sk => skNum sk | none => 63
    core := if isFirmware ck then 0xFE else ckCore ck
    unit := unit
    die := if isFirmware ck then 0 else dieOf (ckCore ck) }

end Sys2Proof.Machine
end

