-- ==== Sys2Proof/Machine/Send.lean ====
section
/-!
DEFINITION. The sending side of the fabric (R277, R279, R281 to R283): ports and the ways of packets, sequence numbers and stream
indices, reply caches, and what a node that is declared dead leaves of the requests outstanding to it.
-/
namespace Sys2Proof.Machine

/-- Sequence numbers and stream indices count modulo 2^32. -/
def laterSeq (a b : Nat) : Bool := a ≠ b && (a + 2 ^ 32 - b) % 2 ^ 32 < 2 ^ 31

/-- A slice with no share of the fabric and its cap set cannot use the fabric ports (R44). -/
def State.fabricBarred (s : State) (sk : Nat) : Bool := (s.bindWord sk 5).fld 56 8 == 0 && (s.bindWord sk 5).fld 47 1 == 1

/-- The same of the Ethernet ports. -/
def State.etherBarred (s : State) (sk : Nat) : Bool := (s.bindWord sk 5).fld 48 8 == 0 && (s.bindWord sk 5).fld 46 1 == 1

/-- The core runs for such a slice. -/
def State.portBarred (s : State) (ck : Nat) : Bool := match (s.core ck).slice with | some sk => s.fabricBarred sk | none => false

/-- The fate of the next send (R279). -/
def State.takeFate (s : State) : Nat × State :=
  match s.fates with
  | [] => (0, s)
  | f :: t => (f, { s with fates := t })

/-- The die that carries the port to a switch (R277). -/
def portDie (sw : Nat) : Nat := if sw ≤ 4 then 0 else if sw ≤ 9 then 1 else if sw ≤ 13 then 2 else 3

/-- The port of a package to a switch is up (R277, Table 24.5). -/
def State.portUp (s : State) (node sw : Nat) : Bool := (s.pkg node).ready.fld (18 + sw) 1 == 1

/-- Since when a port is down, if it is. -/
def State.downSince (s : State) (node sw : Nat) : Option Nat :=
  if s.portUp node sw then none else some (Tab.getD (s.pkg node).downAt (18 + sw) (s.pkg node).born)

/-- What becomes of one packet on its way to a node (R277, R282). -/
inductive Way where
  /-- it reaches the node, unless the environment loses it -/
  | through
  /-- no port leads on -/
  | lost
  /-- its switch has declared the node dead, drops it and tells the source -/
  | dropped
  deriving DecidableEq, Repr

/-- The way through one switch. -/
def State.wayBy (s : State) (dst w : Nat) : Way :=
  if (s.switch w).portsDown.has dst then .dropped else if s.portUp dst w then .through else .lost

/-- Switches that a package sends through: it has a port to them, and they are not failed (R289). -/
def State.ports (s : State) (me : Nat) : List Nat := (List.range 18).filter fun w => s.portUp me w && !(s.pkg me).failedSw.has w

/-- The way of a packet from a package: to a switch through the port to it; to a package through any switch that the source sends
through, a free choice where they differ (R277). A package that is quiet accepts nothing (R285). -/
def State.way (s : State) (me dst : Nat) : Way × State :=
  if 0xA0 ≤ dst then (if s.portUp me (dst - 0xA0) then .through else .lost, s)
  else if (s.pkg dst).quiet then (.lost, s)
  else
    match (s.ports me).map (s.wayBy dst) with
    | [] => (.lost, s)
    | x :: l =>
      if l.all (· == x) then (x, s)
      else
        let (n, s) := s.pickNat
        ((x :: l).getD (n % (l.length + 1)) x, s)

/-- How the sends of a request ended (R282). -/
structure Sent where
  performed : Bool
  answered : Bool := false
  dropped : Bool := false

/-- Up to n sends of one request (R282), each on a way of its own. -/
def State.sendTries (s : State) (me dst : Nat) : Nat → Bool → Sent × State
  | 0, done => ({ performed := done }, s)
  | n + 1, done =>
    match s.way me dst with
    | (.lost, s) => s.sendTries me dst n done
    | (.dropped, s) => ({ performed := done, dropped := true }, s)
    | (.through, s) =>
      match s.takeFate with
      | (1, s) => s.sendTries me dst n done
      | (2, s) => s.sendTries me dst n true
      | (_, s) => ({ performed := true, answered := true }, s)

/-- The tagged request is one that a core waits for. -/
def TagReq.of (t : TagReq) (ck : Nat) : Bool := t.core == ck && !t.gone

/-- Answers a core's tagged request. -/
def State.answerTagged (s : State) (ck : Nat) (r : TagReply) : State :=
  let c := s.core ck
  let s := { s with tagQ := s.tagQ.filter fun t => !t.of ck }
  match c.wait with
  | some w => (s.putCore ck { c with wait := some { w with reply := some r } }).wake (.core ck)
  | none => s

/-- A thread that has executed end looks again whether it has ended: something that it waited for has been done (R330). -/
def State.wakeEnded (s : State) (ck : Nat) : State :=
  if (s.core ck).run = .ended then s.wake (.event (.threadEnd (ckNode ck) (ckCore ck))) else s

/-- The error response to a posted store reaches its core (R304): the thread traps with 0x60 before its next instruction. The store is
not performed, so the core's line goes that held its value (R258). -/
def State.failPosted (s : State) (q : Posted) : State :=
  let c := s.core q.core
  let c := { c with dcache := c.dcache.del (q.pa / 64) }
  let s := s.putCore q.core c
  if c.run = .running && c.thread = q.thread then (s.putCore q.core { c with lateErr := c.lateErr ++ [q.va] }).wake (.core q.core)
  else s.wakeEnded q.core

/-- The posted store has an earlier counted write of its stream among others (R283). -/
def Posted.follows (q : Posted) (l : List Posted) : Bool := l.any fun o => o.core == q.core && laterSeq q.index o.index

/-- A posted store, or a store-release, has failed, with others; a release that an earlier write of its stream is lost with is recorded
(0x95). -/
def State.losePosted (s : State) (me dst : Nat) (lost : List Posted) (q : Posted) : State :=
  let s := if q.release && q.counts && q.follows lost then
      s.record me { s.coreRec q.core 0x95 6 with kind := 3, addr := BitVec.ofNat 64 q.pa, peer := dst }
    else s
  s.failPosted q

/-- Of the waiters of a switch's contexts the cores of a package look again (R219): their requests have failed. -/
def State.wakeWaiters (s : State) (me sw : Nat) : State :=
  let mine := ((s.switch sw).ctxs.flatMap fun c => c.2.waiters).filter fun ck => ckNode ck == me
  mine.foldl (fun s ck =>
    let w := s.switch sw
    (s.putSwitch sw { w with ctxs := w.ctxs.mapVals fun c => { c with waiters := c.waiters.del ck } }).wake (.ring ck 2)) s

/-- The data reads of a core's rlds that go to a node return error marks with a cause. -/
def Core.failRlds (c : Core) (dst cause : Nat) : Core :=
  let cut (x : LqSlot) : LqSlot :=
    match x with
    | .pending pa va _ _ _ => if pa.toNat / 2 ^ 48 = dst then .sent (.mark va cause) else x
    | x => x
  { c with lq := c.lq.map fun l => { l with slots := l.slots.mapVals cut } }

/-- Where the data reads of a core's rlds that go to a node read. -/
def Core.rldsTo (c : Core) (dst : Nat) : List Nat :=
  (c.lq.toList.flatMap fun l => l.slots).filterMap fun x => match x.2 with
    | .pending pa _ _ _ _ => if pa.toNat / 2 ^ 48 = dst then some pa.toNat else none
    | _ => none

/-- Error marks for those of every core of a package. -/
def State.failRlds (s : State) (me dst cause : Nat) : State :=
  { s with cores := s.cores.map fun (e : Nat × Core) => if ckNode e.1 ≠ me then e else (e.1, e.2.failRlds dst cause) }

/-- A node that a package no longer reaches (R282, R289): every request outstanding to it fails with a cause; releases of cores that
waited for its acknowledgements are recorded (0x96). -/
def State.failOutstanding (s : State) (me dst cause : Nat) : State :=
  let gone := Tab.getD (s.pkg me).outstanding dst []
  let s := s.putPkg me { s.pkg me with outstanding := (s.pkg me).outstanding.del dst }
  let s := { s with agenda := s.agenda.filter fun h => match h with
    | .event (.fabricRequestReceive a b _) => !(a == me && b == dst)
    | _ => true }
  let s := gone.foldl (fun s q => s.losePosted me dst gone q) s
  let s := s.failRlds me dst cause
  let s := (gone.map (·.core)).eraseDups.foldl (fun s ck =>
    let c := s.core ck
    match c.relWait with
    | some a => (s.putCore ck { c with relWait := none }).record me { s.coreRec ck 0x96 6 with kind := 1, addr := a, peer := dst }
    | none => s) s
  let s := (s.tagQ.filter fun t => !t.gone && ckNode t.core == me && 8 * t.word / 2 ^ 48 == dst).foldl (fun s t => s.answerTagged t.core (.refused 0x60)) s
  if 0xA0 ≤ dst then s.wakeWaiters me (dst - 0xA0) else s

/-- Declares a node dead (R282): the requests outstanding to it fail, with one record. -/
def State.declareDead (s : State) (me dst pa : Nat) : State :=
  let p := s.pkg me
  let s := s.putPkg me { p with dead := p.dead.add dst }
  let s := s.record me { cause := 0xA7, sev := sevOf 0xA7, unit := 6, kind := 3, addr := BitVec.ofNat 64 pa, peer := dst }
  s.failOutstanding me dst 0xA7

/-- Numbers a request to a destination (R281). -/
def State.nextSeq (s : State) (me dst : Nat) : Nat × State :=
  let p := s.pkg me
  let q := Tab.getD p.seqTo dst 0
  (q, s.putPkg me { p with seqTo := p.seqTo.put dst ((q + 1) % 2 ^ 32) })

/-- Index of the next counted write of a stream (R283); unit 0 the access core, 1 to 3 its rings. -/
def State.nextIndex (s : State) (ck unit dst : Nat) : Nat × State :=
  let p := s.pkg (ckNode ck)
  let k := (ck * 4 + unit) * 256 + dst
  let n := Tab.getD p.streams k 0
  (n, s.putPkg (ckNode ck) { p with streams := p.streams.put k ((n + 1) % 2 ^ 32) })

/-- A reply-cache entry of a home for a source, with the reply sent now (R281, R284); a home is a package's Border or a switch. -/
def State.cacheReply (s : State) (home src seq : Nat) (v : W64) : State :=
  let k := src * 4096 + seq % 4096
  let r : Reply := { seq := seq, reply := v, sent := s.clock }
  if 0xA0 ≤ home then
    let w := s.switch (home - 0xA0)
    s.putSwitch (home - 0xA0) { w with replies := w.replies.put k r }
  else
    let p := s.pkg home
    s.putPkg home { p with replies := p.replies.put k r }

/-- The reply to a performed request of a core is cached at its home, where that is another node (R281). -/
def State.cacheOwn (s : State) (ck pa seq : Nat) (v : W64) : State :=
  if pa / 2 ^ 48 = ckNode ck || 2 ^ 56 ≤ pa then s else s.cacheReply (pa / 2 ^ 48) (ckNode ck) seq v

def State.cachedReply (s : State) (home src seq : Nat) : Option Reply :=
  let k := src * 4096 + seq % 4096
  if 0xA0 ≤ home then (s.switch (home - 0xA0)).replies.get? k else (s.pkg home).replies.get? k

/-- Requests of a package that are outstanding to a node (R281): stores on their way, tagged requests, and the data reads of rlds. -/
def State.inFlight (s : State) (me dst : Nat) : Nat :=
  (Tab.getD (s.pkg me).outstanding dst []).length + (s.tagQ.filter fun t => !t.gone && ckNode t.core == me && 8 * t.word / 2 ^ 48 == dst).length +
    ((s.cores.filter fun e => ckNode e.1 == me).flatMap fun e => e.2.lq.toList.flatMap fun l => l.slots.filter fun x => match x.2 with
      | .pending pa _ _ _ _ => pa.toNat / 2 ^ 48 == dst
      | _ => false).length

/-- 4,096 requests of a package are outstanding to the node of an address (R281). -/
def State.portFullOf (s : State) (me pa : Nat) : Bool := pa / 2 ^ 48 != me && pa < 2 ^ 56 && 4096 ≤ s.inFlight me (pa / 2 ^ 48)

/-- The same for the acting core's package. -/
def State.portFull (s : State) (pa : Nat) : Bool := s.portFullOf (ckNode s.cur) pa

/-- Sends one request of a core to the node of an address and waits for its answer; nothing happens for an address of
the core's own package. Answers whether it was performed, with which home cause it failed, if it did, and its sequence number. -/
def State.fabric (s : State) (ck pa : Nat) : Bool × Option Nat × Nat × State :=
  let me := ckNode ck
  let dst := pa / 2 ^ 48
  if dst = me || 2 ^ 56 ≤ pa then (true, none, 0, s)
  else
    let (seq, s) := s.nextSeq me dst
    let at_ (c : Nat) : Rec := { s.coreRec ck c 6 with kind := 3, addr := BitVec.ofNat 64 pa, peer := dst }
    if s.portBarred ck then (false, some 0xA7, seq, s.record me (at_ 0xA7))
    else match s.sendTries me dst 4 false with
      | (r, s) =>
        if r.answered then (r.performed, none, seq, s)
        else if r.dropped then (r.performed, some 0xA0, seq, s.record me (at_ 0xA0))
        else (r.performed, some 0xA7, seq, s.declareDead me dst pa)

end Sys2Proof.Machine
end

