-- ==== Sys2Proof/Machine/Translate.lean ====
section
/-!
DEFINITION. Homes of physical addresses: who may reach them (R59, R142, R280, R304); and two-stage translation (R58 to
R70) with the switch window (R60, R78).
-/
namespace Sys2Proof.Machine

/-! ### What a home refuses -/

/-- The key of the owner of an HBM channel (R76, R340): the slice's slot, or slot 36; none for an empty slot. -/
def State.lineKey (s : State) (pa : Nat) : Option Key :=
  match region pa with
  | .hbm n c =>
    let slot := match s.ownerOfChan n c with
      | some sk => skNum sk
      | none => 36
    (s.pkg n).keys.get? slot
  | _ => none

/-- A word of a fabric grant entry (Table 17.1). -/
def State.grantWord (s : State) (node e w : Nat) : W64 := s.word (ctl node 0x100000 + 32 * e + 8 * w)

/-- A valid grant entry of the target for a source and function that covers the bytes. -/
def State.grantCovers (s : State) (node src func off len e : Nat) : Bool :=
  let w0 := s.grantWord node e 0
  let base := (s.grantWord node e 1).fld 0 48
  let glen := (s.grantWord node e 2).toNat
  w0.fld 63 1 == 1 && w0.fld 48 8 == src && w0.fld 40 6 == func && base ≤ off && off + len ≤ base + glen

/-- Kinds of access at a home: 0 read, 1 write, 2 atomic or tagged (R280). -/
def State.grantAllows (s : State) (node e acc : Nat) : Bool :=
  let w0 := s.grantWord node e 0
  (acc == 1 || w0.fld 0 1 == 1) && (acc == 0 || w0.fld 1 1 == 1)

/-- Who asks: the core (or a walker, the Weaver and so on in its place), whether as the firmware complex, and for which
function. -/
structure Party where
  ck : Nat
  fw : Bool
  func : Nat
  deriving DecidableEq, Repr

/-- A core as the party of its accesses; a worker that runs a resident fault handler acts for its slice (R75). -/
def State.party (s : State) (ck : Nat) : Party :=
  match (s.core ck).slice with
  | some sk => { ck := ck, fw := false, func := s.sliceFunc sk }
  | none => { ck := ck, fw := isFirmware ck, func := 0 }

/-- What the Border of another package answers to a request, if it refuses (R280, R282, R285). -/
def State.borderRefuses (s : State) (p : Party) (node pa len acc : Nat) : Option Nat :=
  let me := ckNode p.ck
  if !(node ∈ s.nodes) || (s.pkg me).dead.has node then some 0xA0
  else if (s.pkg me).quiet || !(s.pkg me).unacked.isEmpty || (s.pkg node).unacked.has me then some 0xA4
  else if p.fw then none
  else
    let off := pa % 2 ^ 48
    if controlBase ≤ off then some 0xA3
    else
      match (List.range 1024).filter (s.grantCovers node me p.func off len) with
      | [] => some 0xA1
      | es => if es.any (s.grantAllows node · acc) then none else some 0xA2

/-- The home cause with which an access is refused, if it is (R304): reserved addresses, the ring region, the control
region, other nodes, encrypted lines without a key. The bytes lie in one line. -/
def State.homeRefuses (s : State) (p : Party) (pa len acc : Nat) (enc : Bool) : Option Nat :=
  let me := ckNode p.ck
  let keyless := enc && (s.lineKey pa).isNone
  match region pa with
  | .reserved =>
    if isFirmware p.ck && padBase p.ck ≤ pa && pa + len ≤ padBase p.ck + ringRegion then none
    else if isFirmware p.ck && padBase p.ck ≤ pa && pa < padBase p.ck + padSize then some 0x64
    else some 0x65
  | .hbm n _ =>
    if n = me then if keyless then some 0x69 else none
    else match s.borderRefuses p n pa len acc with
      | some c => some c
      | none => if keyless then some 0x69 else none
  | .pad ck off =>
    match (if ckNode ck = me then none else s.borderRefuses p (ckNode ck) pa len acc) with
    | some c => some c
    | none => if ringRegion < off + len then some 0x64 else none
  | .control n _ => if n = me then if p.fw then none else some 0x68 else s.borderRefuses p n pa len acc
  | .switch w _ =>
    if (s.pkg me).failedSw.has w then some 0xB9
    else if !((0xA0 + w) ∈ s.nodes) || (s.pkg me).dead.has (0xA0 + w) then some 0xA0
    else if (s.pkg me).quiet || !(s.pkg me).unacked.isEmpty then some 0xA4
    else none

/-- The package whose reliability engine writes the record of a refusal (R304): the home's, or the requester's where no
home was reached. A package that rejoins refuses its own requests, and its homes those of nodes that have not acknowledged (R285). -/
def State.refuserNode (s : State) (me pa cause : Nat) : Nat :=
  if cause = 0xA4 then
    let p := s.pkg me
    if p.quiet || !p.unacked.isEmpty then me else homeNode pa
  else if cause ∈ [0xA0, 0xB9, 0xBB, 0x65, 0xA7] then me
  else match region pa with
    | .hbm n _ => n
    | .pad ck _ => ckNode ck
    | .control n _ => n
    | _ => me

/-- The unit that refuses or corrects at a physical address, and its die (Table 20.4). -/
def homeUnit (pa : Nat) : Nat × Nat :=
  match region pa with
  | .hbm _ c => (8, chanDie c)
  | .pad ck _ => (7, dieOf (ckCore ck))
  | .switch _ _ => (10, 0)
  | .control _ _ => (12, 0)
  | .reserved => (6, 0)

/-- Records a refusal; the logged address is the physical address of the first byte refused. A home's record of a request from
another package names that package. -/
def State.refuse (s : State) (p : Party) (pa cause : Nat) : State :=
  let me := ckNode p.ck
  let node := s.refuserNode me pa cause
  let r := s.coreRec p.ck cause 15
  let atBorder : Bool := cause ∈ [0xA0, 0xA1, 0xA2, 0xA3, 0xA4, 0xA7, 0xB9]
  let unit := if atBorder then 6 else if cause = 0x29 then 7 else (homeUnit pa).1
  let die := if atBorder && node == me then r.die else (homeUnit pa).2
  let r := if node = me then r else { r with func := p.func, slice := 63, core := 0xFF }
  s.record node { r with unit := unit, die := die, kind := 3, addr := BitVec.ofNat 64 pa, peer := if node = me then pa / 2 ^ 48 else me }

/-- A refusal with a cause is made at the requester's own package: nothing is sent (R285, R289, R304). -/
def State.refusedHere (s : State) (me cause : Nat) : Bool :=
  if cause = 0xA4 then (s.pkg me).quiet || !(s.pkg me).unacked.isEmpty else cause ∈ [0xA0, 0xB9, 0xBB, 0x65, 0xA7]

/-- The refusal of a request. Where its home makes it, the request is first sent there, and may fail on the way instead (R282): the cause
that it has then. -/
def State.refuseSent (s : State) (p : Party) (pa cause : Nat) : Nat × State :=
  if s.refusedHere (ckNode p.ck) cause then (cause, s.refuse p pa cause)
  else match s.fabric p.ck pa with
    | (_, some c, _, s) => (c, s)
    | (_, none, _, s) => (cause, s.refuse p pa cause)

/-- Records an access to a lost allocation, with the requester's address (R80, R304). -/
def State.refuseLost (s : State) (p : Party) (va sw : Nat) : State :=
  s.record (ckNode p.ck) { s.coreRec p.ck 0xBB 6 with kind := 1, addr := BitVec.ofNat 64 va, peer := 0xA0 + sw }

/-! ### Descriptors (Table 5.3) -/

def dV (d : W64) : Bool := d.fld 0 1 == 1
def dT (d : W64) : Bool := d.fld 1 1 == 1
def dRD (d : W64) : Bool := d.fld 2 1 == 1
def dWR (d : W64) : Bool := d.fld 3 1 == 1
def dEX (d : W64) : Bool := d.fld 4 1 == 1
def dSET (d : W64) : Bool := d.fld 49 1 == 1
def dCHK (d : W64) : Bool := d.fld 48 1 == 1
def dFMT (d : W64) : Nat := d.fld 59 5
def dENC (d : W64) : Bool := d.fld 58 1 == 1
def dD (d : W64) : Bool := d.fld 57 1 == 1
/-- ADDR << 8 of a descriptor of a stage. -/
def dADDR (stage : Nat) (d : W64) : Nat := d.fld 8 (if stage = 1 then 40 else 48) * 256

/-- Page size of a leaf by level (Table 5.2), and the index of an address at a level. -/
def levelSize (lv : Nat) : Nat := if lv = 1 then 2 ^ 30 else if lv = 2 then 2 ^ 21 else 2 ^ 16
def levelIndex (lv x : Nat) : Nat := if lv = 3 then bits x 16 5 else bits x (39 - 9 * lv) 9

/-- R62: what makes a descriptor bad at a level. -/
def badDesc (stage lv : Nat) (d : W64) : Bool :=
  if dT d then
    lv == 3 || d.fld 2 6 != 0 || (if stage = 1 then d.fld 48 8 != 0 else d.fld 56 8 != 0) ||
      (lv ≤ 1 && dADDR stage d % 4096 != 0)
  else
    lv == 0 || d.fld 5 3 != 0 || (if stage = 1 then d.fld 50 6 != 0 else d.fld 56 1 != 0) ||
      dADDR stage d % levelSize lv != 0

/-- FMT codes that Table 5.4 reserves. -/
def reservedFmt (f : Nat) : Bool := !(f ≤ 0x06 || blockCode f || (0x10 ≤ f && f ≤ 0x15))

/-! ### Walks -/

/-- A translation fault before it is recorded: stage, cause, level, intermediate address, descriptor. -/
structure XFault where
  stage : Nat
  cause : Nat
  level : Nat
  ipa : Nat := 0
  desc : W64 := 0
  deriving DecidableEq, Repr

/-- Outcome of a walk or a translation. -/
inductive XRes (α : Type) where
  | ok (v : α) (s : State)
  | fault (f : XFault) (s : State)
  /-- an error response made on the way: home cause and physical address (R78, R304) -/
  | refused (home pa : Nat) (s : State)

/-- A leaf found by a walk: the descriptor, its page size and where it stands. -/
structure Leaf where
  d : W64
  size : Nat
  at_ : Nat
  deriving DecidableEq, Repr

/-- The die whose walker serves a core; the firmware complex and the device's own accesses use that of die 0. -/
def walkDie (ck : Nat) : Nat := if isFirmware ck then 0 else dieOf (ckCore ck)

/-- A die's walk cache with a descriptor put in: 4,096 entries, newest first (R69). -/
def Package.cacheDesc (p : Package) (die a : Nat) (d : W64) : Package :=
  { p with walkCache := p.walkCache.put die (((a, d) :: (Tab.getD p.walkCache die []).filter (·.1 ≠ a)).take 4096) }

/-- What an uncorrectable error on the way does (R305, R290): another core's scratchpad, another die or package, or a switch
refuses; otherwise the consumer meets it. -/
def poisonHome (ck pa : Nat) : Option Nat :=
  match region pa with
  | .switch _ _ => some 0xBC
  | .pad o _ => if o = ck then none else some 0x63
  | .hbm n c => if n = ckNode ck && (isFirmware ck || chanDie c = dieOf (ckCore ck)) then none else some 0x63
  | _ => none

/-- What the read of a descriptor gives. -/
inductive DescRead where
  | word (d : W64)
  /-- an error response, or an uncorrectable error, which the home answers with one (log entry 83) -/
  | failed
  /-- not made yet: 4,096 requests are outstanding to its node (R281) -/
  | full
  deriving DecidableEq, Repr

/-- No fault: the walk waits for room among the requests to a descriptor's node (R281), and its unit tries again. -/
def XFault.wait : XFault := { stage := 0, cause := 0, level := 0 }

/-- Reads a descriptor at its home for a party: over the fabric, if that is another node (R279). A valid descriptor is cached. wait says
that the read waits for room there; those of the device's own accesses do not (log entry 102). -/
def State.descAtHome (s : State) (wait : Bool) (p : Party) (node die a : Nat) (key : Option Key) : DescRead × State :=
  if wait && s.portFullOf (ckNode p.ck) a then (.full, s)
  else
    let (_, failed, _, s) := s.fabric p.ck a
    if failed.isSome then (.failed, s)
    else match s.poisonAt a 8 with
      | some b => (.failed, s.refuse p b ((poisonHome p.ck b).getD 0x63))
      | none =>
        let cur := bytesWord (s.keyBytes key a 8)
        (.word cur, if dV cur then s.putPkg node ((s.pkg node).cacheDesc die a cur) else s)

/-- Reads a descriptor through a die's walk cache (R69): an entry that differs from memory may be used or not. -/
def State.readDesc (s : State) (wait : Bool) (p : Party) (node die a : Nat) (key : Option Key) : DescRead × State :=
  match (Tab.getD (s.pkg node).walkCache die []).find? (·.1 == a) with
  | some old =>
    if old.2 = bytesWord (s.keyBytes key a 8) then (.word old.2, s)
    else
      let (stale, s) := s.pickBool
      if stale then (.word old.2, s) else s.descAtHome wait p node die a key
  | none => s.descAtHome wait p node die a key

/-- The stage-2 walk of one level after another (R63). -/
def State.walk2 (s : State) (wait : Bool) (node die x : Nat) : List Nat → Nat → XRes Leaf
  | [], _ => .fault { stage := 2, cause := 0x54, level := 3, ipa := x } s
  | lv :: rest, t =>
    let a := normPa node (t + 8 * levelIndex lv x)
    let p : Party := { ck := node * 256 + 144, fw := true, func := 0 }
    match s.homeRefuses p a 8 0 false with
    | some c => .fault { stage := 2, cause := 0x5C, level := lv, ipa := x } (s.refuseSent p a c).2
    | none =>
      match s.readDesc wait p node die a none with
      | (.full, s) => .fault .wait s
      | (.failed, s) => .fault { stage := 2, cause := 0x5C, level := lv, ipa := x } s
      | (.word d, s) =>
      if !dV d then .fault { stage := 2, cause := 0x50 + lv, level := lv, ipa := x, desc := d } s
      else if badDesc 2 lv d then .fault { stage := 2, cause := 0x54, level := lv, ipa := x, desc := d } s
      else if dT d then s.walk2 wait node die x rest (dADDR 2 d)
      else .ok { d := d, size := levelSize lv, at_ := a } s

/-- R65: a stage-2 page that names this package lies in the slice's channels or in its cores' scratchpads. -/
def State.outsideSlice (s : State) (sk pa size : Nat) : Bool :=
  let node := skNode sk
  let base := normPa node (pa - pa % size)
  if base / 2 ^ 48 != node then false
  else match region base with
    | .hbm _ c => !bit (s.sliceChans sk) c
    | .pad ck off => !(bit (s.sliceQuads sk) (ckCore ck / 4) && off + size ≤ padSize)
    | _ => true

/-- A stage-1 descriptor's own translation (R64): kind read, the outside-slice check, no FMT, no D; the physical address, and ENC
of the leaf found. -/
def State.walkOf1 (s : State) (wait : Bool) (sk die ipa : Nat) : XRes (Nat × Bool) :=
  match s.walk2 wait (skNode sk) die ipa [0, 1, 2, 3] (s.s2root sk) with
  | .ok l s =>
    if !dRD l.d then .fault { stage := 2, cause := 0x55, level := 0xF, ipa := ipa, desc := l.d } s
    else
      let pa := normPa (skNode sk) (dADDR 2 l.d + ipa % l.size)
      if s.outsideSlice sk pa l.size then .fault { stage := 2, cause := 0x58, level := 0xF, ipa := ipa, desc := l.d } s
      else .ok (pa, dENC l.d) s
  | .fault f s => .fault f s
  | .refused h a s => .refused h a s

/-- The stage-1 walk (R63, R64). -/
def State.walk1 (s : State) (wait : Bool) (p : Party) (sk x : Nat) : List Nat → Nat → XRes Leaf
  | [], _ => .fault { stage := 1, cause := 0x45, level := 3 } s
  | lv :: rest, t =>
    let ipa := t + 8 * levelIndex lv x
    match s.walkOf1 wait sk (walkDie p.ck) ipa with
    | .fault f s => .fault f s
    | .refused h a s => .refused h a s
    | .ok (a, enc) s =>
      match s.homeRefuses p a 8 0 enc with
      | some c => .fault { stage := 1, cause := 0x4C, level := lv } (s.refuseSent p a c).2
      | none =>
        match s.readDesc wait p (skNode sk) (walkDie p.ck) a (if enc then s.lineKey a else none) with
        | (.full, s) => .fault .wait s
        | (.failed, s) => .fault { stage := 1, cause := 0x4C, level := lv } s
        | (.word d, s) =>
        if !dV d then .fault { stage := 1, cause := 0x41 + lv, level := lv, desc := d } s
        else if badDesc 1 lv d then .fault { stage := 1, cause := 0x45, level := lv, desc := d } s
        else if dT d then s.walk1 wait p sk x rest (dADDR 1 d)
        else .ok { d := d, size := levelSize lv, at_ := a } s

/-! ### Translation -/

/-- Kinds of access (R63). -/
inductive Kind where
  | read
  | write
  | atomic
  | fetch
  | set
  deriving DecidableEq, Repr

/-- KIND of a fault record (Table 5.7). -/
def Kind.code : Kind → Nat
  | .read => 0
  | .write => 1
  | .set => 1
  | .atomic => 2
  | .fetch => 3

def Kind.writes : Kind → Bool
  | .write => true
  | .atomic => true
  | .set => true
  | _ => false

/-- What a translation gives: the physical address, the bytes up to the end of the effective page, its attributes, and
for a mirrored allocation the copy on the second switch. -/
structure Page where
  pa : Nat
  left : Nat
  chk : Bool := false
  set : Bool := false
  fmt : Nat := 0
  enc : Bool := false
  alt : Option Nat := none
  /-- of a mirrored allocation, live or degraded (R266) -/
  mirror : Bool := false
  /-- the intermediate address and the stage-2 leaf, for a page-format fault (R74) -/
  ipa : Nat := 0
  d2 : W64 := 0
  deriving DecidableEq, Repr

/-- The check of R63 for a kind against a leaf; stage gives the causes. -/
def permFault (stage : Nat) (d : W64) (k : Kind) : Option Nat :=
  let b := if stage = 1 then 0x46 else 0x55
  match k with
  | .read => if dRD d then none else some b
  | .write => if dWR d then none else some (b + 1)
  | .set => if dWR d then none else some (b + 1)
  | .atomic => if !dRD d then some b else if dWR d then none else some (b + 1)
  | .fetch => if dEX d then none else some (b + 2)

/-- The checks of translate after both walks, in the order of R63. -/
def State.leafCheck (s : State) (sk : Nat) (e : TlbEntry) (va pa : Nat) (k : Kind) : Option XFault :=
  let f1 (c : Nat) : Option XFault := some { stage := 1, cause := c, level := 0xF, desc := e.d1 }
  let f2 (c : Nat) : Option XFault := some { stage := 2, cause := c, level := 0xF, ipa := e.ipa + (va - e.base), desc := e.d2 }
  if reservedFmt (dFMT e.d2) then f2 0x59
  else match permFault 1 e.d1 k with
    | some c => f1 c
    | none => match permFault 2 e.d2 k with
      | some c => f2 c
      | none =>
        if k = .write && dSET e.d1 then f1 0x49
        else if k = .set && !dSET e.d1 then f1 0x4A
        else if s.outsideSlice sk pa (min e.z1 e.z2) then f2 0x58
        else none

/-- The physical address that a pair of leaves gives an input address. -/
def leafPa (node : Nat) (e : TlbEntry) (va : Nat) : Nat :=
  let ipa := dADDR 1 e.d1 + va % e.z1
  normPa node (dADDR 2 e.d2 + ipa % e.z2)

/-- Both walks of an input address, uncached. The addresses of a stage-1 table count from S1ROOT as it was written, whatever its low bits
(log entry 70). -/
def State.walkBoth (s : State) (p : Party) (sk va : Nat) : XRes TlbEntry :=
  match s.walk1 true p sk va [0, 1, 2, 3] (s.slice sk).s1root.toNat with
  | .fault f s => .fault f s
  | .refused h a s => .refused h a s
  | .ok l1 s =>
    let ipa := dADDR 1 l1.d + va % l1.size
    match s.walk2 true (skNode sk) (walkDie p.ck) ipa [0, 1, 2, 3] (s.s2root sk) with
    | .fault f s => .fault f s
    | .refused h a s => .refused h a s
    | .ok l2 s =>
      let z := min l1.size l2.size
      .ok { base := va - va % z, size := z, d1 := l1.d, z1 := l1.size, d2 := l2.d, z2 := l2.size, at2 := l2.at_, ipa := ipa - va % z } s

/-- Sets D in a stage-2 leaf by compare-exchange on its word (R68). -/
def State.setDirty (s : State) (node die a : Nat) (d : W64) : State :=
  let d' := d ||| (BitVec.ofNat 64 (2 ^ 57))
  let s := s.setWord a d'
  s.putPkg node ((s.pkg node).cacheDesc die a d')

/-- The compare-exchange that is to set D would fail: the leaf that a walk cache gave differs from memory. The walk is made again
without the cache (R68). -/
def State.leafChanged (s : State) (at2 : Nat) (d2 : W64) : Bool := !dD d2 && s.word at2 != d2
def State.emptyWalks (s : State) (node die : Nat) : State :=
  let p := s.pkg node
  s.putPkg node { p with walkCache := p.walkCache.put die [] }

/-- The allocation entry of a function that covers an address of the switch window, by its word address (R77, R78). -/
def State.satAt (s : State) (node func va : Nat) : Option Nat :=
  ((List.range 256).map fun e => ctl node (0x400000 + 0x4000 * func) + 32 * e).find? fun a =>
    let w0 := s.word a
    w0.fld 62 2 != 0 && w0.fld 0 48 ≤ va && va < w0.fld 0 48 + (s.word (a + 8)).toNat

/-- That of a slice's function. -/
def State.swEntry (s : State) (sk va : Nat) : Option Nat := s.satAt (skNode sk) (s.sliceFunc sk) va

/-- SWA of the lost allocation in which an input address of a function's access lies (R80). -/
def State.lostAt (s : State) (node func va : Nat) : Option Nat :=
  if va < 0xF00000000000 || 2 ^ 48 ≤ va then none
  else match s.satAt node func va with
    | some a => if (s.word a).fld 62 2 = 3 then some ((s.word (a + 16)).fld 37 5) else none
    | none => none

def swPa (sw off : Nat) : Nat := (0xA0 + sw) * 2 ^ 48 + off

/-- Degraded entry e of a function's table has lost SWA, and SWB survives (R80). -/
def State.firstGone (s : State) (node func e : Nat) : Bool := (s.pkg node).firstLost.has (func * 256 + e)

/-- R78. The record of a rights fault has LEVEL 0xF and word 0 of the allocation entry as DESC (log entry 90). -/
def State.swWalk (s : State) (p : Party) (sk va : Nat) (k : Kind) : XRes Page :=
  match s.swEntry sk va with
  | none => .fault { stage := 1, cause := 0x4B, level := 0xF } s
  | some a =>
    let w0 := s.word a
    let len := (s.word (a + 8)).toNat
    let w2 := s.word (a + 16)
    let offb := (s.word (a + 24)).fld 0 37
    let rd := w0.fld 59 1 == 1
    let wr := w0.fld 58 1 == 1
    let deny (c : Nat) : XRes Page := .fault { stage := 1, cause := c, level := 0xF, desc := w0 } s
    if k = .fetch then deny 0x48
    else if k = .set then deny 0x4A
    else if (k = .read || k = .atomic) && !rd then deny 0x46
    else if k.writes && !wr then deny 0x47
    else if w0.fld 62 2 = 3 then .refused 0xBB va (s.refuseLost p va (w2.fld 37 5))
    else
      let off := va - w0.fld 0 48
      let left := len - off
      let swa := w2.fld 37 5
      let swb := w2.fld 42 5
      let offa := w2.fld 0 37
      match w0.fld 60 2 with
      | 0 => .ok { pa := swPa swa (offa + off), left := left } s
      | 1 =>
        let u := off / 4096
        .ok { pa := swPa (u % 18) (offa + u / 18 * 4096 + off % 4096), left := min left (4096 - off % 4096) } s
      | _ =>
        if w0.fld 62 2 = 2 then
          if s.firstGone (skNode sk) (s.sliceFunc sk) (a % 0x2000 / 32) then .ok { pa := swPa swb (offb + off), left := left, mirror := true } s
          else .ok { pa := swPa swa (offa + off), left := left, mirror := true } s
        else .ok { pa := swPa swa (offa + off), left := left, alt := some (swPa swb (offb + off)), mirror := true } s

def TlbEntry.covers (e : TlbEntry) (va : Nat) : Bool := e.base ≤ va && va < e.base + e.size

/-- A cached translation of the core that covers an address. -/
def Core.tlbFind (c : Core) (va : Nat) : Option TlbEntry := c.tlb.find? (·.covers va)

/-- Input addresses of accesses of a core that are not performed yet: stores on their way, tagged requests, and remote loads. -/
def State.unperformed (s : State) (ck : Nat) : List Nat :=
  ((s.pkg (ckNode ck)).outstanding.flatMap fun e => (e.2.filter (·.core == ck)).map (·.va.toNat)) ++
    (s.tagQ.filter (·.of ck)).map (·.va) ++
    (List.finRange 4).flatMap fun q => (s.core ck).lq[q].slots.filterMap fun x => match x.2 with
      | .pending _ va _ _ _ => some va.toNat
      | _ => none

/-- Keeps at most 64 entries, the latest used (R69, log entry 85). What goes while accesses through it are not performed yet is kept
for tinv (R140). -/
def Core.tlbAdd (c : Core) (e : TlbEntry) (used : List Nat) : Core :=
  let tlb := (e :: c.tlb.filter fun o => !(o.base < e.base + e.size && e.base < o.base + o.size)).take 64
  let inUse (o : TlbEntry) : Bool := used.any o.covers
  { c with tlb := tlb, tlbOld := (c.tlb.filter fun o => inUse o && !(tlb.any (· == o))) ++ c.tlbOld.filter inUse }

/-- Finishes a translation with the leaves found: the checks, D, the cache. -/
def State.xlate (s : State) (ck sk va : Nat) (k : Kind) (e : TlbEntry) : XRes Page :=
  let node := skNode sk
  let pa := leafPa node e va
  match s.leafCheck sk e va pa k with
  | some f => .fault f s
  | none =>
    let dirty := k.writes && !dD e.d2
    let e' := if dirty then { e with d2 := e.d2 ||| (BitVec.ofNat 64 (2 ^ 57)) } else e
    let s := if dirty then s.setDirty node (walkDie ck) e.at2 e.d2 else s
    let s := s.putCore ck ((s.core ck).tlbAdd e' (s.unperformed ck))
    .ok { pa := pa, left := e.size - (va - e.base), chk := dCHK e.d1, set := dSET e.d1, fmt := dFMT e.d2, enc := dENC e.d2
          ipa := e.ipa + (va - e.base), d2 := e'.d2 } s

/-- Finishes a translation with leaves that a walk has just found; a write whose D cannot be set walks again (R68). -/
def State.xlateNew (s : State) (ck sk va : Nat) (k : Kind) (e : TlbEntry) : XRes Page :=
  if k.writes && s.leafChanged e.at2 e.d2 then
    match (s.emptyWalks (skNode sk) (walkDie ck)).walkBoth (s.party ck) sk va with
    | .ok e s => s.xlate ck sk va k e
    | .fault f s => .fault f s
    | .refused h a s => .refused h a s
  else s.xlate ck sk va k e

/-- R63: translates an input address for a unit of a core that acts in a slice. A cached translation that memory no
longer backs is used or not by free choice (R69); a write through a cached entry with D = 0 walks again (R68).
A fault before any walk has LEVEL 0xF (log entry 90). -/
def State.translateIn (s : State) (ck sk : Nat) (va : W64) (k : Kind) : XRes Page :=
  let v := va.toNat
  let p := s.party ck
  if va.fld 48 16 ≠ 0 then .fault { stage := 1, cause := 0x40, level := 0xF } s
  else if 0xF00000000000 ≤ v then s.swWalk p sk v k
  else
    match (s.core ck).tlbFind v with
    | none =>
      match s.walkBoth p sk v with
      | .ok e s => s.xlateNew ck sk v k e
      | .fault f s => .fault f s
      | .refused h a s => .refused h a s
    | some old =>
      match s.walkBoth p sk v with
      | .ok e s1 =>
        if old = e || k.writes && !dD old.d2 then s1.xlateNew ck sk v k e
        else
          let (stale, s2) := s1.pickBool
          if stale then s2.xlate ck sk v k old else s2.xlateNew ck sk v k e
      | .fault f s1 =>
        if k.writes && !dD old.d2 then .fault f s1
        else
          let (stale, s2) := s1.pickBool
          if stale then s2.xlate ck sk v k old else .fault f s2
      | .refused h a s1 => .refused h a s1

/-- Translation of an address of a core: two stages for a thread or a resident fault handler, none for the firmware
complex (R58). -/
def State.translate (s : State) (ck : Nat) (va : W64) (k : Kind) : XRes Page :=
  match (s.core ck).slice with
  | some sk => s.translateIn ck sk va k
  | none => .ok { pa := normPa (ckNode ck) va.toNat, left := 2 ^ 64 - va.toNat } s

end Sys2Proof.Machine
end

