-- ==== Sys2Proof/Machine/Access.lean ====
section
/-!
DEFINITION. One access at its home, after translation: refusals (R304), the fabric (R281, R282), uncorrectable and
correctable errors (R305), race detection (R268 to R271), the bytes themselves, and mirrored switch memory (R288).
-/
namespace Sys2Proof.Machine

/-- Outcome of an access at its home. -/
inductive Acc (α : Type) where
  | ok (v : α) (s : State)
  /-- an error response: home cause and first refused physical address, by the page's own place where the second copy of a mirror
  refused it (R304) -/
  | err (home pa : Nat) (s : State)
  /-- the consumer meets an uncorrectable error (R305) -/
  | poison (pa : Nat) (s : State)
  /-- a race (R270): cause and the line's record -/
  | race (cause : Nat) (rec : W64) (s : State)

/-! ### Race detection -/

/-- The words of its 64-byte line that a range touches, as a mask (Table 15.2). -/
def lineMask (pa len : Nat) : Nat :=
  ((List.range 8).filter fun j => pa % 64 / 8 ≤ j && j ≤ (pa % 64 + len - 1) / 8).foldl (fun m j => m + 2 ^ j) 0

/-- T_a[w] (R268). -/
def Core.sawRelease (c : Core) (self w : Nat) : Nat := if w = self then c.rc else Tab.getD c.view w 0

/-- Whether an access is checked by race detection: a checked page or a scratchpad, from a tenant core of the home's
package (R269, R270). -/
def State.checked (s : State) (ck : Nat) (pg : Page) : Bool :=
  (pg.chk || isPad pg.pa) && !isFirmware ck && (s.core ck).slice.isSome && pg.pa / 2 ^ 48 == ckNode ck

/-- R270: the record that an access races with. -/
def State.raceAt (s : State) (ck : Nat) (pg : Page) (len : Nat) : Option W64 :=
  if s.checked ck pg then
    match s.lines.get? (pg.pa / 64) with
    | none => none
    | some r =>
      let w := r.fld 56 8
      if w ≤ 143 && w != ckCore ck && (r.fld 48 8 &&& lineMask pg.pa len) != 0 && (s.core ck).sawRelease (ckCore ck) w < r.fld 0 40
      then some r else none
  else none

/-- The next fault that the environment has in store for a unit of a core (R305 to R307), taken if it is of this kind. -/
def State.takeUpset (s : State) (ck unit : Nat) : Option Upset × State :=
  let c := s.core ck
  match c.upsets with
  | u :: t => if u.unit = unit then (some u, s.putCore ck { c with upsets := t }) else (none, s)
  | [] => (none, s)

/-- The check of an access (R270): the record it races with. A record with an uncorrectable error reads as no writer (0x7B);
an HBM record may have been evicted from the die cache (R269, 0x75). -/
def State.racing (s : State) (ck : Nat) (pg : Page) (len : Nat) : Option W64 × State :=
  match s.raceAt ck pg len with
  | none => (none, s)
  | some r =>
    let lost := { s with lines := s.lines.del (pg.pa / 64) }
    match s.takeUpset ck 11 with
    | (some _, t) =>
      (none, { t with lines := t.lines.del (pg.pa / 64) }.record (ckNode ck) { s.coreRec ck 0x7B (if isPad pg.pa then 7 else 9) with
        die := (homeUnit pg.pa).2, kind := 3, addr := BitVec.ofNat 64 pg.pa })
    | (none, _) =>
      if isPad pg.pa then (some r, s)
      else
        let (gone, t) := lost.pickBool
        if gone then (none, t.count (ckNode ck) 0x75) else (some r, { s with nondet := t.nondet })

/-- The record that a write leaves (R270), and the loss of the written bytes' release stamps by a plain write. -/
def State.noteWrite (s : State) (ck : Nat) (pg : Page) (len : Nat) : State :=
  let s := if s.stamps.isEmpty then s else { s with stamps := s.stamps.filter fun e => e.1 < pg.pa || pg.pa + len ≤ e.1 }
  if pg.chk || isPad pg.pa then
    let line := pg.pa / 64
    if s.checked ck pg then
      let c := s.core ck
      if c.rc = 2 ^ 40 - 1 then { s with lines := s.lines.del line }
      else { s with lines := s.lines.put line (BitVec.ofNat 64 (ckCore ck * 2 ^ 56 + lineMask pg.pa len * 2 ^ 48 + c.rc + 1)) }
    else
      -- an external or firmware writer is not checked (0x77)
      { s with lines := s.lines.put line (BitVec.ofNat 64 (0xFE * 2 ^ 56 + lineMask pg.pa len * 2 ^ 48)) }.count (homeNode pg.pa) 0x77
  else s

/-- The entry-wise maximum of two tables of release numbers (R271). -/
def mergeView (t v : Tab Nat) : Tab Nat := v.foldl (fun acc e => Tab.put acc e.1 (max (Tab.getD acc e.1 0) e.2)) t

/-- A release at die scope or wider (R268): counts, takes an image; the number it stamps with. At the last number the
core stops counting and 0x72 is recorded. -/
def State.countRelease (s : State) (ck : Nat) : State :=
  let c := s.core ck
  if c.rc = 2 ^ 40 - 1 then s
  else
    let rc := c.rc + 1
    let view := Tab.put c.view (ckCore ck) rc
    let s := s.putCore ck { c with rc := rc, view := view, images := ((rc, view) :: c.images).take 16 }
    if rc = 2 ^ 40 - 1 then s.record (ckNode ck) { s.coreRec ck 0x72 1 with addr := BitVec.ofNat 64 (ckCore ck) } else s

/-- The narrowest scope, seen from a core, that includes another core (R254, Table 15.1). -/
def scopeOfCore (p q : Nat) : Nat :=
  if p = q then 0
  else if ckNode p ≠ ckNode q then 3
  else if !isFirmware p && !isFirmware q && dieOf (ckCore p) = dieOf (ckCore q) then 1
  else 2

/-- Scope of a location seen from a core (Table 15.1). -/
def scopeOfLoc (p pa : Nat) : Nat :=
  match region pa with
  | .pad o _ => scopeOfCore p o
  | .hbm n c => if n ≠ ckNode p then 3 else if !isFirmware p && chanDie c = dieOf (ckCore p) then 1 else 2
  | .control n _ => if n = ckNode p then 2 else 3
  | .switch _ _ => 3
  | .reserved => 0

/-- A pair at scopes sp of p and sq of q on a location is effective (R254). -/
def effective (sp p sq q pa : Nat) : Bool :=
  max (scopeOfCore p q) (scopeOfLoc p pa) ≤ sp && max (scopeOfCore q p) (scopeOfLoc q pa) ≤ sq

/-- The different stamps of a range of bytes. -/
def State.stampsOf (s : State) (pa len : Nat) : List Stamp :=
  if s.stamps.isEmpty then []
  else ((s.stamps.filter fun e => pa ≤ e.1 && e.1 < pa + len).flatMap (·.2)).eraseDups

/-- Adds stamps to those that a range of bytes holds. -/
def State.addStamps (s : State) (pa len : Nat) (l : List Stamp) : State :=
  if l.isEmpty then s
  else { s with stamps := (List.range len).foldl (fun t i => Tab.put t (pa + i) (Tab.getD t (pa + i) [] ++ l)) s.stamps }

/-- The stamp of a core's latest release, at a scope; a core-scope release leaves none (R268). -/
def State.stampOf (s : State) (ck scope : Nat) : List Stamp := if 1 ≤ scope then [{ ck := ck, rc := (s.core ck).rc, scope := scope }] else []

/-- Stamps a location with the core's release (R268). -/
def State.stamp (s : State) (ck scope pa len : Nat) : State := s.addStamps pa len (s.stampOf ck scope)

/-- The release halves that earlier fences of the access core give a write of input addresses [va, va + len) (R255). -/
def Core.fenceStamps (c : Core) (ck va len : Nat) : List Stamp :=
  (c.fences.filter fun f => va < f.hi && f.lo < va + len).map fun f => { ck := ck, rc := f.rc, scope := f.scope }

/-- The current T of every core of the package, combined (R271). -/
def State.packageView (s : State) (node : Nat) : Tab Nat :=
  (s.cores.filter fun e => e.1 / 256 == node && e.1 % 256 < 144).foldl (fun t e => mergeView t e.2.view) []

/-- The view that a stamp gives (R271): the image, the oldest later one where it is gone (0x76), or the current tables where
it has an uncorrectable error (0x7C). -/
def State.viewOf (s : State) (ck r k : Nat) : Tab Nat × State :=
  let node := ckNode ck
  if r / 256 ≠ node || isFirmware r then ([], s)
  else
    match s.takeUpset ck 12 with
    | (some _, t) => (s.packageView node, t.record node { s.coreRec ck 0x7C 1 with addr := BitVec.ofNat 64 (ckCore r) })
    | (none, _) =>
      let imgs := (s.core r).images
      match imgs.find? fun e => e.1 == k with
      | some e => (e.2, s)
      | none =>
        (match (imgs.filter fun e => k < e.1).getLast? with
          | some e => e.2
          | none => (s.core r).view, s.count node 0x76)

def State.mergeInto (s : State) (ck : Nat) (v : Tab Nat) : State :=
  let c := s.core ck
  let m := mergeView c.view v
  s.putCore ck { c with view := Tab.put m (ckCore ck) c.rc }

/-- Merges the view of a release. -/
def State.mergeFrom (s : State) (ck r k : Nat) : State :=
  let (v, s) := s.viewOf ck r k
  s.mergeInto ck v

/-- Merges the view of one stamp that an acquire at a scope reads, if the pair is effective (R254, R255, R271). The stamp of an
HBM location may have been lost from the die cache. -/
def State.acquireStamp (s : State) (ck scope pa : Nat) (t : Stamp) : State :=
  if !effective t.scope t.ck scope ck pa then s
  else match region pa with
    | .hbm _ _ =>
      let (lost, s1) := s.pickBool
      if lost then s1.mergeInto ck (s1.packageView (ckNode ck)) else s1.mergeFrom ck t.ck t.rc
    | _ => s.mergeFrom ck t.ck t.rc

/-- An acquire of a range of bytes: at die scope or wider it merges the views of the releases it synchronises with (R271). -/
def State.acquireAt (s : State) (ck scope pa len : Nat) : State :=
  if 1 ≤ scope then (s.stampsOf pa len).foldl (fun s t => s.acquireStamp ck scope pa t) s else s

/-- The stamps of what the access core has read, for the acquire half of a later fence (R255). -/
def State.noteSeen (s : State) (ck va pa len : Nat) (l : List Stamp) : State :=
  if l.isEmpty then s
  else
    let c := s.core ck
    s.putCore ck { c with seen := (l.map fun t => { va := va, len := len, pa := pa, stamp := t }) ++ c.seen }

/-- The same for a read that its home has performed. -/
def State.noteRead (s : State) (ck va pa len : Nat) : State := s.noteSeen ck va pa len (s.stampsOf pa len)

/-- The acquire half of a fence of the access core, for its earlier reads of input addresses [lo, hi) (R255). -/
def State.fenceAcquire (s : State) (ck scope lo hi : Nat) : State :=
  let c := s.core ck
  let inside (x : SeenStamp) : Bool := x.va < hi && lo < x.va + x.len && effective x.stamp.scope x.stamp.ck scope ck x.pa
  let s := s.putCore ck { c with seen := c.seen.filter (!inside ·) }
  (c.seen.filter inside).foldl (fun s x => s.acquireStamp ck scope x.pa x.stamp) s

/-- The release half of a fence (R255): it counts, and stays in force for the core's later writes in its range. A fence takes the
place of those that it covers. -/
def State.fenceRelease (s : State) (ck scope lo hi : Nat) : State :=
  let s := s.countRelease ck
  let c := s.core ck
  let f : FenceHalf := { scope := scope, rc := c.rc, lo := lo, hi := hi }
  s.putCore ck { c with fences := f :: c.fences.filter fun g => !(g.scope ≤ scope && lo ≤ g.lo && g.hi ≤ hi) }

/-! ### Loads, stores, atomics at a home -/

/-- The refusal of a tagged access or an atomic, with the cause that it fails with. Of one from another package the home writes a record
that says so, too (0x97, 0x98 of Table 17.3). -/
def State.refuseRemote (s : State) (p : Party) (pa cause kind : Nat) : Nat × State :=
  let here := s.refusedHere (ckNode p.ck) cause
  let (c, s) := s.refuseSent p pa cause
  let home := homeNode pa
  if home = ckNode p.ck || 0x90 ≤ home || here || c ≠ cause then (c, s)
  else (c, s.record home { cause := kind, sev := sevOf kind, func := p.func, unit := 6, kind := 3, addr := BitVec.ofNat 64 pa, peer := ckNode p.ck })

/-- An error response of an access that is refused. -/
def Acc.refusal {α : Type} (pa : Nat) (r : Nat × State) : Acc α := .err r.1 pa r.2

/-- Corrects and records the correctable errors of a range (R305), with the bit position as the syndrome. -/
def State.correct (s : State) (ck pa len : Nat) : State :=
  (s.soft.filter fun e => e.1 < pa + len && pa < e.1 + 8).foldl (fun s e =>
    { s with soft := s.soft.del e.1 }.record (homeNode e.1)
      { s.coreRec ck (if isPad e.1 then 0xE3 else 0xE4) (homeUnit e.1).1 with
        die := (homeUnit e.1).2, kind := 3, addr := BitVec.ofNat 64 e.1, syndrome := BitVec.ofNat 64 e.2 }) s

/-- An uncorrectable error of a clean die-cache line of HBM: the line is fetched again (R305, 0xE5), or disabled (0xE9). The record
names the die of the cache. -/
def State.dieCache (s : State) (ck pa : Nat) : State :=
  match region pa with
  | .hbm node c =>
    match s.takeUpset ck 13 with
    | (some u, t) =>
      t.record node { s.coreRec ck (if u.parity then 0xE9 else 0xE5) 9 with die := chanDie c, kind := 3, addr := BitVec.ofNat 64 pa }
    | (none, _) => s
  | _ => s

/-- Reads bytes of one line. -/
def State.loadAt (s : State) (ck : Nat) (pg : Page) (len : Nat) : Acc (List Byte) :=
  let p := s.party ck
  match s.homeRefuses p pg.pa len 0 pg.enc with
  | some c => .refusal pg.pa (s.refuseSent p pg.pa c)
  | none =>
    let (_, failed, _, s) := s.fabric ck pg.pa
    match failed with
    | some c => .err c pg.pa s
    | none =>
      -- a mirror reads an uncorrectable line from its second switch (R290)
      let pa := match pg.alt with
        | some b => if (s.poisonAt pg.pa len).isSome then b else pg.pa
        | none => pg.pa
      match s.poisonAt pa len with
      | some a =>
        match poisonHome ck a with
        | some c => .err c (pg.pa + (a - pa)) (s.refuse p a c)
        | none => .poison (pg.pa + (a - pa)) s
      | none =>
        match s.racing ck pg len with
        | (some r, s) => .race 0x70 r s
        | (none, s) =>
          let s := (s.correct ck pa len).dieCache ck pa
          .ok (s.keyBytes (if pg.enc then s.lineKey pa else none) pa len) s

/-- A mirrored write at SWB (R288): SWA holds the bytes until SWB acknowledges. -/
def State.mirrorWrite (s : State) (sw pa : Nat) (bs : List Byte) (src seq : Nat) : State :=
  let w := s.switch sw
  s.putSwitch sw { w with mirror := w.mirror ++ [(pa, bs, src, seq)] }

/-- A forwarded write is performed at SWB, which keeps its source and sequence number in its own reply cache (R288). -/
def State.mirrorPut (s : State) (m : Nat × List Byte × Nat × Nat) : State :=
  let old := s.word m.1
  (s.poke none m.1 m.2.1).cacheReply (m.1 / 2 ^ 48) m.2.2.1 m.2.2.2 old

/-- The oldest unacknowledged mirrored write of a switch reaches SWB. -/
def State.mirrorDone (s : State) (sw : Nat) : State :=
  let w := s.switch sw
  match w.mirror with
  | [] => s
  | m :: t => (s.putSwitch sw { w with mirror := t }).mirrorPut m

/-- Fields [lo + n − 1 : lo] of a word taken from another. -/
def W64.withField (w v : W64) (lo n : Nat) : W64 :=
  BitVec.ofNat 64 (w.toNat - w.fld lo n * 2 ^ lo + v.fld lo n * 2 ^ lo)

/-- What a store of word w of the binding record of a bound slice leaves (R43, R329): word 7's YLIMIT and EINJEN, and FUNC of
a slice bound with FUNC 0, if the function has no slice on the package. -/
def State.bindStore (s : State) (sk w : Nat) (old new : W64) : W64 :=
  if w = 7 then W64.withField old new 0 25
  else if w = 0 ∧ old.fld 58 6 = 0 ∧ new.fld 58 6 ≤ 36 ∧ (s.sliceOfFunc (skNode sk) (new.fld 58 6)).isNone then W64.withField old new 58 6
  else old

/-- Writable bits of a word of a fabric grant entry (Table 17.1), as a list of fields. -/
def grantFields (w : Nat) : List (Nat × Nat) :=
  if w = 0 then [(63, 1), (48, 8), (40, 6), (0, 2)] else if w = 1 then [(0, 48)] else if w = 2 then [(0, 64)] else []

/-- Writable bits of a word of a function's switch allocation block (R77, Tables 5.8, 5.9 and 18.1): the rest reads as zero. -/
def satFields (o : Nat) : List (Nat × Nat) :=
  if o < 0x2000 then
    if o % 32 = 0 then [(58, 6), (0, 48)] else if o % 32 = 8 then [(0, 64)] else if o % 32 = 16 then [(0, 47)] else [(0, 37)]
  else if o < 0x2020 then [(0, 64)]
  else if 0x2100 ≤ o ∧ o < 0x2220 then [(0, 64)]
  else []

/-- The bits of a word that lie in a list of fields. -/
def keepFields (v : W64) (l : List (Nat × Nat)) : W64 := BitVec.ofNat 64 (l.foldl (fun a f => a + v.fld f.1 f.2 * 2 ^ f.1) 0)

/-- The control word at an offset after a store (R43, R77, R280, R314, R329): other words are plain. -/
def State.controlWord (s : State) (node off : Nat) (old new : W64) : W64 :=
  if 0x10000 ≤ off ∧ off < 0x10000 + 36 * 64 then
    let sk := skOf node ((off - 0x10000) / 64)
    if (s.slice sk).bound then s.bindStore sk (off % 64 / 8) old new else new
  else if 0x200000 ≤ off ∧ off < 0x200800 then
    if assignedCause ((off - 0x200000) / 8) then BitVec.ofNat 64 (new.fld 0 32) else 0
  else if 0x100000 ≤ off ∧ off < 0x108000 then keepFields new (grantFields (off % 32 / 8))
  else if 0x400000 ≤ off ∧ off < 0x400000 + 37 * 0x4000 then keepFields new (satFields ((off - 0x400000) % 0x4000 / 8 * 8))
  else new

/-- After a store to a function's allocation table by firmware (R325): which switch of a degraded mirror survives is what another
package holds of the same allocation, or SWB where SWA has failed. -/
def State.noteMirror (s : State) (node func e : Nat) : State :=
  let at_ (n f i : Nat) : Nat := ctl n (0x400000 + 0x4000 * f) + 32 * i
  let a := at_ node func e
  let w0 := s.word a
  let p := s.pkg node
  let same : Bool := s.pkgs.any fun q => q.2.firstLost.any fun k =>
    s.word (at_ q.1 (k / 256) (k % 256) + 16) == s.word (a + 16) && s.word (at_ q.1 (k / 256) (k % 256) + 24) == s.word (a + 24)
  let first := w0.fld 62 2 == 2 && w0.fld 60 2 == 2 && (same || p.failedSw.has ((s.word (a + 16)).fld 37 5))
  let l := if first then p.firstLost.add (func * 256 + e) else p.firstLost.del (func * 256 + e)
  if l = p.firstLost then s else s.putPkg node { p with firstLost := l }

/-- A function's inbox goes, with the worker cores' hands on it. -/
def Package.dropInbox (p : Package) (func : Nat) : Package :=
  { p with inboxes := p.inboxes.del func, taken := p.taken.filter fun t => t.2.2 / 256 ≠ func }

/-- Puts bytes into a control region. A function that gains a slice starts with an empty inbox (R26). -/
def State.controlPut (s : State) (node off : Nat) (bs : List Byte) : State :=
  let a := ctl node off
  let words := (List.range ((off + bs.length + 7) / 8 - off / 8)).map (off / 8 * 8 + 8 * ·)
  let t := s.poke none a bs
  let func0 (u : State) (o : Nat) : Nat := (u.word (ctl node o)).fld 58 6
  words.foldl (fun t o =>
    let v := s.controlWord node o (s.word (ctl node o)) (t.word (ctl node o))
    let t := t.setWord (ctl node o) v
    if 0x10000 ≤ o ∧ o < 0x10000 + 36 * 64 ∧ (o - 0x10000) % 64 = 0 ∧ func0 t o ≠ func0 s o ∧ (t.slice (skOf node ((o - 0x10000) / 64))).bound then
      t.putPkg node ((t.pkg node).dropInbox (func0 t o))
    else if 0x400000 ≤ o ∧ o < 0x400000 + 37 * 0x4000 ∧ (o - 0x400000) % 0x4000 < 0x2000 then
      t.noteMirror node ((o - 0x400000) / 0x4000) ((o - 0x400000) % 0x4000 / 32)
    else t) t

/-- Puts bytes at a page's home, and at the second copy of a mirror, for the request of a source under a number. -/
def State.put (s : State) (pg : Page) (bs : List Byte) (src seq : Nat) : State :=
  let s := match region pg.pa with
    | .control n off => s.controlPut n off bs
    | _ => s.poke (if pg.enc then s.lineKey pg.pa else none) pg.pa bs
  match pg.alt with
  | none => s
  | some b =>
    let sw := pg.pa / 2 ^ 48 - 0xA0
    (s.mirrorWrite sw b bs src seq).mirrorDone sw

/-- A line with bytes written from an offset on, and the stamps that the write leaves at them. -/
def CacheLine.write (l : CacheLine) (o : Nat) (bs : List Byte) (st : List Stamp) : CacheLine :=
  let kept := l.stamps.filter fun e => e.1 < o || o + bs.length ≤ e.1
  { l with
    bytes := l.bytes.take o ++ bs ++ l.bytes.drop (o + bs.length)
    stamps := if st.isEmpty then kept else (List.range bs.length).foldl (fun t i => Tab.put t (o + i) st) kept }

/-- The different stamps of n bytes of a line from an offset on. -/
def CacheLine.stampsOf (l : CacheLine) (o n : Nat) : List Stamp := ((l.stamps.filter fun e => o ≤ e.1 && e.1 < o + n).flatMap (·.2)).eraseDups

/-- A present data-cache line of the core follows its own store (R127), with the stamps that the store leaves. -/
def Core.cacheStore (c : Core) (pa : Nat) (bs : List Byte) (st : List Stamp := []) : Core :=
  match c.dcache.get? (pa / 64) with
  | none => c
  | some l => { c with dcache := c.dcache.put (pa / 64) (l.write (pa % 64) bs st) }

/-- Writes bytes of one line. -/
def State.storeAt (s : State) (ck : Nat) (pg : Page) (bs : List Byte) : Acc Unit :=
  let p := s.party ck
  match s.homeRefuses p pg.pa bs.length 1 pg.enc with
  | some c => .refusal pg.pa (s.refuseSent p pg.pa c)
  | none =>
    match s.racing ck pg bs.length with
    | (some r, s) => .race 0x71 r s
    | (none, s) =>
      let (done, failed, seq, s) := s.fabric ck pg.pa
      let s := if done then ((s.put pg bs (ckNode ck) seq).noteWrite ck pg bs.length).cacheOwn ck pg.pa seq 0 else s
      match failed with
      | none => .ok () s
      | some c => .err c pg.pa s

/-- A residue check modulo 3 finds that a unit's result differs (R307). -/
def residueDiverges (good bad : Nat) : Bool := good % 3 != bad % 3

/-- The result of a router's atomic unit, with the environment's fault, if it has one in store (R307, 0x29). -/
def State.routerResult (s : State) (ck : Nat) (v : W64) : W64 × State :=
  match s.takeUpset ck 7 with
  | (some u, s) => (v ^^^ u.flip, s)
  | (none, s) => (v, s)

/-- One atomic on an 8-byte word at its home (R244): the old value; f gives the new one. Tags and stamps stay. An uncorrectable
line of a mirror's first switch is read from the second (R290). -/
def State.atomicAt (s : State) (ck : Nat) (pg : Page) (f : W64 → W64) : Acc W64 :=
  let p := s.party ck
  match s.homeRefuses p pg.pa 8 2 pg.enc with
  | some c => .refusal pg.pa (s.refuseRemote p pg.pa c 0x98)
  | none =>
    let src := match pg.alt with
      | some b => if (s.poisonAt pg.pa 8).isSome then b else pg.pa
      | none => pg.pa
    match s.poisonAt src 8 with
    | some a =>
      match poisonHome ck a with
      | some c => .refusal (pg.pa + (a - src)) (s.refuseSent p a c)
      | none => .poison (pg.pa + (a - src)) s
    | none =>
      match s.racing ck pg 8 with
      | (some r, s) => .race 0x71 r s
      | (none, s) =>
        let old := bytesWord (s.keyBytes (if pg.enc then s.lineKey src else none) src 8)
        let (new, s) := s.routerResult ck (f old)
        if residueDiverges (f old).toNat new.toNat then .err 0x29 pg.pa (s.refuse p pg.pa 0x29)
        else
          let (done, failed, seq, s) := s.fabric ck pg.pa
          let s := (s.correct ck src 8).dieCache ck src
          let stamps := s.stamps
          let s := if done then
              ({ ((s.put pg (wordBytes new) (ckNode ck) seq).noteWrite ck pg 8) with stamps := stamps }).cacheOwn ck pg.pa seq old
            else s
          match failed with
          | none => .ok old s
          | some c => .err c pg.pa s

end Sys2Proof.Machine
end

