-- ==== Sys2Proof/Machine/Threads.lean ====
section
/-!
DEFINITION. What ends and resets work, below the access core's own operations: tokens (R147), ring reset (R139), groups
and barriers (R239, R240), fault records (R73, R74, R302), completions (R32), the end of a thread (R330) and of an
invocation by a fault (R303).
-/
namespace Sys2Proof.Machine

/-! ### Rings and tokens -/

/-- Ring numbers: 0 vector, 1 matrix, 2 copy. -/
def Core.ring (c : Core) (r : Nat) : Ring := if r = 0 then c.vring else if r = 1 then c.mring else c.cring
def Core.setRing (c : Core) (r : Nat) (x : Ring) : Core :=
  if r = 0 then { c with vring := x } else if r = 1 then { c with mring := x } else { c with cring := x }

def Core.token (c : Core) (k : Nat) : Token := Tab.getD c.tokens k {}
def Core.setToken (c : Core) (k : Nat) (t : Token) : Core := { c with tokens := Tab.put c.tokens k t }

/-- Adds 1 to VALUE, saturating (R147); the flag says that it was saturated already. -/
def Core.addValue (c : Core) (k : Nat) : Bool × Core :=
  let t := c.token k
  if t.value = BitVec.allOnes 32 then (true, c) else (false, c.setToken k { t with value := t.value + 1 })

/-- Engine entries that claim a token look at it again. -/
def State.wakeClaims (s : State) (ck k : Nat) : State :=
  ((s.core ck).token k).claims.foldl (fun s x => match x with | .entry r _ => s.wake (.ring ck r) | .access => s) s

/-- The unit code of a ring (Table 5.7). -/
def ringUnit (r : Nat) : Nat := r + 2

/-- Takes a discarded entry's pending raise and pending wait out of the token counts (R139 step 4). An entry that a replay executes
again has raised already (R153). -/
def Core.dropEntry (c : Core) (r : Nat) (e : Entry) : Core :=
  let c :=
    if e.raisek ≠ 0 && !e.raised then
      let t := c.token e.raisek.toNat
      c.setToken e.raisek.toNat { t with praise := t.praise - 1 }
    else c
  if e.waitk ≠ 0 && !e.wdone then
    let t := c.token e.waitk.toNat
    c.setToken e.waitk.toNat { t with pwait := t.pwait - 1, claims := t.claims.filter (· ≠ .entry r e.seq) }
  else c

/-- Takes a load-queue place for an entry of a ring: it is kept for a replay while the ring has a retained window (R153, R160). -/
def LoadQueue.take (l : LoadQueue) (keep : Option Nat) (n : Nat) : LoadQueue :=
  match l.slots.get? n with
  | some (.used _ _) => l
  | some x => { l with taken := l.taken + 1, slots := match keep with | some r => l.slots.put n (.used r x) | none => l.slots.del n }
  | none => l

/-- The ring whose replay needs what an entry of ring r takes. -/
def Core.keeper (c : Core) (r : Nat) : Option Nat := if (c.ring r).win.isSome then some r else none

/-- The load-queue places that a discarded entry had claimed are taken (log entry 12). -/
def Core.dropClaims (c : Core) (e : Entry) (q : Fin 4) : Core :=
  match e.lqClaim with
  | none => c
  | some (first, n) => { c with lq := c.lq.set q ((List.range n).foldl (fun l i => l.take none (first + i)) c.lq[q]) }

/-- Places kept for a ring's replay go when its window does. -/
def Core.dropUsed (c : Core) (r : Nat) : Core :=
  { c with lq := c.lq.map fun l => { l with slots := l.slots.filter fun x => match x.2 with | .used q _ => q ≠ r | _ => true } }

/-- Whether an entry's wait can still be met from VALUE and the raises still owed (R139 step 4). -/
def Core.canMeet (c : Core) (r : Nat) (e : Entry) : Bool :=
  let t := c.token e.waitk.toNat
  match t.claims.findIdx? (· == .entry r e.seq) with
  | some i => i < t.value.toNat + t.praise
  | none => true

/-- Marks the entries of a ring whose wait can no longer be met. -/
def Core.markOrphans (c : Core) (r : Nat) : Core :=
  let x := c.ring r
  c.setRing r { x with queue := x.queue.map fun e => if e.waitk ≠ 0 && !e.wdone && !c.canMeet r e then { e with orphan := true } else e }

/-- The tile register that a matrix word writes, if it is a tile load, a move or a transpose (R182). -/
def tileWritten (w : W32) : Option (Fin 8) :=
  let op := w.fld 27 5
  if op ∈ [0x01, 0x02, 0x03, 0x04, 0x16, 0x17] then some (Fin.ofNat 8 (w.fld 24 3)) else none

/-- Tile registers and slots that a matrix word names, as numbers below 8, and from 8. -/
def matrixNames (w : W32) : List Nat :=
  let op := w.fld 27 5
  let a := w.fld 24 3
  let b := w.fld 21 3
  let c := 8 + w.fld 18 3
  if op ∈ [0x01, 0x02, 0x03, 0x04, 0x15] then [a]
  else if op ∈ [0x05, 0x06, 0x07, 0x08] then [a, b, c]
  else if op = 0x0A then [8 + b, c]
  else if op ∈ [0x16, 0x17] then [a, b]
  else if op = 0x18 then []
  else [c]

/-- What stands in the place of a discarded follow-on: mnop, without tokens. -/
def discarded : W32 := 0xC0000000

/-- Discards every entry of a ring and empties its window (R139 steps 2 to 5); follow-ons and arrived parts as log entry 97 says. Every place
of the ring is free at once, those of entries that completed less than 64 before it too: R139 and R145 do not say what a reset frees (log
entry 104). -/
def Core.resetRing (c : Core) (r : Nat) : Core :=
  let x := c.ring r
  let left := x.queue.filter (!·.finished)
  let c := c.dropUsed r
  let c := left.foldl (fun c e => c.dropEntry r e) c
  let c := left.foldl (fun c e => c.dropClaims e (Fin.ofNat 4 e.capa.toNat)) c
  let c := c.setRing r { rp := x.wp, wp := x.wp, diverged := x.diverged }
  match r with
  | 0 => { c with vec := { c.vec with ports := [], copy := none }, pushPorts := [] }
  | 1 =>
    let ts := left.filterMap fun e => tileWritten e.word
    -- a part that waits for a discarded entry waits for good (R193)
    let block (p : Part) : Part :=
      { p with blocked := p.blocked || (x.queue.take (p.after - x.rp)).any fun e => !e.finished && (matrixNames e.word).any (· ∈ matrixNames p.word) }
    { c with mat := { c.mat with
        tiles := ts.foldl (fun (t : Vector Tile 8) (i : Fin 8) => t.set i { t[i] with tr := true }) c.mat.tiles
        pushTr := ts.foldl (fun (t : Vector Bool 8) (i : Fin 8) => t.set i true) c.mat.pushTr
        frozen := none, copy := none, parts := c.mat.parts.map block } }
  | _ =>
    -- a discarded copy takes its held follow-on with it (R144); its place in the ring does nothing
    let held := x.queue.map (·.seq + 1)
    let m := c.mring
    let gone := m.queue.filter fun e => e.held && e.seq ∈ held
    let c := gone.foldl (fun c e => (c.dropEntry 1 e).dropClaims e (Fin.ofNat 4 e.capa.toNat)) c
    { c with mring := { m with queue := m.queue.map fun e => if e.held && e.seq ∈ held then { word := discarded, seq := e.seq } else e } }

/-- Whether slot 0 of a slice's function is resident with HANDLER = 1 (R73). -/
def State.hasHandler (s : State) (sk : Nat) : Bool :=
  let m := Tab.getD (s.slice sk).slots 0 {}
  m.state == .resident && (m.words.headD 0).fld 60 1 == 1

/-- The first worker core of a package that runs nothing. -/
def State.idleWorker (s : State) (node : Nat) : Option Nat := ((List.range 8).map (145 + ·)).find? fun w => (s.core (node * 256 + w)).run == .idle

/-- Asks for the resident fault handler of a slice whose queue holds a fault, unless one runs (R75). -/
def State.askHandler (s : State) (sk : Nat) : State :=
  let sl := s.slice sk
  if sl.handler.isSome || sl.faults.isEmpty || !s.hasHandler sk then s
  else s.wake (.event (.faultHandlerStart (skNode sk) (skNum sk) ((s.idleWorker (skNode sk)).getD 145)))

/-- The place among the 64 at FLTBASE that a new record takes (R73): the lowest that no live record holds, which is kept with the record. The
spec names none (log entry 77). -/
def Slice.freePlace (sl : Slice) : Nat := ((List.range 64).find? fun i => !(sl.faults.any fun f => f.place == i)).getD 0

/-- Writes a record of the slice's queue at FLTBASE (R73): a device write of the page, which sets D in its leaf (R68) and uses its
key (R76). The places count from FLTBASE as it was written (log entry 70). Where the page is absent or outside the slice the record stands in
the queue all the same, and its bytes are not written (log entry 104). -/
def State.storeFault (s : State) (sk : Nat) (f : FaultRec) : State :=
  let ipa := (s.slice sk).fltbase.toNat + 64 * f.place
  let walk (s : State) : XRes Leaf := s.walk2 false (skNode sk) 0 ipa [0, 1, 2, 3] (s.s2root sk)
  let found := match walk s with
    | .ok l t => if t.leafChanged l.at_ l.d then walk (t.emptyWalks (skNode sk) 0) else .ok l t
    | r => r
  match found with
  | .ok l s =>
    let pa := normPa (skNode sk) (dADDR 2 l.d + ipa % l.size)
    if s.outsideSlice sk pa l.size then s
    else
      let s := if dD l.d then s else s.setDirty (skNode sk) 0 l.at_ l.d
      let pg : Page := { pa := pa, left := 64, enc := dENC l.d }
      (s.poke (if pg.enc then s.lineKey pa else none) pa (f.words.flatMap wordBytes)).noteWrite (skNode sk * 256 + 144) pg 64
  | _ => s

/-- A record enters the slice's queue, in a free place. -/
def State.enterFault (s : State) (sk : Nat) (f : FaultRec) : State :=
  let sl := s.slice sk
  let f := { f with place := sl.freePlace }
  (s.putSlice sk { sl with faults := sl.faults ++ [f] }).storeFault sk f

/-- Records that waited for room enter the slice's queue (R73). -/
def State.refillFaults (s : State) (sk : Nat) : State :=
  let sl := s.slice sk
  let n := 64 - sl.faults.length
  let s := s.putSlice sk { sl with late := sl.late.drop n }
  ((sl.late.take n).foldl (fun s f => s.enterFault sk f) s).askHandler sk

/-- Withdraws the fault records of a unit of a core (R139 step 3). -/
def State.withdraw (s : State) (ck unit : Nat) : State :=
  let keep (l : List FaultRec) := l.filter fun f => !(f.core == ck && f.unit == unit)
  let n := ckNode ck
  let p := s.pkg n
  let s := s.putPkg n { p with faults := keep p.faults }
  match (s.core ck).slice with
  | some sk =>
    let sl := s.slice sk
    (s.putSlice sk { sl with faults := keep sl.faults, late := keep sl.late }).refillFaults sk
  | none => s

/-- Writes words at a physical address as a core's device access: the page's key, and what a write leaves (R76, R270). -/
def State.devWrite (s : State) (ck : Nat) (at_ : Nat × Bool) (chk : Bool) (off : Nat) (bs : List Byte) : State :=
  (s.poke (if at_.2 then s.lineKey at_.1 else none) (at_.1 + off) bs).noteWrite ck { pa := at_.1 + off, left := 0, chk := chk } bs.length

/-- The end of a key-value transfer's half (R215): PAGES, then CODE as a release at system scope; CODE 2 to 5 is
recorded. What waited for it in the copy ring goes on. -/
def State.endHalf (s : State) (h : KvHalf) (code : Nat) : State :=
  let s := { s with transfers := s.transfers.filter (·.id ≠ h.id) }
  let s := match s.racing h.core { pa := h.desc.1 + 32, left := 8, chk := h.descChk } 8 with
    | (some _, s) => s.count (ckNode h.core) 0x71
    | (none, s) =>
      let s := s.devWrite h.core h.desc h.descChk 32 (wordBytes (BitVec.ofNat 64 (h.landed * 2 ^ 32 + code)))
      (s.countRelease h.core).stamp h.core 4 (h.desc.1 + 32) 8
  let s :=
    if 2 ≤ code && code ≤ 5 then s.record (ckNode h.core) { s.coreRec h.core 0xC9 4 with kind := 3, addr := BitVec.ofNat 64 h.desc.1 }
    else s
  s.wake (.ring h.core 2)

/-- R216: a reset of the copy ring ends its posted transfers with CODE 0x06. -/
def State.endTransfers (s : State) (ck : Nat) : State :=
  (s.transfers.filter fun h => h.core == ck).foldl (fun s h => s.endHalf h 0x06) s

/-- A core's entry no longer waits for a round of a context (R219). -/
def Switch.forget (w : Switch) (ck : Nat) : Switch :=
  { w with
    answers := w.answers.del ck
    ctxs := w.ctxs.mapVals fun x => { x with waiters := x.waiters.del ck } }

/-- R228: a sketch command that is discarded gives its set's LOCK back, as a release at package scope; a write that cannot be
translated is dropped. -/
def State.dropLock (s : State) (ck : Nat) : State :=
  let x := (s.core ck).cring
  let locked : Option Entry := if x.prog.lock then x.queue.head? else x.queue.find? (·.prog.lock)
  match locked with
  | some e =>
    match s.translate ck (e.capa + 24) .write with
      | .ok pg s =>
        match s.racing ck pg 8 with
        | (some _, s) => s.count (ckNode ck) 0x71
        | (none, s) =>
        let key := if pg.enc then s.lineKey pg.pa else none
        let w := bytesWord (s.keyBytes key pg.pa 8)
        let s := (s.poke key pg.pa (wordBytes (w &&& BitVec.ofNat 64 (2 ^ 63 - 1)))).noteWrite ck pg 8
        (s.countRelease ck).stamp ck 2 pg.pa 8
      | _ => s
  | none => s

/-- R139 for one ring: entries, window, record, orphans; parts of a discarded ganged multiply that have not started. -/
def State.resetRing (s : State) (ck r : Nat) : State :=
  let s := if r = 2 then s.dropLock ck else s
  let c := (s.core ck).resetRing r
  let c := ((c.markOrphans 0).markOrphans 1).markOrphans 2
  let s := s.putCore ck c
  let s := s.withdraw ck (ringUnit r)
  let s := ((s.wake (.ring ck 0)).wake (.ring ck 1)).wake (.ring ck 2)
  match r with
  | 1 =>
    -- parts that have arrived and not started go, and those on their way; a core that they held back from its end looks again
    let had := s.cores.filter fun e => e.2.mat.parts.any (·.issuer == ck)
    let s := { s with
      cores := s.cores.map fun e => (e.1, { e.2 with mat := { e.2.mat with parts := e.2.mat.parts.filter (·.issuer ≠ ck) } })
      agenda := s.agenda.filter fun h => match h with
        | .event (.gangPartArrive n k _) => n * 256 + k ≠ ck
        | .event (.gangPartCommit n k _) => n * 256 + k ≠ ck
        | _ => true }
    had.foldl (fun s e => (if e.2.run == .ended then s.wake (.event (.threadEnd (ckNode e.1) (ckCore e.1))) else s).wake (.ring e.1 1)) s
  | 2 => { s with switches := s.switches.mapVals fun w => w.forget ck }.endTransfers ck
  | _ => s

def State.resetRings (s : State) (ck : Nat) : State := ((s.resetRing ck 0).resetRing ck 1).resetRing ck 2

/-! ### Groups and barriers -/

def Slice.group (sl : Slice) (g : Nat) : NSet := Tab.getD sl.groups g []
def Slice.bar (sl : Slice) (b : Nat) : SliceBar := Tab.getD sl.bars b {}
def Slice.setBar (sl : Slice) (b : Nat) (x : SliceBar) : Slice := { sl with bars := Tab.put sl.bars b x }

/-- A begun generation whose arrivals cover every member completes (R239, R241). -/
def Slice.tryComplete (sl : Slice) (b : Nat) : Slice :=
  let x := sl.bar b
  if x.arr ≠ [] && (sl.group (b % 64)).all x.arr.has then sl.setBar b { gen := x.gen + 1, arr := [], rels := x.rels } else sl

/-- join (R239). -/
def Slice.joinGroup (sl : Slice) (g core : Nat) : Slice :=
  if (sl.group g).has core then sl
  else
    let sl := { sl with groups := Tab.put sl.groups g ((sl.group g).add core) }
    let count (sl : Slice) (b : Nat) : Slice :=
      let x := sl.bar b
      if x.arr = [] then sl else sl.setBar b { x with arr := x.arr.add core }
    count (count sl g) (g + 64)

/-- leave (R239). -/
def Slice.leaveGroup (sl : Slice) (g core : Nat) : Slice :=
  if !(sl.group g).has core then sl
  else
    let sl := { sl with groups := Tab.put sl.groups g ((sl.group g).del core) }
    let drop (sl : Slice) (b : Nat) : Slice :=
      let x := sl.bar b
      (sl.setBar b { x with arr := x.arr.del core }).tryComplete b
    drop (drop sl g) (g + 64)

/-! ### Completions -/

/-- The function of a package whose own endpoint this is, unless it was detached (R25, R328). -/
def State.ownFunc (s : State) (node ep : Nat) : Option Nat :=
  (List.range 37).find? fun f => (Config.ownEndpoint node f).toNat == ep && !(s.pkg node).ownGone.has f

/-- The function that an endpoint is attached to on a package: as EPBIND has attached it, or the one whose own it is. -/
def State.funcAt (s : State) (node ep : Nat) : Option Nat :=
  match (s.pkg node).endpoints.get? ep with
  | some f => some f
  | none => s.ownFunc node ep

/-- An endpoint is attached to a function of a package: one that EPBIND has attached, or its own. -/
def State.boundByEp (s : State) (node func : Nat) : Bool := (s.pkg node).endpoints.any fun e => e.2 == func
def State.hasEndpoint (s : State) (node func : Nat) : Bool := s.boundByEp node func || !(s.pkg node).ownGone.has func

/-- Sends a completion (Table 3.4); the last 256 of KIND 1 are kept for a duplicate command (R26). -/
def State.complete (s : State) (node func ep seq kind status : Nat) (tag detail : W64) : State :=
  let m : Message := {
    node := node, ep := ep,
    words := [BitVec.ofNat 64 (seq % 2 ^ 32 * 2 ^ 32 + kind * 2 ^ 24 + status % 256 * 2 ^ 16 + func), tag, detail, 0] }
  -- sent only while the function's endpoint is attached (R333)
  let s := if s.hasEndpoint node func then { s with out := s.out ++ [m] } else s
  if kind = 1 then
    let p := s.pkg node
    let b := Tab.getD p.inboxes func {}
    s.putPkg node { p with inboxes := p.inboxes.put func { b with sent := ((seq, m) :: b.sent).take 256 } }
  else s

/-! ### Fault records -/

/-- Whether a cause goes to the Handle's queue (R302). -/
def toHandle (cause : Nat) : Bool := (0x50 ≤ cause && cause < 0x60) || cause ∈ [0x20, 0x21, 0x23, 0x24, 0x25, 0x26, 0x27, 0x28]

/-- The eight words of Table 5.7. -/
def State.faultWords (s : State) (ck unit kind cause level fnum : Nat) (va : W64) (ipa : Nat) (desc wh : W64) : List W64 :=
  let c := s.core ck
  let func := match c.slice with | some sk => s.sliceFunc sk | none => 0
  [BitVec.ofNat 64 (cause * 2 ^ 56 + unit * 2 ^ 52 + kind * 2 ^ 50 + func * 2 ^ 44 + c.slcore * 2 ^ 36 + level * 2 ^ 32 + fnum % 2 ^ 32),
    va, BitVec.ofNat 64 ipa, desc, wh, BitVec.ofNat 64 (s.cycle (ckNode ck)), 0, 0]

/-- Records a fault of a unit of a core in the queue of its cause (R73, R302). A slice queue with 64 records makes the
unit wait with its record. -/
def State.raiseFault (s : State) (ck unit kind cause level : Nat) (va : W64) (ipa : Nat) (desc wh : W64) : Park × State :=
  let node := ckNode ck
  let s := s.count node cause
  match (s.core ck).slice, toHandle cause with
  | some sk, false =>
    let sl := s.slice sk
    let f : FaultRec := { fnum := sl.nextF, core := ck, unit := unit, words := s.faultWords ck unit kind cause level sl.nextF va ipa desc wh }
    let sl := { sl with nextF := sl.nextF + 1 }
    let s :=
      if sl.faults.length < 64 then (s.putSlice sk sl).enterFault sk f
      else s.putSlice sk { sl with late := sl.late ++ [f] }
    ({ cause := cause, handle := false, fnum := f.fnum }, s.askHandler sk)
  | _, _ =>
    let p := s.pkg node
    let f : FaultRec := { fnum := p.nextF, core := ck, unit := unit, words := s.faultWords ck unit kind cause level p.nextF va ipa desc wh }
    ({ cause := cause, handle := true, fnum := f.fnum }, s.putPkg node { p with faults := p.faults ++ [f], nextF := p.nextF + 1 })

/-! ### Ends -/

/-- The active invocation of a slot. -/
def Slice.inv (sl : Slice) (slot : Nat) : Option Invocation := sl.active.find? (·.slot == slot)
def Slice.setInv (sl : Slice) (x : Invocation) : Slice := { sl with active := sl.active.map fun y => if y.slot = x.slot then x else y }

/-- Bytes at an intermediate address of a slice, as the device reads its records (R10), whatever the page's permissions (log entry
84); a page that is absent or outside the slice reads nothing. -/
def State.ipaBytes (s : State) (sk ipa n : Nat) : List Byte :=
  match s.walk2 false (skNode sk) 0 ipa [0, 1, 2, 3] (s.s2root sk) with
  | .ok l s =>
    let pa := normPa (skNode sk) (dADDR 2 l.d + ipa % l.size)
    if s.outsideSlice sk pa l.size then [] else s.keyBytes (if dENC l.d then s.lineKey pa else none) pa n
  | _ => []
def State.ipaWord (s : State) (sk ipa : Nat) : W64 := bytesWord (s.ipaBytes sk ipa 8)

/-- Word w of node n of a slot's graph (Table 2.3). -/
def State.nodeWord (s : State) (sk slot n w : Nat) : W64 :=
  let m := Tab.getD (s.slice sk).slots slot {}
  s.ipaWord sk ((m.words.getD 3 0).toNat + 32 * n + 8 * w)
def isGraph (m : ModelSlot) : Bool := (m.words.headD 0).fld 61 1 == 1

/-- Edges of a node: 0 INEDGE, 1 OUTA, 2 OUTB; none for 0xFFF, and in a slot without a graph. -/
def State.nodeEdge (s : State) (sk slot n i : Nat) : Option Nat :=
  if !isGraph (Tab.getD (s.slice sk).slots slot {}) then none
  else
    let e := (s.nodeWord sk slot n 1).fld (52 - 12 * i) 12
    if e = 0xFFF then none else some e

/-- R19 and R23 at the end of an iteration's thread: entries pushed on the edges it feeds, its input edge's counter
incremented, the iteration retired. -/
def State.retireIteration (s : State) (sk : Nat) (c : Core) : State :=
  let sl := s.slice sk
  match sl.inv c.slot with
  | none => s
  | some v =>
    let n := Tab.getD v.nodes c.node {}
    let entry : W64 := BitVec.ofNat 64 (leNat ((c.index.flatMap fun i => leBytes 2 i)))
    let push (v : Invocation) (i : Nat) : Invocation :=
      match s.nodeEdge sk c.slot c.node i with
      | none => v
      | some e =>
        let x := Tab.getD v.edges e {}
        { v with edges := v.edges.put e { x with entries := x.entries ++ [entry] } }
    let v := push (push v 1) 2
    let v := match s.nodeEdge sk c.slot c.node 0 with
      | none => v
      | some e =>
        let x := Tab.getD v.edges e {}
        { v with edges := v.edges.put e { x with free := x.free + 1 } }
    let v := { v with nodes := v.nodes.put c.node { n with live := n.live - 1, done := n.done + 1 }, done := v.done + 1 }
    s.putSlice sk (sl.setInv v)

/-- Takes a core's waiting tagged requests away (R233). -/
def State.dropTagged (s : State) (ck : Nat) : State := if s.tagQ.isEmpty then s else { s with tagQ := s.tagQ.filter fun t => !t.of ck }

/-- What of a core outlives its thread (R45, R255, R268, R309, R330): caches, the race-detection tables, the fences of its access core
and what that has read, when each register bank was named, the environment's inputs. -/
def Core.afterThread (c : Core) : Core :=
  { ({} : Core) with
    rc := c.rc, view := c.view, images := c.images, fences := c.fences, seen := c.seen, dcache := c.dcache, rfences := c.rfences, fills := c.fills
    icache := c.icache, tlb := c.tlb, tlbOld := c.tlbOld, upsets := c.upsets, thread := c.thread
    vec := { lastNamed := c.vec.lastNamed } }

/-- R330: the thread of a core has ended. A part of a ganged multiply that has arrived there and is not run, since a fault ends the thread,
finds the thread ended: its issuer parks (R193). -/
def State.threadEnds (s : State) (ck : Nat) : State :=
  let s := s.countRelease ck
  let c := s.core ck
  let s := s.putCore ck c.afterThread
  let s := c.mat.parts.foldl (fun s p => s.wake (.event (.gangPartArrive (ckNode p.issuer) (ckCore p.issuer) c.slcore))) s
  match c.slice with
  | none => s
  | some sk =>
    let sl := s.slice sk
    let sl := (List.range 64).foldl (fun sl g => sl.leaveGroup g c.slcore) sl
    ((s.putSlice sk sl).retireIteration sk c).wake (.event (.iterationDispatch (skNode sk) (skNum sk)))

/-- Notes that a fault ends an invocation; the first stands (R303). -/
def State.invFault (s : State) (sk slot : Nat) (detail : W64) : State :=
  let sl := s.slice sk
  match sl.inv slot with
  | none => s
  | some v =>
    let v := if v.fault.isSome then v else { v with fault := some detail }
    (s.putSlice sk (sl.setInv v)).wake (.event (.iterationDispatch (skNode sk) (skNum sk)))

/-- end_thread (R300) of a cause that has been counted: the rings are reset, the thread ends, a record is written and the
invocation ends with FAULT. On a core of the firmware complex outside a handler there is no invocation. unit is the unit that met
the cause. -/
def State.endThread (s : State) (ck cause : Nat) (addr inner detail : W64) (unit : Nat := 1) : State :=
  let c := s.core ck
  let s := (s.resetRings ck).dropTagged ck
  let s := s.withdraw ck 0
  let s := s.withdraw ck 1
  let s := s.writeRecord (ckNode ck) { s.coreRec ck cause unit with sev := 4, kind := endKind cause inner.toNat c.slice.isSome, addr := addr, detail := inner }
  match c.slice with
  | some sk =>
    let s := s.threadEnds ck
    s.invFault sk c.slot detail
  | none => s.putCore ck (s.core ck).afterThread

/-- A staging core is free again, and its iteration does not start (R48); the invocation ends with a detail. -/
def State.stageStop (s : State) (ck : Nat) (detail : W64) : State :=
  let c := s.core ck
  let s := (s.withdraw ck 5).putCore ck c.afterThread
  match c.slice with
  | none => s
  | some sk =>
    let sl := s.slice sk
    let s := match sl.inv c.slot with
      | none => s
      | some v =>
        let n := Tab.getD v.nodes c.node {}
        s.putSlice sk (sl.setInv { v with nodes := v.nodes.put c.node { n with live := n.live - 1 } })
    s.invFault sk c.slot detail

/-- DETAIL of an invocation that a unit's fault ends (R73). -/
def faultDetail (va : W64) (slcore cause : Nat) : W64 := BitVec.ofNat 64 (va.toNat % 2 ^ 48 * 2 ^ 16 + slcore * 2 ^ 8 + cause)

/-- Ends the invocation of a unit whose fault is not resolved (R48, R73, R75); its thread ends with it (R303). -/
def State.endUnit (s : State) (ck unit cause : Nat) (va detail : W64) : State :=
  let u : Core := s.core ck
  if u.run == Run.running || u.run == Run.ended then s.endThread ck cause va 0 detail unit
  else if u.run == Run.staging then s.stageStop ck detail
  else s

/-- A resident fault handler ends (R75): unless the unit it served was resumed, the unit's invocation ends; the worker is
free and the next fault is taken. own is the detail of a fault that the handler itself met: it ends the invocation in any case.
Where the served record was withdrawn meanwhile, the handler ends nothing (log entry 92). -/
def State.handlerEnds (s : State) (ck : Nat) (own : Option W64) : State :=
  let c := s.core ck
  match c.handling with
  | none => s
  | some (sk, fnum) =>
    let s := s.resetRings ck
    let s := s.putCore ck { (s.core ck).afterThread with tlb := [] }
    let sl := s.slice sk
    let s := s.putSlice sk { sl with handler := none }
    let s := match (sl.faults.find? (·.fnum == fnum)) with
      | none =>
        match own with
        | none => s
        | some d =>
          let u := s.core c.serves.1
          if u.slice = some sk && u.thread = c.serves.2.1 then s.endUnit c.serves.1 1 (d.fld 0 8) 0 d else s.invFault sk c.serves.2.2 d
      | some f =>
        let w1 := f.words.getD 1 0
        let cause := (f.words.headD 0).fld 56 8
        let detail := own.getD (faultDetail w1 (s.core f.core).slcore cause)
        let s := s.putSlice sk { (s.slice sk) with faults := (s.slice sk).faults.filter (·.fnum ≠ fnum) }
        s.endUnit f.core f.unit cause w1 detail
    (s.refillFaults sk).askHandler sk

/-- Ends what a core runs, for a cause that has been counted: a resident fault handler (R75), or its thread. -/
def State.endOf (s : State) (ck cause : Nat) (addr inner detail : W64) (unit : Nat := 1) : State :=
  if (s.core ck).handling.isSome then
    let s := s.writeRecord (ckNode ck) { s.coreRec ck cause 13 with sev := 4, kind := endKind cause inner.toNat true, addr := addr, detail := inner }
    s.handlerEnds ck (some detail)
  else s.endThread ck cause addr inner detail unit

/-- A fault of a unit: recorded; where no handler serves the slice's queue, the unit's invocation ends (R73). A fault met
by a resident fault handler ends the handler and the invocation (R75). The park or stall, unless the unit was ended. -/
def State.unitFault (s : State) (ck unit kind cause level : Nat) (va : W64) (ipa : Nat) (desc wh : W64) : Option Park × State :=
  let c := s.core ck
  let detail := faultDetail va c.slcore cause
  if c.handling.isSome then (none, (s.count (ckNode ck) cause).endOf ck cause va 0 detail)
  else
    let (park, s) := s.raiseFault ck unit kind cause level va ipa desc wh
    match c.slice with
    | some sk =>
      if park.handle || s.hasHandler sk then (some park, s) else (none, s.endThread ck cause va 0 detail unit)
    | none => (some park, s)

end Sys2Proof.Machine
end

