-- ==== Sys2Proof/Machine/Ops.lean ====
section
/-!
DEFINITION. The shared operations of the access core: the end of an instruction (R125, R126, R248), transfers of control
(R123, R124), taking a trap and returning from one (R300, R136), stalls (R72), timed waits (R233), and loads and stores.
-/
namespace Sys2Proof.Machine

/-- The outcome of an instruction or a step. Every meaning answers a next state. -/
abbrev Out := Host.Outcome State Fault Refusal

/-! ### Registers of the acting core -/

/-- s0 reads 0 and is never written (R116). -/
def Core.reg (c : Core) (r : BitVec 5) : W64 := if r = 0 then 0 else c.s[r.toNat]'r.isLt
def Core.setReg (c : Core) (r : BitVec 5) (v : W64) : Core := if r = 0 then c else { c with s := c.s.set r.toNat v r.isLt }
/-- p0 reads 1 and is never written (R116). -/
def Core.pred (c : Core) (r : BitVec 3) : Bool := if r = 0 then true else c.p[r.toNat]'r.isLt
def Core.setPred (c : Core) (r : BitVec 3) (v : Bool) : Core := if r = 0 then c else { c with p := c.p.set r.toNat v r.isLt }

def State.reg (s : State) (r : BitVec 5) : W64 := s.me.reg r
def State.setReg (s : State) (r : BitVec 5) (v : W64) : State := s.setMe (s.me.setReg r v)
def State.pred (s : State) (r : BitVec 3) : Bool := s.me.pred r
def State.setPred (s : State) (r : BitVec 3) (v : Bool) : State := s.setMe (s.me.setPred r v)
def State.pc (s : State) : W64 := s.me.pc

/-- Node of the acting core. -/
def State.node (s : State) : Nat := ckNode s.cur
/-- The acting core is a tenant thread, a resident fault handler, or firmware (R134). -/
def State.inHandler (s : State) : Bool := s.me.handling.isSome
def State.asFirmware (s : State) : Bool := isFirmware s.cur && !s.inHandler
def State.asHandle (s : State) : Bool := isHandle s.cur

/-! ### The end of an instruction -/

/-- R125: the loop-end test after an instruction at x whose next sequential address is nxt. -/
def loopEnd (cdepth : BitVec 20) (x nxt : W64) : List Loop → List Loop × W64
  | [] => ([], nxt)
  | l :: t =>
    if l.cdepth = cdepth ∧ x.toNat < l.lend.toNat ∧ l.lend.toNat ≤ nxt.toNat then
      if l.count.toNat > 1 then ({ l with count := l.count - 1 } :: t, l.sta)
      else loopEnd cdepth x nxt t
    else (l :: t, nxt)

/-- R248: an instruction that completes counts toward the watchdog of a thread; at zero the watchdog takes the thread
before its next instruction (R249). -/
def State.spend (s : State) : State :=
  let c := s.me
  match c.slice with
  | none => s
  | some _ =>
    let s := s.setMe { c with watchdog := c.watchdog - 1 }
    if c.watchdog ≤ 1 then s.now (.event (.watchdogExpire s.node (ckCore s.cur))) else s

/-- Completes an instruction without a transfer of control; nxt is the next sequential address. -/
def State.finishAt (s : State) (nxt : W64) : State :=
  let c := s.me
  let (loops, pc) := loopEnd c.cdepth c.pc nxt c.loops
  (s.setMe { c with loops := loops, pc := pc }).spend

/-- Completes a one-word instruction. -/
def State.finish (s : State) : State := s.finishAt (s.pc + 4)

/-- R126: a taken br or jr pops the loops of this depth that its target leaves. -/
def loopLeave (cdepth : BitVec 20) (t : W64) : List Loop → List Loop
  | [] => []
  | l :: r => if l.cdepth = cdepth ∧ ¬(l.sta.toNat ≤ t.toNat ∧ t.toNat < l.lend.toNat) then loopLeave cdepth t r else l :: r

/-- A taken br or jr. -/
def State.jump (s : State) (t : W64) : State :=
  let c := s.me
  (s.setMe { c with loops := loopLeave c.cdepth t c.loops, pc := t }).spend

/-- R126: a return pops every loop that began deeper than the depth after it. -/
def State.returnTo (s : State) (t : W64) : State :=
  let c := s.me
  let d := c.cdepth - 1
  (s.setMe { c with cdepth := d, loops := c.loops.filter fun l => l.cdepth.toNat ≤ d.toNat, pc := t }).spend

/-! ### Traps -/

/-- R300: delivery of a trap of the acting core. ret is the address of the trapping instruction, or pc + 4 for trap. A
trap met in a handler, or without a trap vector, ends the thread. -/
def State.deliver (s : State) (cause : Nat) (addr ret : W64) : State :=
  let c := s.me
  let s := s.count s.node cause
  if c.trapH then (s.count s.node 0xD1).endOf s.cur 0xD1 addr (BitVec.ofNat 64 cause) 0xD1
  else if c.tvec = 0 ∨ c.tvec.fld 0 2 ≠ 0 then s.endOf s.cur cause addr 0 (BitVec.ofNat 64 cause)
  else
    s.setMe { c with
      trapCause := BitVec.ofNat 8 cause, trapAddr := addr, trapPc := ret, trapH := true
      cdepth := c.cdepth + 1, wait := none, relWait := none, pushHeld := none, pc := c.tvec }

/-- A precise trap at the instruction (R6, R117): no architectural effect but the delivery. -/
def State.trap (s : State) (cause : Nat) (addr : W64) : State := s.deliver cause addr s.pc

/-- A trap that names the instruction's own word. -/
def State.wordTrap (s : State) (cause : Nat) (i : Instr) : State := s.trap cause (((encode i).headD 0).setWidth 64)

/-- rft (R136): the return from a trap handler. -/
def State.returnFromTrap (s : State) (g : BitVec 3) : State :=
  let c := s.me
  if !c.trapH then s.trap 0x19 0
  else if c.trapPc.fld 0 2 ≠ 0 then s.wordTrap 0x0B (.rft g)
  else (s.setMe { c with trapH := false }).returnTo c.trapPc

/-- R72: a translation fault stalls the access core at the instruction; unit 0 fetch, 1 data. Where a walk waits (R281), the instruction is
tried again. -/
def State.stall (s : State) (unit : Nat) (k : Kind) (f : XFault) (va : W64) : State :=
  if f = .wait then s
  else match s.unitFault s.cur unit k.code f.cause f.level va f.ipa f.desc s.pc with
  | (some p, s) => s.setMe { s.me with fault := some (p, unit) }
  | (none, s) => s

/-! ### Results of the parts of an instruction -/

/-- A part of an instruction gave a value, or ended the instruction with this state (a trap, a stall). -/
inductive Res (α : Type) where
  | ok (v : α) (s : State)
  | stop (s : State)

/-- Ends an instruction with what follows a part. -/
def Res.run {α : Type} (r : Res α) (k : α → State → State) : State :=
  match r with
  | .ok v s => k v s
  | .stop s => s

/-- Follows a part with another that may also end the instruction. -/
def Res.then_ {α β : Type} (r : Res α) (k : α → State → Res β) : Res β :=
  match r with
  | .ok v s => k v s
  | .stop s => .stop s

/-- Guard (R7, R103): a false guard completes with no effect. -/
def State.guarded (s : State) (g : BitVec 3) (k : State → State) : Out := .next (if s.pred g then k s else s.finish)

/-! ### Loads and stores of the access core -/

/-- The Handle's access fails while a slice of its package that has been saved is still stopped: the copy of a page of a migration has
failed (R325, step 4). -/
def State.copyFailed (s : State) (va : W64) : State :=
  if isHandle s.cur && (List.range 36).any fun i => (s.slice (skOf s.node i)).kept then
    s.record s.node { s.coreRec s.cur 0xD9 1 with kind := 3, addr := va }
  else s

/-- The trap, if any, of an access at a home (R127, R272, R304, R305). -/
def ofAcc {α : Type} (va : W64) : Acc α → Res α
  | .ok v s => .ok v s
  | .err _ _ s => .stop ((s.copyFailed va).trap 0x60 va)
  | .poison _ s => .stop ((s.copyFailed va).trap 0x61 va)
  | .race c _ s => .stop (s.trap c va)

/-- A load queue of the core has a remote load of bytes [pa, pa + n) still to be performed (R129). -/
def Core.rldOf (c : Core) (pa n : Nat) : Bool :=
  (List.finRange 4).any fun q => c.lq[q].slots.any fun x => match x.2 with
    | .pending a _ len _ _ => a.toNat < pa + n && pa < a.toNat + len
    | _ => false

/-- A load queue of the core has a remote load still to be performed. -/
def Core.rldLeft (c : Core) : Bool :=
  (List.finRange 4).any fun q => c.lq[q].slots.any fun x => match x.2 with
    | .pending _ _ _ _ _ => true
    | _ => false

/-- An earlier access of the acting core to the words of a range is still to be performed: a store on its way to another node
(R281), or the data read of an rld (R129). -/
def State.onItsWay (s : State) (pa n : Nat) : Bool :=
  let lo := pa / 8 * 8
  let m := (pa + n + 7) / 8 * 8 - lo
  s.me.rldOf lo m ||
    pa / 2 ^ 48 != s.node && (s.pkg s.node).outstanding.any fun e => e.2.any fun q => q.core == s.cur && q.pa < lo + m && lo < q.pa + q.size

/-- Translates an input address of the acting core for a data access. -/
def State.accessPage (s : State) (va : W64) (k : Kind) : Res Page :=
  match s.translate s.cur va k with
  | .ok pg s => .ok pg s
  | .fault f s => .stop (s.stall 1 k f va)
  | .refused _ _ s => .stop (s.trap 0x60 va)

/-- The same for an access of n bytes that waits for the core's own earlier accesses to the same words (R127), and for room among
the requests to its node. -/
def State.dataPage (s : State) (va : W64) (k : Kind) (n : Nat := 1) : Res Page :=
  match s.accessPage va k with
  | .ok pg s => if s.onItsWay pg.pa n || s.portFull pg.pa then .stop s else .ok pg s
  | .stop s => .stop s

/-- The bytes of a present line of the data cache, unless a fence.r has taken the line away from the input address (R246). A
mirrored location is never read from the cache (R266). -/
def Core.cacheHit (c : Core) (va : Nat) (pg : Page) (n : Nat) : Option (List Byte) :=
  match c.dcache.get? (pg.pa / 64) with
  | none => none
  | some l =>
    if pg.mirror || c.rfences.any fun r => va < r.2.1 && r.1 < va + n && l.born < r.2.2 then none
    else some ((l.bytes.drop (pg.pa % 64)).take n)

/-- A line as its home holds it, with the release stamps of its bytes. -/
def State.homeLine (s : State) (pg : Page) (born : Nat) : CacheLine :=
  let lo := pg.pa / 64 * 64
  { bytes := s.keyBytes (if pg.enc then s.lineKey pg.pa else none) lo 64, born := born
    stamps := if s.stamps.isEmpty then [] else (s.stamps.filter fun e => lo ≤ e.1 && e.1 < lo + 64).map fun e => (e.1 - lo, e.2) }

/-- The core's own stores to a line that are on their way to its node. -/
def State.ownPosted (s : State) (pa : Nat) : List Posted :=
  (Tab.getD (s.pkg s.node).outstanding (pa / 2 ^ 48) []).filter fun q => q.core == s.cur && q.pa / 64 == pa / 64

/-- Fills the line of an address. The core's own stores that are on their way to it have their effect in it: a later load never reads an
older value (R257). -/
def State.fillLine (s : State) (pg : Page) : State :=
  if pg.mirror then s
  else
    let c := s.me
    let l := (s.ownPosted pg.pa).foldl (fun l q => l.write (q.pa % 64) (leBytes q.size q.value.toNat) q.stamps) (s.homeLine pg c.fills)
    s.setMe { c with dcache := c.dcache.put (pg.pa / 64) l, fills := c.fills + 1 }

/-- Memory would answer a read with these bytes. -/
def State.readsAs (s : State) (pg : Page) (bs : List Byte) : Bool :=
  (s.homeRefuses (s.party s.cur) pg.pa bs.length 0 pg.enc).isNone && (s.poisonAt pg.pa bs.length).isNone &&
    s.keyBytes (if pg.enc then s.lineKey pg.pa else none) pg.pa bs.length == bs

/-- A load that its home serves; it fills the line. -/
def State.loadMiss (s : State) (va : W64) (pg : Page) (n : Nat) : Res (List Byte) :=
  match ofAcc va (s.loadAt s.cur pg n) with
  | .stop s => .stop s
  | .ok bs s => .ok bs ((s.fillLine pg).noteRead s.cur va.toNat pg.pa n)

/-- The stamps that n bytes of a present line hold: those of the releases whose values they are (R255). -/
def Core.lineStamps (c : Core) (pa n : Nat) : List Stamp := match c.dcache.get? (pa / 64) with | some l => l.stampsOf (pa % 64) n | none => []

/-- A load of n bytes at a place by the acting core (R127): served from the data cache where the line is present. A present line that
memory no longer agrees with, in its bytes or their stamps, may have been evicted; a value that the line gives is the line's, with its
stamps. The check of a checked line is made in either case (R270). -/
def State.loadFrom (s : State) (va : W64) (pg : Page) (n : Nat) : Res (List Byte) :=
  match s.me.cacheHit va.toNat pg n with
  | none => s.loadMiss va pg n
  | some old =>
    match s.takeUpset s.cur 8 with
    | (some _, s) =>
      -- a parity error: the line is fetched again
      ((s.setMe { s.me with dcache := s.me.dcache.del (pg.pa / 64) }).record s.node
        { s.coreRec s.cur 0x79 1 with kind := 3, addr := BitVec.ofNat 64 pg.pa }).loadMiss va pg n
    | (none, s) =>
      match s.racing s.cur pg n with
      | (some _, s) => .stop (s.trap 0x70 va)
      | (none, s) =>
        let st := s.me.lineStamps pg.pa n
        if s.readsAs pg old && st == s.stampsOf pg.pa n then .ok old (s.noteSeen s.cur va.toNat pg.pa n st)
        else
          let (stale, s) := s.pickBool
          if stale then .ok old (s.noteSeen s.cur va.toNat pg.pa n st) else s.loadMiss va pg n

/-- A load of n bytes by the acting core. -/
def State.load (s : State) (va : W64) (n : Nat) : Res (List Byte) :=
  (s.dataPage va .read).then_ fun pg s => s.loadFrom va pg n

/-- Drops the whole data cache (R128), or the lines of a range of physical addresses (R236, R245). -/
def Core.dropCache (c : Core) : Core := { c with dcache := [], rfences := [] }
def Core.dropLines (c : Core) (lo hi : Nat) : Core := { c with dcache := c.dcache.filter fun e => hi ≤ e.1 * 64 || e.1 * 64 + 64 ≤ lo }

/-- The lines of the core's own scratchpad. -/
def Core.dropPad (c : Core) (ck : Nat) : Core := c.dropLines (padBase ck) (padBase ck + padSize)

/-! ### Tagged words (R237, R238) -/

/-- Scope of a tagged access (R237): die or package for another core's word, pod for the owner's and for another package's. -/
def tagScope (ck pa : Nat) : Nat := if scopeOfLoc ck pa = 0 then 3 else scopeOfLoc ck pa

/-- Performs a tagged request at its home if the word's tag lets it: a ldwf is an acquire, a stwe a release. -/
def State.tagPerform (s : State) (t : TagReq) : State :=
  let pa := 8 * t.word
  let pg : Page := { pa := pa, left := 8 }
  let sc := tagScope t.core pa
  if t.fill then
    match s.raceAt t.core pg 8 with
    | some _ => s.answerTagged t.core (.refused 0x71)
    | none =>
      let s := (s.poke none pa (wordBytes t.value)).noteWrite t.core pg 8
      let s := s.countRelease t.core
      let st := s.stampOf t.core sc ++ (s.core t.core).fenceStamps t.core t.va 8
      let s := s.addStamps pa 8 st
      let s := s.putCore t.core ((s.core t.core).cacheStore pa (wordBytes t.value) st)
      { s with tags := s.tags.add t.word }.answerTagged t.core (.done t.value)
  else
    match s.poisonAt pa 8 with
    | some a =>
      if padBase t.core ≤ pa && pa < padBase t.core + padSize then s.answerTagged t.core (.refused 0x61)
      else (s.refuse (s.party t.core) a 0x63).answerTagged t.core (.refused 0x60)
    | none =>
      let s1 := s.acquireAt t.core sc pa 8
      match s1.raceAt t.core pg 8 with
      | some _ => s.answerTagged t.core (.refused 0x70)
      | none =>
        let s := (s1.correct t.core pa 8).noteRead t.core t.va pa 8
        { s with tags := s.tags.del t.word }.answerTagged t.core (.done (s.word pa))

/-- Performs a tagged request whose core's package has been reset: nobody takes the answer. -/
def State.tagGone (s : State) (t : TagReq) : State :=
  let s := { s with tagQ := s.tagQ.filter (· ≠ t) }
  if t.fill then { s.poke none (8 * t.word) (wordBytes t.value) with tags := s.tags.add t.word } else { s with tags := s.tags.del t.word }

/-- Performs the waiting requests of a word, in the order in which they came, for as long as its tag lets one. The home keeps the
answer in its reply cache (R281). -/
def State.tagRun (s : State) (word : Nat) : Nat → State
  | 0 => s
  | n + 1 =>
    match s.tagQ.find? fun t => t.word == word && t.fill != s.tags.has word with
    | some t => if t.gone then (s.tagGone t).tagRun word n else ((s.tagPerform t).cacheOwn t.core (8 * t.word) t.seq (s.word (8 * t.word))).tagRun word n
    | none => s

def State.tagServe (s : State) (word : Nat) : State := if s.tagQ.isEmpty then s else s.tagRun word s.tagQ.length

/-! ### Timed waits (R233) -/

/-- Starts the wait of an instruction, unless it is in progress. -/
def State.beginWait (s : State) (i : Instr) : State :=
  match s.me.wait with
  | some _ => s
  | none => s.setMe { s.me with wait := some { start := s.clock, word := (encode i).headD 0 } }

def State.endWait (s : State) : State := s.setMe { s.me with wait := none }

/-- Whether s[T] cycles have passed since the wait started. -/
def State.expired (s : State) (t : BitVec 5) : Bool :=
  match s.me.wait with
  | some w => (s.reg t).toNat ≤ s.clock - w.start
  | none => true

/-- Whether a stop is requested of the acting core's slice (R316). -/
def State.stopAsked (s : State) : Bool :=
  match s.me.slice with
  | some sk => ((s.slice sk).stop == .stopping || (s.slice sk).stop == .freezing) && !isFirmware s.cur
  | none => false

/-- Stops the acting core for a pre-emption with a STOP code of Table 21.4. -/
def State.stopCore (s : State) (code : Nat) : State := s.setMe { s.me with stop := some code }

/-- One turn of a timed wait that has begun: met, timed out, taken by a pre-emption (R234), or still waiting. -/
def State.timedWait (s : State) (p : BitVec 3) (t : BitVec 5) (cond : Bool) (met expire : State → State) : State :=
  if cond then ((met s).endWait.setPred p false).finish
  else if s.expired t then ((expire s).endWait.setPred p true).finish
  else if s.stopAsked then (expire s).endWait.stopCore 3
  else s

end Sys2Proof.Machine
end

