-- ==== Sys2Proof/Machine/Arith.lean ====
section
/-!
DEFINITION. Integer and address arithmetic, compares and predicate logic of the access core (R118 to R122).
-/
namespace Sys2Proof.Machine

/-! ### The operations of Table 8.2 and Table 8.3 -/

/-- High half of the signed or the unsigned 128-bit product. -/
def mulHighS (x y : W64) : W64 := BitVec.ofInt 64 (x.toInt * y.toInt / 2 ^ 64)
def mulHighU (x y : W64) : W64 := BitVec.ofNat 64 (x.toNat * y.toNat / 2 ^ 64)
/-- Signed quotient rounded toward zero; −1 for a zero divisor; −2^63 for −2^63 ÷ −1. -/
def divS (x y : W64) : W64 := if y = 0 then BitVec.allOnes 64 else BitVec.ofInt 64 (x.toInt.tdiv y.toInt)
def divU (x y : W64) : W64 := if y = 0 then BitVec.allOnes 64 else BitVec.ofNat 64 (x.toNat / y.toNat)
/-- Remainder with the sign of x; x for a zero divisor. -/
def remS (x y : W64) : W64 := if y = 0 then x else BitVec.ofInt 64 (x.toInt.tmod y.toInt)
/-- Shift amounts are taken modulo 64. -/
def shl (x : W64) (n : Nat) : W64 := x <<< (n % 64)
def shr (x : W64) (n : Nat) : W64 := x >>> (n % 64)
def sra (x : W64) (n : Nat) : W64 := x.sshiftRight (n % 64)

/-! ### Shapes of instruction -/

/-- s[d] := v, and the next instruction. -/
def State.setNext (s : State) (d : BitVec 5) (v : W64) : State := (s.setReg d v).finish
/-- p[d] := v, and the next instruction. -/
def State.setPredNext (s : State) (d : BitVec 3) (v : Bool) : State := (s.setPred d v).finish

/-- A result of the adder, multiplier, divider or shifter: a divergence of its residue check traps with nothing written
(R307, R118); an error that keeps the residue goes through. -/
def State.checkedNext (s : State) (i : Instr) (d : BitVec 5) (v : W64) : State :=
  match s.takeUpset s.cur 1 with
  | (some u, s) => if (v + u.flip).toNat % 3 = v.toNat % 3 then s.setNext d (v + u.flip) else s.wordTrap 0x22 i
  | (none, s) => s.setNext d v

/-- A register form of a residue-checked unit (R118). -/
def arithC (i : Instr) (f : W64 → W64 → W64) (d a b : BitVec 5) (g : BitVec 3) (s : State) : Out :=
  s.guarded g fun s => s.checkedNext i d (f (s.reg a) (s.reg b))
/-- A register form (R118). -/
def arith (f : W64 → W64 → W64) (d a b : BitVec 5) (g : BitVec 3) (s : State) : Out :=
  s.guarded g fun s => s.setNext d (f (s.reg a) (s.reg b))
/-- An immediate form with a signed immediate (R119). -/
def arithImmC (i : Instr) (f : W64 → W64 → W64) (d a : BitVec 5) (g : BitVec 3) (n : BitVec 12) (s : State) : Out :=
  s.guarded g fun s => s.checkedNext i d (f (s.reg a) (n.signExtend 64))
def arithImm (f : W64 → W64 → W64) (d a : BitVec 5) (g : BitVec 3) (i : BitVec 12) (s : State) : Out :=
  s.guarded g fun s => s.setNext d (f (s.reg a) (i.signExtend 64))
/-- A shift by an immediate amount (R119). -/
def shiftImm (i : Instr) (f : W64 → Nat → W64) (d a : BitVec 5) (g : BitVec 3) (n : BitVec 6) (s : State) : Out :=
  s.guarded g fun s => s.checkedNext i d (f (s.reg a) n.toNat)
/-- A compare (R121). -/
def compare (f : W64 → W64 → Bool) (d : BitVec 3) (a b : BitVec 5) (g : BitVec 3) (s : State) : Out :=
  s.guarded g fun s => s.setPredNext d (f (s.reg a) (s.reg b))
/-- A predicate form (R122). -/
def predLogic (f : Bool → Bool → Bool) (d a b g : BitVec 3) (s : State) : Out :=
  s.guarded g fun s => s.setPredNext d (f (s.pred a) (s.pred b))

/-! ### The instructions -/

def execAddI64 (d a b : BitVec 5) (g : BitVec 3) (s : State) : Out := arithC (.addI64 d a b g) (· + ·) d a b g s
def execSubI64 (d a b : BitVec 5) (g : BitVec 3) (s : State) : Out := arithC (.subI64 d a b g) (· - ·) d a b g s
def execMulI64 (d a b : BitVec 5) (g : BitVec 3) (s : State) : Out := arithC (.mulI64 d a b g) (· * ·) d a b g s
def execMulhI64 (d a b : BitVec 5) (g : BitVec 3) (s : State) : Out := arithC (.mulhI64 d a b g) mulHighS d a b g s
def execMulhW64 (d a b : BitVec 5) (g : BitVec 3) (s : State) : Out := arithC (.mulhW64 d a b g) mulHighU d a b g s
def execDivI64 (d a b : BitVec 5) (g : BitVec 3) (s : State) : Out := arithC (.divI64 d a b g) divS d a b g s
def execDivW64 (d a b : BitVec 5) (g : BitVec 3) (s : State) : Out := arithC (.divW64 d a b g) divU d a b g s
def execRemI64 (d a b : BitVec 5) (g : BitVec 3) (s : State) : Out := arithC (.remI64 d a b g) remS d a b g s
def execAndW64 (d a b : BitVec 5) (g : BitVec 3) (s : State) : Out := arith (· &&& ·) d a b g s
def execOrW64 (d a b : BitVec 5) (g : BitVec 3) (s : State) : Out := arith (· ||| ·) d a b g s
def execXorW64 (d a b : BitVec 5) (g : BitVec 3) (s : State) : Out := arith (· ^^^ ·) d a b g s
def execShlI64 (d a b : BitVec 5) (g : BitVec 3) (s : State) : Out := arithC (.shlI64 d a b g) (fun x y => shl x y.toNat) d a b g s
def execShrW64 (d a b : BitVec 5) (g : BitVec 3) (s : State) : Out := arithC (.shrW64 d a b g) (fun x y => shr x y.toNat) d a b g s
def execSraI64 (d a b : BitVec 5) (g : BitVec 3) (s : State) : Out := arithC (.sraI64 d a b g) (fun x y => sra x y.toNat) d a b g s
def execAddiI64 (d a : BitVec 5) (g : BitVec 3) (i : BitVec 12) (s : State) : Out := arithImmC (.addiI64 d a g i) (· + ·) d a g i s
def execAndiW64 (d a : BitVec 5) (g : BitVec 3) (i : BitVec 12) (s : State) : Out := arithImm (· &&& ·) d a g i s
def execOriW64 (d a : BitVec 5) (g : BitVec 3) (i : BitVec 12) (s : State) : Out := arithImm (· ||| ·) d a g i s
def execXoriW64 (d a : BitVec 5) (g : BitVec 3) (i : BitVec 12) (s : State) : Out := arithImm (· ^^^ ·) d a g i s
def execShliI64 (d a : BitVec 5) (g : BitVec 3) (i : BitVec 6) (s : State) : Out := shiftImm (.shliI64 d a g i) shl d a g i s
def execShriW64 (d a : BitVec 5) (g : BitVec 3) (i : BitVec 6) (s : State) : Out := shiftImm (.shriW64 d a g i) shr d a g i s
def execSraiI64 (d a : BitVec 5) (g : BitVec 3) (i : BitVec 6) (s : State) : Out := shiftImm (.sraiI64 d a g i) sra d a g i s

/-- li carries no guard (R120). -/
def execLi (d : BitVec 5) (i : BitVec 20) (s : State) : Out := .next (s.setNext d (i.setWidth 64))
/-- lea: a buffer's base plus a signed offset (R120), a result of the adder. -/
def execLea (d : BitVec 5) (a : BitVec 4) (g : BitVec 3) (i : BitVec 12) (s : State) : Out :=
  s.guarded g fun s => s.checkedNext (.lea d a g i) d ((s.me.bx[a.toNat]'a.isLt).1 + i.signExtend 64)
/-- bxlen: a buffer's length (R120). -/
def execBxlen (d : BitVec 5) (a : BitVec 4) (g : BitVec 3) (s : State) : Out :=
  s.guarded g fun s => s.setNext d (s.me.bx[a.toNat]'a.isLt).2

def execCmpEqI64 (d : BitVec 3) (a b : BitVec 5) (g : BitVec 3) (s : State) : Out := compare (fun x y => x == y) d a b g s
def execCmpNeI64 (d : BitVec 3) (a b : BitVec 5) (g : BitVec 3) (s : State) : Out := compare (fun x y => x != y) d a b g s
def execCmpLtI64 (d : BitVec 3) (a b : BitVec 5) (g : BitVec 3) (s : State) : Out := compare BitVec.slt d a b g s
def execCmpGeI64 (d : BitVec 3) (a b : BitVec 5) (g : BitVec 3) (s : State) : Out := compare (fun x y => !x.slt y) d a b g s
def execCmpLtW64 (d : BitVec 3) (a b : BitVec 5) (g : BitVec 3) (s : State) : Out := compare BitVec.ult d a b g s
def execCmpGeW64 (d : BitVec 3) (a b : BitVec 5) (g : BitVec 3) (s : State) : Out := compare (fun x y => !x.ult y) d a b g s
def execPand (d a b g : BitVec 3) (s : State) : Out := predLogic (· && ·) d a b g s
def execPor (d a b g : BitVec 3) (s : State) : Out := predLogic (· || ·) d a b g s
def execPxor (d a b g : BitVec 3) (s : State) : Out := predLogic (· != ·) d a b g s
def execPandn (d a b g : BitVec 3) (s : State) : Out := predLogic (fun x y => x && !y) d a b g s
def execPset (d : BitVec 3) (a : BitVec 5) (g : BitVec 3) (s : State) : Out := s.guarded g fun s => s.setPredNext d (s.reg a != 0)
def execPget (d : BitVec 5) (a g : BitVec 3) (s : State) : Out := s.guarded g fun s => s.setNext d (if s.pred a then 1 else 0)

end Sys2Proof.Machine
end

