-- ==== Sys2Proof/Machine/Codec.lean ====
section
/-!
DEFINITION. The device's own layout of the images of a saved context (R319): how a value of State becomes words, and comes back
from them. A number is a run of words of 63 bits each, with bit 63 set in all but the last; a list is its length and its members
(log entry 21).
-/
namespace Sys2Proof.Machine

/-- A layout: the words of a value, and the value at the head of words with what follows it. -/
structure Codec (α : Type) where
  put : α → List W64
  get : List W64 → Option (α × List W64)

/-! ### Parts -/

def natPut : Nat → Nat → List W64
  | 0, n => [BitVec.ofNat 64 n]
  | k + 1, n => if n < 2 ^ 63 then [BitVec.ofNat 64 n] else BitVec.ofNat 64 (n % 2 ^ 63 + 2 ^ 63) :: natPut k (n / 2 ^ 63)

def natGet : List W64 → Option (Nat × List W64)
  | [] => none
  | w :: l => if w.toNat < 2 ^ 63 then some (w.toNat, l) else (natGet l).map fun x => (w.toNat - 2 ^ 63 + 2 ^ 63 * x.1, x.2)

def Codec.nat : Codec Nat := { put := fun n => natPut (n.log2 / 63) n, get := natGet }

/-- A value laid out as another. -/
def Codec.via {α β : Type} (c : Codec β) (f : α → β) (g : β → α) : Codec α :=
  { put := fun a => c.put (f a), get := fun l => (c.get l).map fun x => (g x.1, x.2) }

/-- One value behind another. -/
def Codec.and {α β : Type} (c : Codec α) (d : Codec β) : Codec (α × β) :=
  { put := fun a => c.put a.1 ++ d.put a.2
    get := fun l => (c.get l).bind fun x => (d.get x.2).map fun y => ((x.1, y.1), y.2) }

/-- n members. -/
def Codec.many {α : Type} (c : Codec α) : Nat → List W64 → Option (List α × List W64)
  | 0, l => some ([], l)
  | n + 1, l => (c.get l).bind fun x => (c.many n x.2).map fun y => (x.1 :: y.1, y.2)

def Codec.list {α : Type} (c : Codec α) : Codec (List α) :=
  { put := fun a => Codec.nat.put a.length ++ a.flatMap c.put
    get := fun l => (Codec.nat.get l).bind fun x => c.many x.1 x.2 }

def Codec.vec {α : Type} (c : Codec α) (n : Nat) : Codec (Vector α n) :=
  { put := fun v => v.toList.flatMap c.put
    get := fun l => (c.many n l).bind fun x => if h : x.1.length = n then some (⟨x.1.toArray, by simp [h]⟩, x.2) else none }

def Codec.bits (n : Nat) : Codec (BitVec n) := Codec.nat.via BitVec.toNat (BitVec.ofNat n)
def Codec.word : Codec W64 := Codec.bits 64
def Codec.bool : Codec Bool := Codec.nat.via Bool.toNat (· != 0)
def Codec.int : Codec Int :=
  (Codec.bool.and Codec.nat).via (fun x => (decide (x < 0), x.natAbs)) fun x => if x.1 then -(x.2 : Int) else x.2
def Codec.opt {α : Type} (c : Codec α) : Codec (Option α) := c.list.via Option.toList List.head?
def Codec.nset : Codec NSet := Codec.nat.list
def Codec.tab {α : Type} (c : Codec α) : Codec (Tab α) := (Codec.nat.and c).list
def Codec.pair : Codec (Nat × Nat) := Codec.nat.and Codec.nat

/-- Bytes of a store of a size, whole. -/
def Codec.store (n : Nat) : Codec Memory := Codec.nat.via (fun m => leNat (m.read 0 n)) fun v => Memory.write [] 0 (leBytes n v)

/-! ### The access core and the rings -/

def Codec.run : Codec Run := Codec.nat.via (fun r => match r with | .idle => 0 | .staging => 1 | .running => 2 | .ended => 3)
  fun n => match n with | 0 => .idle | 1 => .staging | 2 => .running | _ => .ended

def Codec.loop : Codec Loop :=
  (Codec.word.and (Codec.word.and (Codec.word.and (Codec.bits 20)))).via
    (fun x => (x.count, x.sta, x.lend, x.cdepth))
    fun (a0, a1, a2, a3) =>
    { count := a0, sta := a1, lend := a2, cdepth := a3 }

def Codec.claim : Codec Claim := (Codec.nat.and Codec.word).via (fun c => match c with | .entry r q => (r, q) | .access => (3, 0))
  fun x => if x.1 = 3 then .access else .entry x.1 x.2

def Codec.token : Codec Token :=
  ((Codec.bits 32).and (Codec.nat.and (Codec.nat.and Codec.claim.list))).via
    (fun x => (x.value, x.praise, x.pwait, x.claims))
    fun (a0, a1, a2, a3) =>
    { value := a0, praise := a1, pwait := a2, claims := a3 }

/-- How a place was wrapped: each layer as 0 for sent, and from 1 on for used by a ring. -/
def LqSlot.layers : LqSlot → List Nat
  | .sent x => 0 :: x.layers
  | .used r x => (r + 1) :: x.layers
  | _ => []
def LqSlot.core : LqSlot → LqSlot
  | .sent x => x.core
  | .used _ x => x.core
  | x => x
def LqSlot.wrap : List Nat → LqSlot → LqSlot
  | [], x => x
  | 0 :: l, x => .sent (LqSlot.wrap l x)
  | (r + 1) :: l, x => .used r (LqSlot.wrap l x)

/-- A place without layers: kind, two numbers and two more, bytes. -/
def LqSlot.flat : LqSlot → Nat × List Nat × List Byte
  | .pending pa va len fmt enc => (0, [pa.toNat, va.toNat, len, fmt, enc.toNat], [])
  | .data b fmt => (1, [fmt], b)
  | .mark va h => (2, [va.toNat, h], [])
  | .sent _ => (3, [], [])
  | .used _ _ => (3, [], [])
def LqSlot.ofFlat (x : Nat × List Nat × List Byte) : LqSlot :=
  let n (i : Nat) : Nat := x.2.1.getD i 0
  match x.1 with
  | 0 => .pending (BitVec.ofNat 64 (n 0)) (BitVec.ofNat 64 (n 1)) (n 2) (n 3) (n 4 != 0)
  | 1 => .data x.2.2 (n 0)
  | _ => .mark (BitVec.ofNat 64 (n 0)) (n 1)

def Codec.lqSlot : Codec LqSlot :=
  (Codec.nat.list.and (Codec.nat.and (Codec.nat.list.and (Codec.bits 8).list))).via (fun x => (x.layers, x.core.flat))
    fun x => LqSlot.wrap x.1 (LqSlot.ofFlat x.2)

def Codec.loadQueue : Codec LoadQueue :=
  (Codec.nat.and (Codec.nat.and (Codec.nat.and (Codec.nat.opt.and Codec.lqSlot.tab)))).via
    (fun x => (x.issued, x.claimed, x.taken, x.standing, x.slots))
    fun (a0, a1, a2, a3, a4) =>
    { issued := a0, claimed := a1, taken := a2, standing := a3, slots := a4 }

def Codec.walk : Codec Walk :=
  (Codec.nat.and (Codec.nat.and (Codec.nat.and (Codec.nat.list.and (Codec.int.list.and (Codec.nat.and Codec.nat.opt)))))).via
    (fun x => (x.opb, x.elem, x.base, x.cnt, x.str, x.rowb, x.lq))
    fun (a0, a1, a2, a3, a4, a5, a6) =>
    { opb := a0, elem := a1, base := a2, cnt := a3, str := a4, rowb := a5, lq := a6 }

def Codec.port : Codec Port :=
  (Codec.walk.and (Codec.nat.and Codec.nat)).via
    (fun x => (x.walk, x.pos, x.first))
    fun (a0, a1, a2) =>
    { walk := a0, pos := a1, first := a2 }

def Codec.gang : Codec Gang :=
  (Codec.nset.and (Codec.nset.and (Codec.nset.and Codec.nat.tab))).via
    (fun x => (x.members, x.done, x.sent, x.ids))
    fun (a0, a1, a2, a3) =>
    { members := a0, done := a1, sent := a2, ids := a3 }

def Codec.progress : Codec Progress :=
  (Codec.nat.and (Codec.nat.and (Codec.bool.and (Codec.nat.and (Codec.bool.and (Codec.nat.and Codec.nat)))))).via
    (fun x => (x.rep, x.pos, x.lock, x.n, x.flag, x.a, x.b))
    fun (a0, a1, a2, a3, a4, a5, a6) =>
    { rep := a0, pos := a1, lock := a2, n := a3, flag := a4, a := a5, b := a6 }

def Codec.entry : Codec Entry :=
  ((Codec.bits 32).and ((Codec.bits 6).and ((Codec.bits 6).and (Codec.bool.and (Codec.bool.and (Codec.bool.and (Codec.bool.and
    (Codec.word.and (Codec.word.and (Codec.word.and (Codec.word.and (Codec.pair.list.and (Codec.pair.list.and (Codec.pair.opt.and
    (Codec.port.opt.and (Codec.gang.and (Codec.nset.and (Codec.bool.and (Codec.bool.and (Codec.progress.and
    Codec.bool)))))))))))))))))))).via
    (fun x => (x.word, x.waitk, x.raisek, x.tsm, x.held, x.stale, x.wdone, x.seq, x.capa, x.capb, x.shape, x.reads, x.writes, x.lqClaim,
      x.walk, x.gang, x.group, x.orphan, x.raised, x.prog, x.finished))
    fun (a0, a1, a2, a3, a4, a5, a6, a7, a8, a9, a10, a11, a12, a13, a14, a15, a16, a17, a18, a19, a20) =>
    { word := a0, waitk := a1, raisek := a2, tsm := a3, held := a4, stale := a5, wdone := a6, seq := a7, capa := a8
      capb := a9, shape := a10, reads := a11, writes := a12, lqClaim := a13, walk := a14, gang := a15, group := a16
      orphan := a17, raised := a18, prog := a19, finished := a20 }

def Codec.park : Codec Park :=
  (Codec.nat.and (Codec.bool.and Codec.nat)).via
    (fun x => (x.cause, x.handle, x.fnum))
    fun (a0, a1, a2) =>
    { cause := a0, handle := a1, fnum := a2 }

def Codec.ring : Codec Ring :=
  (Codec.entry.list.and (Codec.entry.list.and (Codec.nat.and (Codec.nat.and (Codec.nat.and (Codec.nat.opt.and (Codec.bool.and
    (Codec.progress.and (Codec.park.opt.and (Codec.word.opt.and ((Codec.word.and Codec.nat).opt.and Codec.nat))))))))))).via
    (fun x => (x.queue, x.past, x.rp, x.wp, x.pushed, x.win, x.trunc, x.prog, x.park, x.replayFor, x.diverged, x.retry))
    fun (a0, a1, a2, a3, a4, a5, a6, a7, a8, a9, a10, a11) =>
    { queue := a0, past := a1, rp := a2, wp := a3, pushed := a4, win := a5, trunc := a6, prog := a7, park := a8
      replayFor := a9, diverged := a10, retry := a11 }

/-! ### The engines -/

def Codec.vecCopy : Codec VecCopy :=
  (((Codec.bits 4096).vec 32).and (((Codec.bits 4096).vec 16).and (((Codec.bits 512).vec 8).and Codec.port.tab))).via
    (fun x => (x.v, x.q, x.m, x.ports))
    fun (a0, a1, a2, a3) =>
    { v := a0, q := a1, m := a2, ports := a3 }

/-- Image 0: the named file, the queue, the masks, the ports, the retained copy (R319). -/
def Codec.vecUnit : Codec VecUnit :=
  (((Codec.bits 4096).vec 32).and (((Codec.bits 4096).vec 16).and (((Codec.bits 512).vec 8).and (Codec.port.tab.and
    Codec.vecCopy.opt)))).via
    (fun x => (x.v, x.q, x.m, x.ports, x.copy))
    fun (a0, a1, a2, a3, a4) =>
    { ({} : VecUnit) with
      v := a0, q := a1, m := a2, ports := a3, copy := a4 }

def Codec.tile : Codec Tile :=
  ((Codec.store 32768).and ((Codec.store 4096).and Codec.bool)).via
    (fun x => (x.elems, x.scales, x.tr))
    fun (a0, a1, a2) =>
    { elems := a0, scales := a1, tr := a2 }

def Codec.accSlot : Codec Slot :=
  ((Codec.bits 32).tab.and (Codec.word.and (Codec.bool.and (Codec.bool.and (Codec.bool.and ((Codec.bits 32).tab.and
    ((Codec.bits 32).tab.and (Codec.bool.and (Codec.nat.and (Codec.nat.and Codec.nat)))))))))).via
    (fun x => (x.elems, x.pass, x.nan, x.inf, x.ovf, x.rows, x.cols, x.ckv, x.nanAt, x.infAt, x.ovfAt))
    fun (a0, a1, a2, a3, a4, a5, a6, a7, a8, a9, a10) =>
    { elems := a0, pass := a1, nan := a2, inf := a3, ovf := a4, rows := a5, cols := a6, ckv := a7, nanAt := a8, infAt := a9
      ovfAt := a10 }

def Codec.matCopy : Codec MatCopy :=
  ((Codec.tile.vec 8).and (Codec.accSlot.vec 8)).via
    (fun x => (x.tiles, x.slots))
    fun (a0, a1) =>
    { tiles := a0, slots := a1 }

/-- Of a frozen multiply, what is not in the spill: the pass values of the pending copy of its slot (R321). -/
def Codec.frozen : Codec Frozen :=
  (Codec.bits 32).tab.via
    (fun x => (x.done))
    fun (a0) =>
    { ({} : Frozen) with
      done := a0 }

/-- Image 1: the tiles, the slots with their checksum stores, the retained copy, the pending copy of a frozen multiply (R319, R321). -/
def Codec.matUnit : Codec MatUnit :=
  ((Codec.tile.vec 8).and ((Codec.accSlot.vec 8).and ((Codec.bool.vec 8).and (Codec.matCopy.opt.and Codec.frozen.opt)))).via
    (fun x => (x.tiles, x.slots, x.pushTr, x.copy, x.frozen))
    fun (a0, a1, a2, a3, a4) =>
    { ({} : MatUnit) with
      tiles := a0, slots := a1, pushTr := a2, copy := a3, frozen := a4 }

/-! ### What a core area holds beside (image 3) -/

def Codec.stampC : Codec Stamp :=
  (Codec.nat.and (Codec.nat.and Codec.nat)).via
    (fun x => (x.ck, x.rc, x.scope))
    fun (a0, a1, a2) =>
    { ck := a0, rc := a1, scope := a2 }

def Codec.fenceHalf : Codec FenceHalf :=
  (Codec.nat.and (Codec.nat.and (Codec.nat.and Codec.nat))).via
    (fun x => (x.scope, x.rc, x.lo, x.hi))
    fun (a0, a1, a2, a3) =>
    { scope := a0, rc := a1, lo := a2, hi := a3 }

def Codec.seenStamp : Codec SeenStamp :=
  (Codec.nat.and (Codec.nat.and (Codec.nat.and Codec.stampC))).via
    (fun x => (x.va, x.len, x.pa, x.stamp))
    fun (a0, a1, a2, a3) =>
    { va := a0, len := a1, pa := a2, stamp := a3 }

/-- The load-queue entries, and what of a thread the frame does not name: its predicates, claims, rings as captured, push-side ports, the iteration that the Weaver gave it. -/
def Codec.core : Codec Core :=
  (Codec.run.and ((Codec.park.and Codec.nat).opt.and ((Codec.bool.vec 8).and (Codec.token.tab.and ((Codec.loadQueue.vec 4).and
    (Codec.ring.and (Codec.ring.and (Codec.ring.and (Codec.port.tab.and (Codec.fenceHalf.list.and (Codec.seenStamp.list.and
    (Codec.word.list.and (Codec.nat.and (Codec.nat.and (Codec.nat.and (Codec.nat.and (Codec.nat.list.and (Codec.pair.list.and
    (Codec.pair.opt.and Codec.park.opt))))))))))))))))))).via
    (fun x => (x.run, x.fault, x.p, x.tokens, x.lq, x.vring, x.mring, x.cring, x.pushPorts, x.fences, x.seen, x.lateErr, x.slcore,
      x.thread, x.slot, x.node, x.index, x.stage, x.stageAt, x.stagePark))
    fun (a0, a1, a2, a3, a4, a5, a6, a7, a8, a9, a10, a11, a12, a13, a14, a15, a16, a17, a18, a19) =>
    { ({} : Core) with
      run := a0, fault := a1, p := a2, tokens := a3, lq := a4, vring := a5, mring := a6, cring := a7, pushPorts := a8
      fences := a9, seen := a10, lateErr := a11, slcore := a12, thread := a13, slot := a14, node := a15, index := a16
      stage := a17, stageAt := a18, stagePark := a19 }

/-! ### The slice image -/

def Codec.sliceBar : Codec SliceBar :=
  ((Codec.bits 32).and (Codec.nset.and (Codec.nat.and Codec.pair).list)).via
    (fun x => (x.gen, x.arr, x.rels))
    fun (a0, a1, a2) =>
    { gen := a0, arr := a1, rels := a2 }

def Codec.faultRec : Codec FaultRec :=
  (Codec.nat.and (Codec.nat.and (Codec.nat.and (Codec.nat.and Codec.word.list)))).via
    (fun x => (x.fnum, x.place, x.core, x.unit, x.words))
    fun (a0, a1, a2, a3, a4) =>
    { fnum := a0, place := a1, core := a2, unit := a3, words := a4 }

def Codec.slotState : Codec SlotState := Codec.nat.via (fun r => match r with | .empty => 0 | .loading => 1 | .resident => 2 | .unloading => 3)
  fun n => match n with | 0 => .empty | 1 => .loading | 2 => .resident | _ => .unloading

def Codec.modelSlot : Codec ModelSlot :=
  (Codec.word.list.and (Codec.slotState.and Codec.bool)).via
    (fun x => (x.words, x.state, x.pinned))
    fun (a0, a1, a2) =>
    { words := a0, state := a1, pinned := a2 }

def Codec.nodeRun : Codec NodeRun :=
  (Codec.bool.and (Codec.bool.and (Codec.nat.and (Codec.nat.and (Codec.nat.and Codec.nat))))).via
    (fun x => (x.started, x.retired, x.order, x.next, x.live, x.done))
    fun (a0, a1, a2, a3, a4, a5) =>
    { started := a0, retired := a1, order := a2, next := a3, live := a4, done := a5 }

def Codec.edgeRun : Codec EdgeRun :=
  (Codec.word.list.and Codec.nat).via
    (fun x => (x.entries, x.free))
    fun (a0, a1) =>
    { entries := a0, free := a1 }

def Codec.asker : Codec Asker :=
  (Codec.nat.and (Codec.word.and (Codec.nat.and Codec.pair.list.opt))).via
    (fun x => match x with | .host q t e => (q, t, e, none) | .batch ids => (0, 0, 0, some ids))
    fun x => match x.2.2.2 with | some ids => .batch ids | none => .host x.1 x.2.1 x.2.2.1

def Codec.invocation : Codec Invocation :=
  (Codec.nat.and (Codec.asker.and ((Codec.word.and Codec.word).list.and (Codec.nat.and (Codec.nodeRun.tab.and
    (Codec.edgeRun.tab.and (Codec.nat.tab.and (Codec.nat.and (Codec.nat.and Codec.word.opt))))))))).via
    (fun x => (x.slot, x.asker, x.bx, x.order, x.nodes, x.edges, x.trips, x.acts, x.done, x.fault))
    fun (a0, a1, a2, a3, a4, a5, a6, a7, a8, a9) =>
    { slot := a0, asker := a1, bx := a2, order := a3, nodes := a4, edges := a5, trips := a6, acts := a7, done := a8
      fault := a9 }

def Codec.reqState : Codec ReqState :=
  Codec.nat.via (fun r => match r with | .fetch => 0 | .ready => 1 | .running => 2 | .done => 3 | .cancelled => 4 | .failed => 5)
  fun n => match n with | 0 => .fetch | 1 => .ready | 2 => .running | 3 => .done | 4 => .cancelled | _ => .failed

def Codec.request : Codec Request :=
  (Codec.nat.and (Codec.nat.and (Codec.nat.opt.and (Codec.nat.and (Codec.nat.and (Codec.word.and (Codec.word.and
    (Codec.word.and (Codec.reqState.and (Codec.nat.and (Codec.nat.and (Codec.nat.and (Codec.nat.and (Codec.bool.and
    (Codec.nat.and (Codec.word.and (Codec.nat.and (Codec.nat.and (Codec.word.and Codec.nat)).opt))))))))))))))))).via
    (fun x => (x.slot, x.prio, x.pack, x.prompt, x.maxNew, x.inbuf, x.outbuf, x.kvlist, x.state, x.order, x.processed, x.generated, x.pos0,
      x.cancel, x.seq, x.tag, x.ep, x.packInfo))
    fun (a0, a1, a2, a3, a4, a5, a6, a7, a8, a9, a10, a11, a12, a13, a14, a15, a16, a17) =>
    { slot := a0, prio := a1, pack := a2, prompt := a3, maxNew := a4, inbuf := a5, outbuf := a6, kvlist := a7, state := a8
      order := a9, processed := a10, generated := a11, pos0 := a12, cancel := a13, seq := a14, tag := a15, ep := a16
      packInfo := a17 }

def Codec.sched : Codec Sched :=
  (Codec.nat.and (Codec.nat.and (Codec.word.and ((Codec.word.and Codec.word).list.and (Codec.nat.and (Codec.bool.and
    ((Codec.pair.list.and Codec.nat.opt).opt.and (Codec.nat.and (Codec.nat.and (Codec.word.and (Codec.word.and
    Codec.word).list))).opt))))))).via
    (fun x => (x.budget, x.maxBatch, x.table, x.bufs, x.iter, x.removed, x.retired, x.next))
    fun (a0, a1, a2, a3, a4, a5, a6, a7) =>
    { budget := a0, maxBatch := a1, table := a2, bufs := a3, iter := a4, removed := a5, retired := a6, next := a7 }

def Codec.pack : Codec Pack :=
  (Codec.nat.and (Codec.nat.and (Codec.word.and Codec.nat))).via
    (fun x => (x.place, x.tokens, x.list, x.pages))
    fun (a0, a1, a2, a3) =>
    { place := a0, tokens := a1, list := a2, pages := a3 }

/-- The Weaver's state, the relocation sets, the edge queues, the tables of slots, requests and groups, the barriers (R319). -/
def Codec.slice : Codec Slice :=
  (Codec.word.and (Codec.word.and (Codec.nset.tab.and (Codec.sliceBar.tab.and (Codec.faultRec.list.and (Codec.nat.and
    (Codec.faultRec.list.and (Codec.modelSlot.tab.and (Codec.invocation.list.and (Codec.invocation.list.and (Codec.nat.and
    (Codec.pair.opt.and (Codec.sched.tab.and (Codec.request.tab.and (Codec.pack.tab.and Codec.nat))))))))))))))).via
    (fun x => (x.s1root, x.fltbase, x.groups, x.bars, x.faults, x.nextF, x.late, x.slots, x.active, x.waiting, x.started, x.served,
      x.scheds, x.reqs, x.packs, x.admitted))
    fun (a0, a1, a2, a3, a4, a5, a6, a7, a8, a9, a10, a11, a12, a13, a14, a15) =>
    { ({} : Slice) with
      s1root := a0, fltbase := a1, groups := a2, bars := a3, faults := a4, nextF := a5, late := a6, slots := a7
      active := a8, waiting := a9, started := a10, served := a11, scheds := a12, reqs := a13, packs := a14, admitted := a15 }

/-! ### The inbox section -/

def Codec.inboxEntry : Codec InboxEntry :=
  (Codec.nat.and (Codec.nat.and (Codec.word.and (Codec.nat.and (Codec.word.and (Codec.word.list.and (Codec.bool.and
    (Codec.bool.and (Codec.bool.and Codec.bool))))))))).via
    (fun x => (x.seq, x.op, x.tag, x.ep, x.hdr, x.payload, x.wellFormed, x.delivered, x.inhand, x.reprise))
    fun (a0, a1, a2, a3, a4, a5, a6, a7, a8, a9) =>
    { seq := a0, op := a1, tag := a2, ep := a3, hdr := a4, payload := a5, wellFormed := a6, delivered := a7, inhand := a8
      reprise := a9 }

def Codec.message : Codec Message :=
  (Codec.nat.and (Codec.nat.and Codec.word.list)).via
    (fun x => (x.node, x.ep, x.words))
    fun (a0, a1, a2) =>
    { node := a0, ep := a1, words := a2 }

/-- NEXT, the entries, the last 256 completions. -/
def Codec.inbox : Codec Inbox :=
  (Codec.nat.and (Codec.inboxEntry.tab.and (Codec.nat.and Codec.message).list)).via
    (fun x => (x.next, x.entries, x.sent))
    fun (a0, a1, a2) =>
    { next := a0, entries := a1, sent := a2 }

/-! ### Bytes -/

def wordAt (bs : List Byte) (i : Nat) : W64 := bytesWord (bs.drop (8 * i))
def bytesWords (bs : List Byte) : List W64 := (List.range (bs.length / 8)).map (wordAt bs)

/-- The bytes of a value, and the value that bytes begin with. -/
def Codec.bytes {α : Type} (c : Codec α) (a : α) : List Byte := (c.put a).flatMap wordBytes
def Codec.read {α : Type} (c : Codec α) (bs : List Byte) : Option α := (c.get (bytesWords bs)).map (·.1)

/-- A set of numbers below 64 n as n words, and back. -/
def bitmapWords (t : NSet) (n : Nat) : List W64 :=
  (List.range n).map fun i => BitVec.ofNat 64 ((t.filter fun a => a / 64 = i).foldl (fun x a => x + 2 ^ (a % 64)) 0)
def bitmapSet (ws : List W64) : NSet := (List.range (64 * ws.length)).filter fun a => (ws.getD (a / 64) 0).getLsbD (a % 64)

end Sys2Proof.Machine
end

