-- ==== Sys2Proof/Machine/Engine.lean ====
section
/-!
DEFINITION. The engines' side of the rings: when the entry at the read pointer starts (R146, R149, R152, R317), how it
completes (R146, R149, R153), parks (R302, R303) and is replayed (R306).
-/
namespace Sys2Proof.Machine

/-- The ring r of the acting core, and its head entry (an empty entry where the ring is empty). -/
def State.ring (s : State) (r : Nat) : Ring := s.me.ring r
def State.setRing (s : State) (r : Nat) (x : Ring) : State := s.setMe (s.me.setRing r x)
def State.entry (s : State) (r : Nat) : Entry := (s.ring r).queue.headD {}
def State.setEntry (s : State) (r : Nat) (e : Entry) : State :=
  let x := s.ring r
  s.setRing r { x with queue := match x.queue with | [] => [] | _ :: t => e :: t }

/-! ### Parks -/

/-- A staging copy meets an error that no handler serves (R48), and that has been counted: the invocation ends with the cause, and
the core is free again. -/
def State.stageEnd (s : State) (cause : Nat) (va : W64) : State :=
  let s := s.writeRecord s.node { s.coreRec s.cur cause 5 with sev := 4, kind := endKind cause 0 true, addr := va }
  s.stageStop s.cur (faultDetail va s.me.slcore cause)

/-- A ring that repeats the translations of its entry meets the cause that it is parked for: its record keeps its FNUM and takes the new
addresses and descriptor, with a record (R323). -/
def State.renewFault (s : State) (r : Nat) (p : Park) (va : W64) (ipa : Nat) (desc : W64) : State :=
  let new (f : FaultRec) : FaultRec :=
    if f.core == s.cur && f.unit == ringUnit r then { f with words := [f.words.getD 0 0, va, BitVec.ofNat 64 ipa, desc] ++ f.words.drop 4 } else f
  let s := s.setRing r { s.ring r with retry := 0 }
  let s := match p.handle, s.me.slice with
    | false, some sk =>
      let sl := s.slice sk
      let s := s.putSlice sk { sl with faults := sl.faults.map new, late := sl.late.map new }
      (sl.faults.filter fun (f : FaultRec) => f.core == s.cur && f.unit == ringUnit r).foldl (fun (s : State) f => s.storeFault sk (new f)) s
    | _, _ => s.putPkg s.node { s.pkg s.node with faults := (s.pkg s.node).faults.map new }
  s.record s.node { s.coreRec s.cur 0xDA (ringUnit r) with addr := (s.entry r).seq }

/-- A ring that has repeated the translations of its entry does not meet its cause again: its record is withdrawn, and the entry goes on
(R323). -/
def State.passRetry (s : State) (r : Nat) : State :=
  if (s.ring r).retry ≠ 2 then s
  else ((s.setRing r { s.ring r with park := none, retry := 0 }).withdraw s.cur (ringUnit r)).wake (.ring s.cur r)

/-- The entries of a ring in their order again, after one has executed ahead of a running one (R183). -/
def Ring.back (x : Ring) : Ring := { x with queue := x.aside ++ x.queue, aside := [] }

/-- Parks a ring of the acting core at its head entry (R6, R302). An entry that was started ahead of its turn (R183) is started again
in its turn instead. Unit 3 stands for the core's staging copy (R48): its
translation faults are served as a ring's are. -/
def State.parkAs (s : State) (r kind cause level : Nat) (va : W64) (ipa : Nat) (desc : W64) : State :=
  if r = 3 then
    match (s.core s.cur).slice, toHandle cause with
    | some sk, false =>
      if 0x40 ≤ cause && cause < 0x50 then
        -- each translation fault has its record (R73)
        let (p, s) := s.raiseFault s.cur 5 kind cause level va ipa desc 0
        if s.hasHandler sk then s.setMe { s.me with stagePark := some p } else s.stageEnd cause va
      else (s.count s.node cause).stageEnd cause va
    | _, _ =>
      let (p, s) := s.raiseFault s.cur 5 kind cause level va ipa desc 0
      s.setMe { s.me with stagePark := some p }
  else if (s.ring r).aside ≠ [] then s.setRing r (s.ring r).back
  else
    match (s.ring r).park, (s.ring r).retry == 2 && (s.ring r).park.any (·.cause == cause) with
    | some p, true => s.renewFault r p va ipa desc
    | _, _ =>
      match (s.passRetry r).unitFault s.cur (ringUnit r) kind cause level va ipa desc (s.entry r).seq with
      | (some p, s) => s.setRing r { s.ring r with park := some p }
      | (none, s) => s

/-- A park with a cause that is not a translation cause; DESC as R302 gives. -/
def State.park (s : State) (r cause : Nat) (va desc : W64) : State := s.parkAs r 0 cause 0xF va 0 desc

/-- Unit r of the acting core goes on with what it does later: a ring, or the staging copy (3). -/
def State.engLater (s : State) (r : Nat) : State := if r = 3 then s.wake (.event (.threadStart s.node (ckCore s.cur))) else s.wake (.ring s.cur r)

/-- A translation fault of an engine command (R72), or a walk that waits (R281). -/
def State.parkX (s : State) (r : Nat) (k : Kind) (f : XFault) (va : W64) : State :=
  if f = .wait then s.engLater r else s.parkAs r k.code f.cause f.level va f.ipa f.desc

/-! ### Completion -/

/-- Entries of a ring's retained window, oldest first (R153). -/
def Ring.window (x : Ring) : List Entry :=
  match x.win with
  | none => []
  | some w => (x.past.take (x.rp - w)).reverse

/-- How many entries behind the read pointer are not free: those that it is less than 64 past, and the window (R145). -/
def Ring.kept (x : Ring) : Nat := max 63 (match x.win with | some w => x.rp - w | none => 0)

/-- Moves the read pointer past the head entry, and keeps the window of at most 512 (R145, R153) with the 63 entries before it, which
a repeat of the window may execute (R154). -/
def Ring.retire (x : Ring) : Ring :=
  match x.queue with
  | [] => x
  | e :: t =>
    let rp := x.rp + 1
    let above := match x.win with | some w => 512 < rp - w | none => false
    let win := if above then some (rp - 512) else x.win
    let keep := 63 + (match win with | some w => rp - w | none => 0)
    { x with
      queue := t, past := (e :: x.past).take keep, rp := rp, win := win, trunc := x.trunc || above, prog := (t.headD {}).prog
      replayFor := if x.replayFor = some e.seq then none else x.replayFor }

/-- An entry that has completed ahead of a running one stands behind that in its place: the read pointer has not passed it (R183). -/
def Ring.finish (x : Ring) : Ring :=
  match x.queue with
  | [] => x.back
  | e :: t => { x with queue := x.aside ++ { e with finished := true, raised := true } :: t, aside := [] }

/-- Every rld of a core has been answered: its bytes, or its error mark, stand in the load queue (R330). -/
def Core.rldsAnswered (c : Core) : Bool :=
  c.lq.toList.all fun l => l.slots.all fun e => match e.2 with
    | .pending .. => false
    | .sent _ => false
    | _ => true

/-- A store of a core is on its way (R281). -/
def State.storesOut (s : State) (ck : Nat) : Bool := (s.pkg (ckNode ck)).outstanding.any fun o => o.2.any fun q => q.core == ck

/-- Whether every ring of a core has drained, with its transfers, the parts that arrived at it, its rlds, and its stores: the end of a
thread is a release, behind every earlier access (R255, R330). -/
def State.drained (s : State) (ck : Nat) : Bool :=
  let c := s.core ck
  c.vring.queue.isEmpty && c.mring.queue.isEmpty && c.cring.queue.isEmpty && c.mat.parts.isEmpty &&
    !(s.transfers.any fun h => h.core == ck) && c.rldsAnswered && !s.storesOut ck

/-- Once an ended thread's core has drained, its end takes place (R137, R330). -/
def State.checkDrained (s : State) (ck : Nat) : State :=
  if (s.core ck).run == .ended && s.drained ck then s.wake (.event (.threadEnd (ckNode ck) (ckCore ck))) else s

/-- Applies a raise (R149); a saturated VALUE changes nothing and is recorded with 0x93 (R235). -/
def State.raiseToken (s : State) (ck k : Nat) : State :=
  let (full, c) := (s.core ck).addValue k
  let s := (s.putCore ck c).wakeClaims ck k
  if full then s.record (ckNode ck) { s.coreRec ck 0x93 1 with addr := BitVec.ofNat 64 k } else s

/-- The head entry of a ring of the acting core has completed: its raise, the read pointer, the window. -/
def State.entryDone (s : State) (r : Nat) : State :=
  let e := s.entry r
  let s := s.setRing r (if (s.ring r).aside = [] then (s.ring r).retire else (s.ring r).finish)
  let s :=
    if e.raisek = 0 || e.raised then s
    else
      let t := s.me.token e.raisek.toNat
      (s.setMe (s.me.setToken e.raisek.toNat { t with praise := t.praise - 1 })).raiseToken s.cur e.raisek.toNat
  (s.wake (.ring s.cur r)).checkDrained s.cur

/-! ### Replay -/

/-- The state that a ring retains at its window's first entry, restored (R160, R199, R306); the banks wake (R309). -/
def Core.restoreWindow (c : Core) (r : Nat) : Core :=
  match r, c.vec.copy, c.mat.copy with
  | 0, some k, _ => { c with vec := { c.vec with v := k.v, q := k.q, m := k.m, ports := k.ports, gated := [] } }
  | 1, _, some k => { c with mat := { c.mat with tiles := k.tiles, slots := k.slots } }
  | _, _, _ => c

/-- An entry of a window as the replay executes it again: it does not wait or raise again, and a ganged multiply forms its own part
again (R153). -/
def Entry.again (e : Entry) (slcore : Nat) : Entry :=
  { e with raised := true, wdone := true, prog := {}, finished := false, gang := { e.gang with done := e.gang.done.del slcore } }

/-- An entry consumed an uncorrectable error at an address (R305, R306): the window is run again from its first entry after the
retained state is restored, with a record; entries behind it that had completed ahead of their turn are executed again, too, since the
restore has taken their effects away (R183). addr says that the value logged is an address: a tile register's is its number. A truncated window parks with 0xE1, an error in the same replay with 0xE2; the slots and
tiles then hold the retained state, too. -/
def State.consumeError (s : State) (r : Nat) (va : W64) (addr : Bool := true) : State :=
  if r = 3 then (s.count s.node 0x61).stageEnd 0x61 va
  else if (s.ring r).aside ≠ [] then s.setRing r (s.ring r).back
  else
  let x := s.ring r
  let e := s.entry r
  if x.replayFor.isSome then (s.setMe (s.me.restoreWindow r)).park r 0xE2 va 0
  else
    match x.win, x.trunc with
    | some w, false =>
      let s := s.record s.node { s.coreRec s.cur 0xE0 (ringUnit r) with kind := if addr then 1 else 0, addr := va, detail := e.seq }
      let again := x.window.map (·.again s.me.slcore)
      let left := x.queue.map fun f => if f.finished then f.again s.me.slcore else f
      let queue := again ++ (if r = 2 then { e with prog := x.prog } :: x.queue.tail else left)
      let x' := { x with
        queue := queue, past := x.past.drop again.length, rp := w, replayFor := some e.seq, prog := (queue.headD {}).prog }
      (s.setMe ((s.me.setRing r x').restoreWindow r)).wake (.ring s.cur r)
    | _, _ => (s.setMe (s.me.restoreWindow r)).park r 0xE1 va 0

/-! ### Starting an entry -/

/-- Whether two byte ranges meet in 64-byte lines, rounded outward (R151). -/
def meets (a b : Nat × Nat) : Bool := a.1 / 64 < (b.2 + 63) / 64 && b.1 / 64 < (a.2 + 63) / 64
def anyMeet (a b : List (Nat × Nat)) : Bool := a.any fun x => b.any (meets x)

/-- Rand (R152): an earlier-pushed entry of another ring still holds this one. What an entry reads is held as long as a replay may read it
again: one that has completed ahead of its turn (R183) is behind the start of its ring's window. The hold stands also where the other ring
waits for what this entry raises (log entry 104). -/
def Core.randHolds (c : Core) (r : Nat) (e : Entry) : Bool :=
  [0, 1, 2].any fun o =>
    o != r &&
      let x := c.ring o
      (x.queue.any fun f => f.seq.toNat < e.seq.toNat &&
        (!f.finished && (anyMeet f.writes e.reads || anyMeet f.writes e.writes) || (!f.finished || x.win.isSome) && anyMeet f.reads e.writes)) ||
      (x.window.any fun f => f.seq.toNat < e.seq.toNat && anyMeet f.reads e.writes)

/-- The head entry of a ring has started and is in execution: a repeat, a batch or a sketch command part done, a ganged multiply
whose parts are sent, or a cldr.sw that waits at its switch. -/
def State.inExecution (s : State) (r : Nat) : Bool :=
  (s.ring r).prog != {} || (r == 1 && (s.entry r).gang.sent != []) ||
    (r == 2 && s.switches.any fun w => (w.2.answers.get? s.cur).isSome || w.2.ctxs.any fun x => x.2.waiters.has s.cur)

/-- A ring is kept from starting its head entry by a stop of the slice (R317, R318, R324). -/
def State.stopHolds (s : State) (r : Nat) (e : Entry) : Bool :=
  match s.me.slice with
  | none => false
  | some sk =>
    match (s.slice sk).stop with
    | .running => false
    | .stopping => !s.inExecution r && (r != 1 || e.tsm || s.me.mat.frozen.isSome)
    | .freezing => !s.inExecution r
    | _ => true

/-- The scratchpad address of a ring entry (R142). -/
def entryAddr (ck r n : Nat) : Nat := padBase ck + ringRegion + 0x8000 * r + 32 * (n % 1024)

/-- The four words of a ring entry (Table 9.1). -/
def Entry.words (e : Entry) : List W64 :=
  let flag (b : Bool) (i : Nat) : Nat := if b then 2 ^ i else 0
  [BitVec.ofNat 64 (e.word.toNat * 2 ^ 32 + e.waitk.toNat * 2 ^ 26 + e.raisek.toNat * 2 ^ 20 + flag e.tsm 19 + flag e.held 18 +
      flag e.stale 17 + flag e.wdone 16 + e.seq.fld 0 16), e.capa, e.capb, e.shape]
def Entry.bytes (e : Entry) : List Byte := e.words.flatMap wordBytes

/-- Opens the window at an entry with TSM = 1 and keeps the engine's copy (R153, R160, R199). -/
def Core.openWindow (c : Core) (r : Nat) (e : Entry) : Core :=
  if !e.tsm || (c.ring r).replayFor.isSome || ((c.ring r).win == some (c.ring r).rp && !(c.ring r).trunc) then c
  else
    let c := (c.dropUsed r).setRing r { c.ring r with win := some (c.ring r).rp, trunc := false }
    match r with
    | 0 => { c with vec := { c.vec with copy := some { v := c.vec.v, q := c.vec.q, m := c.vec.m, ports := c.vec.ports } } }
    | 1 => { c with mat := { c.mat with copy := some { tiles := c.mat.tiles, slots := c.mat.slots } } }
    | _ => c

/-- Takes a met wait (R149). -/
def Core.takeWait (c : Core) (r : Nat) (e : Entry) : Core :=
  let k := e.waitk.toNat
  let t := c.token k
  c.setToken k { t with value := t.value - 1, pwait := t.pwait - 1, claims := t.claims.filter (· ≠ .entry r e.seq) }

/-- What a turn of an agent comes to: an instruction to execute, or nothing more. -/
inductive Turn where
  | exec (i : Instr) (s : State)
  | idle (s : State)

/-- The engine decoder of a ring's stream (R100). A ring entry was admitted at push, so it decodes. -/
def decodeEngine (r : Nat) (w : W32) : Except EncCause Instr :=
  if r = 0 then decodeVector w else if r = 1 then decodeMatrix w else decodeCopy w

/-- An arrived part of a ganged multiply goes before later entries that name what it names (R193). -/
def Core.partHolds (c : Core) (r : Nat) (e : Entry) : Bool :=
  r == 1 && c.mat.parts.any fun p => p.after ≤ c.mring.rp && (matrixNames p.word).any fun n => n ∈ matrixNames e.word

/-- A ring repeats the translations of its entry now (R323): the restore that it belongs to is under way, and the slice has a function
(R329). -/
def State.retries (s : State) (r : Nat) : Bool :=
  (s.ring r).retry == 1 && match s.me.slice with
    | some sk => s.sliceFunc sk != 0 && match (s.pkg (skNode sk)).ctxop with
      | some (2, n, _, _) => n == skNum sk
      | _ => false
    | none => false

/-- A ring does not start its head entry: it is parked, a stop holds it, or the entry waits for its copy. The entry of a ring that
repeats its translations starts all the same. -/
def State.ringHeld (s : State) (r : Nat) (e : Entry) : Bool := !s.retries r && ((s.ring r).park.isSome || s.stopHolds r e || e.held)

/-- The unit that a matrix word belongs to, as Table 11.1 gives: tile, array, epilogue; mnop belongs to none. -/
def matrixUnit (w : W32) : Option Nat :=
  let op := w.fld 27 5
  if op ∈ [0x01, 0x02, 0x03, 0x04, 0x15, 0x16, 0x17] then some 0 else if 0x05 ≤ op && op ≤ 0x08 then some 1 else if op = 0x18 then none else some 2

/-- A started matrix entry is still running when its turn ends: a ganged multiply that lacks parts, or a tile load that lacks places of
its load queue. -/
def Core.stillRuns (c : Core) (e : Entry) : Bool :=
  (e.gang.sent != [] && !(e.gang.members.all e.gang.done.has)) ||
    match e.lqClaim with
    | none => false
    | some (first, n) => (List.range n).any fun i => match c.lq[Fin.ofNat 4 e.capa.toNat].slots.get? (first + i) with
      | some (.data ..) => false
      | some (.used ..) => false
      | some (.mark ..) => false
      | _ => true

/-- Whether an entry's wait is met: it has none, it has taken it, or it is the first to claim a token whose VALUE is not 0 (R149). -/
def Core.waitMet (c : Core) (r : Nat) (e : Entry) : Bool :=
  let t := c.token e.waitk.toNat
  e.waitk = 0 || e.wdone || (t.claims.head? == some (.entry r e.seq) && t.value ≠ 0)

/-- The entry that may start while the head entry of the matrix ring is still running (R183): the first behind it that has not
completed, of another unit, with its wait met and nothing to hold it, that names neither tile nor slot of the running one or of an
arrived part. The model starts none ahead that opens a window, sends parts, or might meet an error that the environment has in store:
such an entry starts in its turn (log entry 13). -/
def State.aheadOf (s : State) (r : Nat) (e : Entry) : Option (List Entry × Entry × List Entry) :=
  let x := s.ring r
  if r ≠ 1 || !s.me.stillRuns e then none
  else
    let behind := x.queue.tail.dropWhile (·.finished)
    match behind with
    | [] => none
    | f :: t =>
      let names := matrixNames f.word
      let clear (w : W32) : Bool := !((matrixNames w).any (· ∈ names))
      let quiet := s.me.upsets.isEmpty && s.soft.isEmpty && s.poison.isEmpty && !s.stopAsked
      let gang := f.word.fld 27 5 == 0x07 || f.word.fld 27 5 == 0x08
      if quiet && !gang && !f.held && !f.stale && !f.tsm && !f.orphan && matrixUnit f.word != matrixUnit e.word && clear e.word &&
          (s.me.mat.parts.all fun p => clear p.word) && !s.me.stillRuns f && s.me.waitMet r f && !s.me.randHolds r f
      then some (x.queue.take (x.queue.length - behind.length), f, t) else none

/-- Puts an entry that starts ahead of a running one at the head, with its wait taken. -/
def State.startAhead (s : State) (r : Nat) (ahead : List Entry) (f : Entry) (t : List Entry) : State :=
  let waits := f.waitk ≠ 0 && !f.wdone
  let s := if waits then (s.setMe (s.me.takeWait r f)).wakeClaims s.cur f.waitk.toNat else s
  s.setRing r { s.ring r with aside := ahead, queue := { f with wdone := f.wdone || waits } :: t }

/-- The turn of a started entry: its window opens, if it is a tile-start marker, and it executes; while one that is still running does, an
entry behind it may start instead. -/
def State.startTurn (s : State) (r : Nat) (e : Entry) : Turn :=
  let s := s.setMe (s.me.openWindow r e)
  let own (s : State) : Turn :=
    match decodeEngine r e.word with
    | .ok i => .exec i s
    | .error _ => .idle s
  match s.aheadOf r e with
  | none => own s
  | some (ahead, f, t) =>
    let (now, s) := s.pickBool
    match now, decodeEngine r f.word with
    | true, .ok j => .exec j (s.startAhead r ahead f t)
    | _, _ => own (s.wake (.ring s.cur r))

/-- A turn of a ring's engine of the acting core: its head entry starts if nothing holds it; the read pointer passes one that has
completed before. -/
def State.ringTurn (s : State) (r : Nat) : Turn :=
  let x := s.ring r
  match x.queue with
  | [] => .idle (s.checkDrained s.cur)
  | e :: _ =>
    if e.finished then .idle (((s.setRing r x.retire).wake (.ring s.cur r)).checkDrained s.cur)
    else if s.ringHeld r e then .idle s
    else
    let s := if x.retry = 1 then s.setRing r { x with retry := 2 } else s
    let s := if s.soft.isEmpty then s else s.correct s.cur (entryAddr s.cur r x.rp) 32
    if (s.poisonAt (entryAddr s.cur r x.rp) 32).isSome then .idle (s.park r 0x6C e.seq 0)
    else if e.stale then .idle (s.park r 0x31 0 0)
    else
      if !s.me.waitMet r e then
        if e.orphan && !s.me.canMeet r e then .idle (s.park r 0x81 (e.waitk.setWidth 64) 0) else .idle s
      else
        let s := if e.waitk ≠ 0 && !e.wdone then ((s.setMe (s.me.takeWait r e)).setEntry r { e with wdone := true }).wakeClaims s.cur e.waitk.toNat else s
        if s.me.randHolds r e || s.me.partHolds r e then .idle (s.wake (.ring s.cur r)) else s.startTurn r e

end Sys2Proof.Machine
end

