-- ==== Sys2Proof/Machine/Float.lean ====
section
/-!
DEFINITION. Number formats (R81 to R87), exact arithmetic on them with one rounding (R86, R88), the approximate functions
(R169, R196), block scales and block quantisation (R89 to R92), and the shadow of the vector engine (R180).
-/
namespace Sys2Proof.Machine

/-! ### Formats and values -/

/-- A floating-point format (Table 6.1): exponent and fraction widths, bias, and what the top exponent means: 0 infinity and
NaN, 1 (e4m3) NaN only where the fraction is all ones, 2 (e2m1) neither. -/
structure FFmt where
  eb : Nat
  mb : Nat
  bias : Nat
  special : Nat
  deriving DecidableEq, Repr

def f32 : FFmt := { eb := 8, mb := 23, bias := 127, special := 0 }
def f16 : FFmt := { eb := 5, mb := 10, bias := 15, special := 0 }
def bf16 : FFmt := { eb := 8, mb := 7, bias := 127, special := 0 }
def e4m3 : FFmt := { eb := 4, mb := 3, bias := 7, special := 1 }
def e5m2 : FFmt := { eb := 5, mb := 2, bias := 15, special := 0 }
def e2m1 : FFmt := { eb := 2, mb := 1, bias := 1, special := 2 }

/-- The significand of a code, with its leading bit. -/
def FFmt.sig (f : FFmt) (c : Nat) : Nat := if bits c f.mb f.eb = 0 then bits c 0 f.mb else 2 ^ f.mb + bits c 0 f.mb

/-- Width in bits. -/
def FFmt.width (f : FFmt) : Nat := 1 + f.eb + f.mb

/-- An exact value: NaN, an infinity, or (−1)^neg × m × 2^e, where m = 0 is a signed zero. -/
inductive FVal where
  | nan
  | inf (neg : Bool)
  | fin (neg : Bool) (m : Nat) (e : Int)
  deriving DecidableEq, Repr

/-- R81: the value of a code. -/
def FFmt.value (f : FFmt) (c : Nat) : FVal :=
  let neg := bit c (f.eb + f.mb)
  let x := bits c f.mb f.eb
  let q := bits c 0 f.mb
  let top := x == 2 ^ f.eb - 1
  if top && f.special == 0 then (if q = 0 then .inf neg else .nan)
  else if top && f.special == 1 && q == 2 ^ f.mb - 1 then .nan
  else if x = 0 then .fin neg q (1 - (f.bias : Int) - f.mb)
  else .fin neg (2 ^ f.mb + q) ((x : Int) - f.bias - f.mb)

/-- R85: the canonical NaN; e2m1 cannot express NaN, and a conversion to it gives +0 (Table 6.3). -/
def FFmt.qnan (f : FFmt) : Nat :=
  if f.special = 0 then (2 ^ f.eb - 1) * 2 ^ f.mb + 2 ^ (f.mb - 1) else if f.special = 1 then 2 ^ (f.eb + f.mb) - 1 else 0

/-- Largest finite magnitude, as a code. -/
def FFmt.largest (f : FFmt) : Nat :=
  if f.special = 0 then (2 ^ f.eb - 1) * 2 ^ f.mb - 1 else if f.special = 1 then 2 ^ (f.eb + f.mb) - 2 else 2 ^ (f.eb + f.mb) - 1

def FFmt.sign (f : FFmt) (neg : Bool) (c : Nat) : Nat := if neg then 2 ^ (f.eb + f.mb) + c else c

/-- Exponent of the leading bit of a non-zero magnitude. -/
def lead (m : Nat) (e : Int) : Int := (Nat.log2 m : Int) + e

/-- Rounds m × 2^e to a whole multiple of 2^q in a mode of R86: the multiple. -/
def roundTo (mode : Nat) (neg : Bool) (m : Nat) (e q : Int) : Nat :=
  if q ≤ e then m * 2 ^ (e - q).toNat
  else
    let sh := (q - e).toNat
    let n := m / 2 ^ sh
    let r := m % 2 ^ sh
    let up := match mode with
      | 0 => 2 ^ sh < 2 * r || (2 * r == 2 ^ sh && n % 2 == 1)
      | 1 => false
      | 2 => neg && r != 0
      | _ => !neg && r != 0
    if up then n + 1 else n

/-- What a finite value rounds to: the code of its magnitude before the overflow rule, and whether it overflows the
format. -/
def FFmt.roundMag (f : FFmt) (mode : Nat) (neg : Bool) (m : Nat) (e : Int) : Nat × Bool :=
  if m = 0 then (0, false)
  else
    let low : Int := 1 - (f.bias : Int) - f.mb
    let q := max (lead m e - f.mb) low
    let n := roundTo mode neg m e q
    -- a carry into the next power of two moves the exponent up
    let (n, q) := if n = 2 ^ (f.mb + 1) then (2 ^ f.mb, q + 1) else (n, q)
    let code := if n < 2 ^ f.mb then n else ((q - low).toNat + 1) * 2 ^ f.mb + (n - 2 ^ f.mb)
    (code, f.largest < code)

/-- Table 6.3: the outcome of an overflow. -/
def FFmt.overflow (f : FFmt) (mode : Nat) (sat neg : Bool) : Nat :=
  let ieeeInf := mode == 0 || (mode == 3 && !neg) || (mode == 2 && neg)
  if ieeeInf && !sat then
    if f.special = 0 then f.sign neg ((2 ^ f.eb - 1) * 2 ^ f.mb) else if f.special = 1 then f.qnan else f.sign neg f.largest
  else f.sign neg f.largest

/-- R87: conversion of an exact value to a format: the code, and whether a finite value overflowed. -/
def FFmt.convert (f : FFmt) (mode : Nat) (sat : Bool) : FVal → Nat × Bool
  | .nan => (f.qnan, false)
  | .inf neg =>
    (if f.special = 2 || sat then f.sign neg f.largest
     else if f.special = 1 then f.qnan else f.sign neg ((2 ^ f.eb - 1) * 2 ^ f.mb), false)
  | .fin neg m e =>
    let (c, above) := f.roundMag mode neg m e
    if above then (f.overflow mode sat neg, true) else (f.sign neg c, false)

def FFmt.round (f : FFmt) (mode : Nat) (v : FVal) : Nat := (f.convert mode false v).1

/-- R87: conversion to an integer of n bits: rounded, then saturated; the flag says that a finite value was out of
range. -/
def toInteger (signed : Bool) (n mode : Nat) (v : FVal) : Nat × Bool :=
  let hi : Int := if signed then 2 ^ (n - 1) - 1 else 2 ^ n - 1
  let lo : Int := if signed then -(2 ^ (n - 1)) else 0
  let code (x : Int) : Nat := (BitVec.ofInt n x).toNat
  match v with
  | .nan => (0, false)
  | .inf neg => (code (if neg then lo else hi), false)
  | .fin neg m e =>
    let k : Int := (roundTo mode neg m e 0 : Nat)
    let x := if neg then -k else k
    (code (max lo (min hi x)), x < lo || hi < x)

/-- An integer as an exact value. -/
def ofInteger (x : Int) : FVal := .fin (decide (x < 0)) x.natAbs 0
/-- A code of n bits read as a signed or an unsigned integer. -/
def intOf (signed : Bool) (n c : Nat) : Int := if signed then (BitVec.ofNat n c).toInt else ((c % 2 ^ n : Nat) : Int)

/-! ### Exact arithmetic (R88) -/

def FVal.neg : FVal → FVal
  | .nan => .nan
  | .inf s => .inf (!s)
  | .fin s m e => .fin (!s) m e
def FVal.abs : FVal → FVal
  | .nan => .nan
  | .inf _ => .inf false
  | .fin _ m e => .fin false m e

/-- A signed multiple of 2^q of a finite value with q at or below its exponent. -/
def scaled (neg : Bool) (m : Nat) (e q : Int) : Int :=
  let k : Int := (m * 2 ^ (e - q).toNat : Nat)
  if neg then -k else k

/-- The exact sum; an exact zero takes the sign that IEEE 754 gives it in the mode. -/
def FVal.add (mode : Nat) : FVal → FVal → FVal
  | .nan, _ => .nan
  | _, .nan => .nan
  | .inf s, .inf t => if s = t then .inf s else .nan
  | .inf s, .fin _ _ _ => .inf s
  | .fin _ _ _, .inf t => .inf t
  | .fin s m e, .fin t n d =>
    let q := min e d
    let x := scaled s m e q + scaled t n d q
    if x = 0 then .fin (if s = t then s else mode == 2) 0 0 else .fin (decide (x < 0)) x.natAbs q

def FVal.mul : FVal → FVal → FVal
  | .nan, _ => .nan
  | _, .nan => .nan
  | .inf s, .inf t => .inf (s != t)
  | .inf s, .fin t n _ => if n = 0 then .nan else .inf (s != t)
  | .fin s m _, .inf t => if m = 0 then .nan else .inf (s != t)
  | .fin s m e, .fin t n d => .fin (s != t) (m * n) (e + d)

/-- Comparison of two values that are no NaN: less than, with −0 = +0. -/
def FVal.lt : FVal → FVal → Bool
  | .nan, _ => false
  | _, .nan => false
  | .inf s, .inf t => s && !t
  | .inf s, .fin _ _ _ => s
  | .fin _ _ _, .inf t => !t
  | .fin s m e, .fin t n d => decide (scaled s m e (min e d) < scaled t n d (min e d))

def FVal.isNan : FVal → Bool
  | .nan => true
  | _ => false
def FVal.isInf : FVal → Bool
  | .inf _ => true
  | _ => false
def FVal.isFin : FVal → Bool
  | .fin _ _ _ => true
  | _ => false
def FVal.negative : FVal → Bool
  | .nan => false
  | .inf s => s
  | .fin s _ _ => s
def FVal.isZero : FVal → Bool
  | .fin _ m _ => m == 0
  | _ => false

/-! ### f32 operations -/

def v32 (c : Nat) : FVal := f32.value c
def addF (mode x y : Nat) : Nat := f32.round mode ((v32 x).add mode (v32 y))
def subF (mode x y : Nat) : Nat := f32.round mode ((v32 x).add mode (v32 y).neg)
def mulF (mode x y : Nat) : Nat := f32.round mode ((v32 x).mul (v32 y))
def fmaF (x y z : Nat) : Nat := f32.round 0 (((v32 x).mul (v32 y)).add 0 (v32 z))

/-- R166: the lesser; −0 < +0; a NaN yields to the other. -/
def minF (x y : Nat) : Nat :=
  let a := v32 x
  let b := v32 y
  if a.isNan && b.isNan then f32.qnan
  else if a.isNan then y
  else if b.isNan then x
  else if a.isZero && b.isZero then (if a.negative then x else y)
  else if b.lt a then y else x
def maxF (x y : Nat) : Nat :=
  let a := v32 x
  let b := v32 y
  if a.isNan && b.isNan then f32.qnan
  else if a.isNan then y
  else if b.isNan then x
  else if a.isZero && b.isZero then (if a.negative then y else x)
  else if a.lt b then y else x
def absF (x : Nat) : Nat := if (v32 x).isNan then f32.qnan else x % 2 ^ 31
def negF (x : Nat) : Nat := if (v32 x).isNan then f32.qnan else if bit x 31 then x % 2 ^ 31 else x % 2 ^ 31 + 2 ^ 31

/-- R168: conditions 0 eq, 1 ne, 2 lt, 3 le. -/
def condF (c x y : Nat) : Bool :=
  let a := v32 x
  let b := v32 y
  if a.isNan || b.isNan then c == 1
  else
    let eq := !a.lt b && !b.lt a
    match c with
    | 0 => eq
    | 1 => !eq
    | 2 => a.lt b
    | _ => a.lt b || eq
def condI (c : Nat) (x y : Int) : Bool :=
  match c with
  | 0 => x == y
  | 1 => x != y
  | 2 => decide (x < y)
  | _ => decide (x ≤ y)

/-! ### Approximate functions: exact results to more than 80 binary places -/

/-- Fixed-point numbers of the approximations have 160 binary places. -/
def fixOne : Nat := 2 ^ 160
/-- ln 2, log2 e, and 2 log2 e √(2/π), in fixed point. -/
def fixLn2 : Nat := 0xb17217f7d1cf79abc9e3b39803f2f6af40f34326
def fixLog2E : Nat := 0x171547652b82fe1777d0ffda0d23a7d11d6aef551
def fixGelu : Nat := 0x24d5d84379ceb2976942cda18a76c51f965d787bd

/-- A finite value in fixed point. -/
def toFix (neg : Bool) (m : Nat) (e : Int) : Int :=
  let k : Int := (if -160 ≤ e then m * 2 ^ (e + 160).toNat else m / 2 ^ (-e - 160).toNat : Nat)
  if neg then -k else k

/-- The exponential series of y below 1, from its term i down. -/
def expSeries (y : Nat) : Nat → Nat → Nat
  | 0, acc => acc
  | i + 1, acc => expSeries y i (fixOne + y * acc / ((i + 1) * fixOne))

/-- 2^z of a fixed-point z: a number and an exponent. -/
def exp2Fix (z : Int) : Nat × Int :=
  (expSeries ((z % (fixOne : Int)).toNat * fixLn2 / fixOne) 40 fixOne, z / (fixOne : Int) - 160)

/-- n / (1 + 2^z). -/
def overOnePlus (neg : Bool) (m : Nat) (e z : Int) : FVal :=
  if 600 * (fixOne : Int) < z then .fin neg 0 0
  else if z < -400 * (fixOne : Int) then .fin neg m e
  else
    let x := exp2Fix z
    .fin neg (m * 2 ^ 1500 / (2 ^ 720 + x.1 * 2 ^ (x.2 + 720).toNat)) (e - 780)

/-- The integer square root, from bit i down. -/
def sqrtBits (n : Nat) : Nat → Nat → Nat
  | 0, r => r
  | i + 1, r => sqrtBits n i (if (r + 2 ^ i) * (r + 2 ^ i) ≤ n then r + 2 ^ i else r)

/-- Bits of log2 of f / 2^256 in [1, 2), most significant first. -/
def log2Bits : Nat → Nat → Nat → Nat
  | 0, _, acc => acc
  | n + 1, f, acc =>
    let g := f * f / 2 ^ 256
    if 2 ^ 257 ≤ g then log2Bits n (g / 2) (2 * acc + 1) else log2Bits n g (2 * acc)

/-- A code lies within k × 2^q of an exact value. -/
def within (a : FVal) (k : Nat) (q : Int) (c : Nat) : Bool :=
  (v32 c).isFin && !(FVal.fin false k q).lt ((v32 c).add 0 a.neg).abs

/-- A fixed function's code where it keeps an error bound of k × 2^q about an exact value and does not make a number a zero
(R84); the value rounded to nearest elsewhere (log entry 7). -/
def keepNear (a : FVal) (k : Nat) (q : Int) (c : Nat) : Nat :=
  let r := f32.round 0 a
  if within a k q c && (r % 2 ^ 31 == 0 || c % 2 ^ 31 != 0) then c else r

/-- The exponent of a unit in the last place of an exact value in f32, subnormal range included (R169). -/
def ulpOf : FVal → Int
  | .fin _ m e => if m = 0 then -149 else max (lead m e - 23) (-149)
  | _ => -149

/-- A fixed function's code within k units in the last place. -/
def nearUlp (a : FVal) (k c : Nat) : Nat := keepNear a k (ulpOf a) c

/-! ### Approximate functions (R169, R196) -/

/-- The exponent of an exact power of two. -/
def powerOfTwo (m : Nat) (e : Int) : Option Int := if m ≠ 0 ∧ 2 ^ Nat.log2 m = m then some (lead m e) else none
def raw (f : W32 → W32) (x : Nat) : Nat := (f (BitVec.ofNat 32 x)).toNat
def infF (neg : Bool) : Nat := f32.sign neg (255 * 2 ^ 23)
def zeroF (neg : Bool) : Nat := f32.sign neg 0
def oneF (neg : Bool) : Nat := f32.sign neg (127 * 2 ^ 23)

/-- 1 / x of a non-zero value. -/
def rcpOf (s : Bool) (m : Nat) (e : Int) : FVal := .fin s (2 ^ 200 / m) (-e - 200)
/-- Whether an exact magnitude is beyond the largest finite f32. -/
def beyondF (a : FVal) : Bool := (FVal.fin false (2 ^ 24 - 1) 104).lt a.abs

def rcpF (x : Nat) : Nat :=
  match v32 x with
  | .nan => f32.qnan
  | .inf s => zeroF s
  | .fin s m e =>
    if m = 0 then infF s
    else match powerOfTwo m e with
      | some k => f32.round 0 (.fin s 1 (-k))
      | none => if beyondF (rcpOf s m e) then infF s else nearUlp (rcpOf s m e) 1 (raw Config.rcp x)

/-- 1 / √x of a positive value. -/
def rsqrtOf (m : Nat) (e : Int) : FVal :=
  let m' := if e % 2 = 0 then m else 2 * m
  .fin false (sqrtBits (2 ^ 320 / m') 161 0) (-160 - e / 2)

def rsqrtF (x : Nat) : Nat :=
  match v32 x with
  | .nan => f32.qnan
  | .inf s => if s then f32.qnan else zeroF false
  | .fin s m e =>
    if m = 0 then infF s
    else if s then f32.qnan
    else match powerOfTwo m e with
      | some k => if k % 2 = 0 then f32.round 0 (.fin false 1 (-(k / 2))) else nearUlp (rsqrtOf m e) 1 (raw Config.rsqrt x)
      | none => nearUlp (rsqrtOf m e) 1 (raw Config.rsqrt x)

def exp2F (x : Nat) : Nat :=
  match v32 x with
  | .nan => f32.qnan
  | .inf s => if s then zeroF false else infF false
  | .fin s m e =>
    let v := FVal.fin s m e
    if !v.lt (ofInteger 128) then infF false
    else if v.lt (ofInteger (-150)) then zeroF false
    else
      let near : Nat :=
        let p := exp2Fix (toFix s m e)
        nearUlp (.fin false p.1 p.2) 2 (raw Config.exp2 x)
      let whole : Option Int :=
        if 0 ≤ e then some (scaled s m e 0)
        else if m % 2 ^ (-e).toNat = 0 then some (if s then -((m / 2 ^ (-e).toNat : Nat) : Int) else ((m / 2 ^ (-e).toNat : Nat) : Int)) else none
      match whole with
      | some k => if -149 ≤ k then f32.round 0 (.fin false 1 k) else near
      | none => near

/-- log2 of a positive value. -/
def log2Of (m : Nat) (e : Int) : FVal :=
  let l : Int := lead m e * 2 ^ 120 + (log2Bits 120 (m * 2 ^ 256 / 2 ^ Nat.log2 m) 0 : Nat)
  .fin (decide (l < 0)) l.natAbs (-120)

def log2F (x : Nat) : Nat :=
  match v32 x with
  | .nan => f32.qnan
  | .inf s => if s then f32.qnan else infF false
  | .fin s m e =>
    if m = 0 then infF true
    else if s then f32.qnan
    else match powerOfTwo m e with
      | some k => f32.round 0 (ofInteger k)
      | none =>
        if lead m e = -1 ∨ lead m e = 0 then keepNear (log2Of m e) 1 (-22) (raw Config.log2 x) else nearUlp (log2Of m e) 2 (raw Config.log2 x)

/-- tanh of a magnitude below 9.125. -/
def tanhOf (s : Bool) (m : Nat) (e : Int) : FVal :=
  let p := exp2Fix (toFix false m e * 2 * fixLog2E / fixOne)
  let x := p.1 * 2 ^ (p.2 + 400).toNat
  .fin s ((x - 2 ^ 400) * 2 ^ 300 / (x + 2 ^ 400)) (-300)

def tanhF (x : Nat) : Nat :=
  match v32 x with
  | .nan => f32.qnan
  | .inf s => oneF s
  | .fin s m e =>
    let a := FVal.fin false m e
    if a.lt (.fin false 1 (-12)) then x
    else if !a.lt (.fin false 73 (-3)) then oneF s
    else nearUlp (tanhOf s m e) 2 (raw Config.tanh x)

/-- The exact results of gelu as x / (1 + e^(−2u)), of silu and of sigmoid. -/
def geluOf (s : Bool) (m : Nat) (e : Int) : FVal :=
  let w := toFix s m e + toFix s (m * m * m * 44715) (3 * e) / 1000000
  overOnePlus s m e (-(w * fixGelu) / fixOne)
def siluOf (s : Bool) (m : Nat) (e : Int) : FVal := overOnePlus s m e (-(toFix s m e * fixLog2E) / fixOne)
def sigmoidOf (s : Bool) (m : Nat) (e : Int) : FVal := overOnePlus false 1 0 (-(toFix s m e * fixLog2E) / fixOne)

/-- R196: activation function F of Table 11.2. -/
def actF (fn x : Nat) : Nat :=
  match v32 x, fn with
  | .nan, _ => f32.qnan
  | v, 0 => if (FVal.fin false 0 0).lt v then x else zeroF false
  | .inf s, 1 => if s then zeroF true else infF false
  | .inf s, 2 => if s then zeroF true else infF false
  | .inf s, _ => if s then zeroF false else oneF false
  | .fin s m e, 1 => nearUlp (geluOf s m e) 4 (raw Config.gelu x)
  | .fin s m e, 2 => nearUlp (siluOf s m e) 3 (raw Config.silu x)
  | .fin s m e, _ => nearUlp (sigmoidOf s m e) 2 (raw Config.sigmoid x)

/-! ### Formats by code -/

/-- The float format of a code of Tables 4.2 and 5.4. -/
def fmtOf (c : Nat) : Option FFmt :=
  match c with
  | 0x01 => some bf16
  | 0x02 => some f16
  | 0x03 => some e4m3
  | 0x04 => some e5m2
  | 0x06 => some e2m1
  | 0x14 => some f32
  | _ => none

/-- Geometry of a block format, its element format and the exponent of its largest element (R89, R92). -/
def blockG (c : Nat) : Nat := match c % 4 with | 0 => 16 | 1 => 24 | _ => 32
def blockElem (c : Nat) : FFmt := if c < 0x0C then e2m1 else e4m3
def blockEmax (c : Nat) : Int := if c < 0x0C then 2 else 8

/-- R89: the value of an element under a scale byte. -/
def scaledValue (f : FFmt) (c scale : Nat) : FVal :=
  if scale = 255 then .nan
  else match f.value c with
    | .fin s m e => .fin s m (e + scale - 127)
    | v => v

/-- R92: block quantisation of f32 codes: the scale byte and the element codes. -/
def quantise (code mode : Nat) (xs : List Nat) : Nat × List Nat :=
  let vs := xs.map v32
  if vs.any fun v => !v.isFin then (255, xs.map fun _ => 0)
  else
    let top := vs.foldl (fun (acc : FVal) v => if acc.lt v.abs then v.abs else acc) (.fin false 0 0)
    let xsc : Int := match top with
      | .fin _ m e => if m = 0 then -127 else max (-127) (min 127 (lead m e - blockEmax code))
      | _ => -127
    ((xsc + 127).toNat, vs.map fun v =>
      match v with
      | .fin s m e => ((blockElem code).convert mode true (.fin s m (e - xsc))).1
      | v => ((blockElem code).convert mode true v).1)

/-! ### Element streams -/

/-- Elements of w bits packed in a number, least first (R82). -/
def packBits (w : Nat) : List Nat → Nat
  | [] => 0
  | x :: t => x % 2 ^ w + 2 ^ w * packBits w t
def unpackBits (w : Nat) (x : Nat) : Nat → List Nat
  | 0 => []
  | n + 1 => x % 2 ^ w :: unpackBits w (x / 2 ^ w) n

/-- Elements of w bits as bytes. -/
def packBytes (w : Nat) (l : List Nat) : List Byte := leBytes ((l.length * w + 7) / 8) (packBits w l)
def unpackBytes (w n : Nat) (bs : List Byte) : List Nat := unpackBits w (leNat bs) n

/-! ### The vector shadow (R180) -/

/-- Sign, exponent field and top n fraction bits of a normal f32 code, truncated. -/
def topBits (n c : Nat) : Nat := c / 2 ^ (23 - n) * 2 ^ (23 - n)
def normalF (c : Nat) : Bool := 0 < bits c 23 8 && bits c 23 8 < 255
def trunc8 (c : Nat) : FVal := v32 (topBits 8 c)

/-- Sign, biased exponent and top four fraction bits of the shadow's result. One beyond the format is the greatest finite
number, as the main result is where it is checked then (log entry 64). -/
def shadowOf : FVal → Option (Bool × Int × Nat)
  | .fin s m e =>
    if m = 0 then none
    else if 127 < lead m e then some (s, 254, 15)
    else some (s, lead m e + 127, roundTo 1 false m e (lead m e - 4) - 16)
  | _ => none

/-- Whether the main result of a sum or product diverges from its shadow. opps says that the operands of a sum have
opposite signs, and larger is the larger exponent field of them. -/
def divergesF (inputs : List Nat) (main : Nat) (sh : FVal) (opps : Bool) (larger : Int) : Bool :=
  let em : Int := bits main 23 8
  let checked := inputs.all normalF && normalF main && !(opps && em < larger)
  checked &&
    match shadowOf sh with
    | none => true
    | some (ss, es, fs) =>
      let lo := min em es
      let vm : Int := ((16 + bits main 19 4) * 2 ^ (em - lo).toNat : Nat)
      let vs : Int := ((16 + fs) * 2 ^ (es - lo).toNat : Nat)
      ss != bit main 31 || 2 < (vm - vs).natAbs

def divAdd (x y main : Nat) : Bool :=
  divergesF [x, y] main ((trunc8 x).add 0 (trunc8 y)) (bit x 31 != bit y 31) (max (bits x 23 8) (bits y 23 8))
def divMul (x y main : Nat) : Bool := divergesF [x, y] main ((trunc8 x).mul (trunc8 y)) false 0
def divFma (x y z main : Nat) : Bool :=
  let p := (v32 x).mul (v32 y)
  let pe : Int := match p with | .fin _ m e => if m = 0 then 0 else lead m e + 127 | _ => 0
  divergesF [x, y, z] main (((trunc8 x).mul (trunc8 y)).add 0 (trunc8 z)) (p.negative != bit z 31) (max pe (bits z 23 8))

end Sys2Proof.Machine
end

