-- ==== Sys2Proof/Machine/Operands.lean ====
section
/-!
DEFINITION. Operands of the engines: captured shapes (Table 4.4), the own scratchpad as the engines reach it (R142, R270,
R305), port walks (R163, R164), block images (R91), and the vector sources and destinations (R157, R158).
-/
namespace Sys2Proof.Machine

/-! ### Captured shapes (Table 4.4) -/

def shLGR (sh : W64) : Nat := sh.fld 0 10
def shLPAD (sh : W64) : Nat := sh.fld 10 10
def shFMT (sh : W64) : Nat := sh.fld 56 5
def shMGR (sh : W64) : Nat := sh.fld 0 8
def shMPAD (sh : W64) : Nat := sh.fld 8 8
def shNGR (sh : W64) : Nat := sh.fld 16 8
def shNPAD (sh : W64) : Nat := sh.fld 24 8
def shKGR (sh : W64) : Nat := sh.fld 32 10
def shKPAD (sh : W64) : Nat := sh.fld 42 10

/-- Element bits of a format code (Tables 4.2 and 5.4); 0 for a reserved code. -/
def fmtBits (f : Nat) : Nat :=
  match f with
  | 0x01 => 16 | 0x02 => 16 | 0x03 => 8 | 0x04 => 8 | 0x05 => 8 | 0x06 => 4
  | 0x08 => 4 | 0x09 => 4 | 0x0A => 4 | 0x0C => 8 | 0x0D => 8 | 0x0E => 8
  | 0x10 => 8 | 0x11 => 16 | 0x12 => 32 | 0x13 => 64 | 0x14 => 32 | 0x15 => 32
  | _ => 0

/-- Up to the next multiple of 64. -/
def up64 (n : Nat) : Nat := (n + 63) / 64 * 64

/-- Bytes of the block image of a number of elements, or of a plain stream (R91, img of R183). -/
def imgBytes (f n : Nat) : Nat := if blockCode f then up64 ((n * fmtBits f + 7) / 8) + n / blockG f else (n * fmtBits f + 7) / 8

/-! ### The own scratchpad -/

/-- Runs of rising neighbouring addresses, each within one 64-byte line: first address and length. -/
def runsOf : List Nat → List (Nat × Nat)
  | [] => []
  | a :: t =>
    match runsOf t with
    | (b, n) :: r => if b = a + 1 && b % 64 != 0 then (a, n + 1) :: r else (a, 1) :: (b, n) :: r
    | [] => [(a, 1)]

/-- The addresses of a range. -/
def span (off n : Nat) : List Nat := (List.range n).map (off + ·)

def padPage (ck off : Nat) : Page := { pa := padBase ck + off, left := 0 }

/-- The first race of an engine access to own scratchpad bytes, with the line's record (R270). -/
def State.padRace (s : State) (as : List Nat) : Option (Nat × W64) :=
  (runsOf as).findSome? fun x => (s.raceAt s.cur (padPage s.cur x.1) x.2).map fun r => (x.1, r)

/-- The first poisoned byte of a list of own scratchpad addresses. -/
def State.padPoison (s : State) (as : List Nat) : Option Nat :=
  if s.poison.isEmpty then none
  else (runsOf as).findSome? fun x => (s.poisonAt (padBase s.cur + x.1) x.2).map (· - padBase s.cur)

/-- An entry of ring r reads own scratchpad bytes: an uncorrectable error starts a replay, a race parks. -/
def State.padRead (s : State) (r : Nat) (as : List Nat) : Res (List Byte) :=
  match s.padPoison as with
  | some a => .stop (s.consumeError r (BitVec.ofNat 64 a))
  | none =>
    match s.padRace as with
    | some (a, w) => .stop (s.park r 0x70 (BitVec.ofNat 64 a) w)
    | none =>
      let s := if s.soft.isEmpty then s else (runsOf as).foldl (fun s x => s.correct s.cur (padBase s.cur + x.1) x.2) s
      .ok (as.map fun a => s.mem.get (padBase s.cur + a)) s

/-- Whether an entry may write own scratchpad bytes; a race parks before any byte is written. -/
def State.padMay (s : State) (r : Nat) (as : List Nat) : Res Unit :=
  match s.padRace as with
  | some (a, w) => .stop (s.park r 0x71 (BitVec.ofNat 64 a) w)
  | none => .ok () s

/-- Writes own scratchpad bytes at a list of addresses. -/
def State.padPut (s : State) : List (Nat × Nat) → List Byte → State
  | [], _ => s
  | (a, n) :: t, bs =>
    let pg := padPage s.cur a
    ((s.poke none pg.pa (bs.take n)).noteWrite s.cur pg n).padPut t (bs.drop n)

/-- The first byte of the ring region that a staging copy would write (R142). -/
def ringByte (r : Nat) (as : List Nat) : Option Nat := if r = 3 then as.find? (ringRegion ≤ ·) else none

/-- Writes own scratchpad bytes after their check. A staging copy that reaches the ring region is refused: its home records 0x64,
and the error response ends the invocation (R48, R142). -/
def State.padWrite (s : State) (r : Nat) (as : List Nat) (bs : List Byte) : Res Unit :=
  match ringByte r as with
  | some a => .stop ((s.refuse (s.party s.cur) (padBase s.cur + a) 0x64).park r 0x60 (BitVec.ofNat 64 a) 0x64)
  | none =>
    match s.padMay r as with
    | .stop s => .stop s
    | .ok () s => .ok () (s.padPut (runsOf as) bs)

/-! ### Port walks (R163) -/

/-- Offset of operand n of a walk. -/
def walkOff (w : Walk) (n : Nat) : Int :=
  let c0 := w.cnt.getD 0 1
  let c1 := w.cnt.getD 1 1
  let c2 := w.cnt.getD 2 1
  (n % c0 : Nat) * w.str.getD 0 0 + (n / c0 % c1 : Nat) * w.str.getD 1 0 + (n / (c0 * c1) % c2 : Nat) * w.str.getD 2 0 +
    (n / (c0 * c1 * c2) : Nat) * w.str.getD 3 0

/-- Where a logical byte of a skewed tile with rows of 64 × rowb bytes stands, from its base. -/
def skewed (rowb : Nat) (o : Nat) : Nat :=
  let rb := 64 * rowb
  let row := o / rb
  row * rb + (o % rb / 64 + row) % rowb * 64 + o % 64

/-- Address of a walk's byte at a logical offset. -/
def walkByte (w : Walk) (o : Int) : Int := if w.rowb = 0 then w.base + o else w.base + (skewed w.rowb o.toNat : Nat)

/-- Addresses of the first n bytes of operand k. -/
def walkAddrs (w : Walk) (k n : Nat) : List Nat :=
  let o := walkOff w k
  (List.range n).map fun (j : Nat) => (walkByte w (o + (j : Int))).toNat

/-- Operands of a walk. -/
def walkCount (w : Walk) : Nat := w.cnt.foldl (· * ·) 1

/-- Least and greatest operand offset of a walk, by levels. -/
def extremes (l : List (Nat × Int)) : Int × Int :=
  l.foldl (fun (acc : Int × Int) x =>
    let d := ((x.1 - 1 : Nat) : Int) * x.2
    (acc.1 + min 0 d, acc.2 + max 0 d)) (0, 0)

/-- Operand offsets of a walk that lie between two bounds; a level whose operands all lie outside is skipped. -/
def offsBetween (lo hi : Int) : List (Nat × Int) → Int → List Int
  | [], b => if lo ≤ b && b ≤ hi then [b] else []
  | (c, st) :: t, b =>
    let x := extremes ((c, st) :: t)
    if b + x.2 < lo || hi < b + x.1 then []
    else (List.range c).flatMap fun (j : Nat) => offsBetween lo hi t (b + (j : Int) * st)

/-- Lowest and highest byte of a walk (R164). Under SKEW they lie in its lowest and highest rows. -/
def walkRange (w : Walk) : Int × Int :=
  let levels := (w.cnt.zip w.str).reverse
  let x := extremes levels
  if w.rowb = 0 then ((w.base : Int) + x.1, (w.base : Int) + x.2 + w.opb - 1)
  else
    let rb : Int := 64 * w.rowb
    let rowOf (o : Int) : Int := o.ediv rb
    let inRow (r : Int) : List Int :=
      (offsBetween (r * rb - w.opb + 1) (r * rb + rb - 1) levels 0).flatMap fun o =>
        (List.range w.opb).filterMap fun (k : Nat) => if rowOf (o + (k : Int)) = r then some (walkByte w (o + (k : Int))) else none
    let lows := inRow (rowOf x.1)
    let highs := inRow (rowOf (x.2 + w.opb - 1))
    (lows.foldl min (lows.headD 0), highs.foldl max (highs.headD 0))

/-! ### Vector sources (R157) -/

/-- The first n bytes of a port's next operand. A load-queue entry that has not arrived keeps the entry waiting; an error
mark parks with 0x60 (R165). -/
def State.portRead (s : State) (p n : Nat) : Res (List Byte) :=
  match s.me.vec.ports.get? p with
  | none => .ok (List.replicate n 0) s
  | some port =>
    match port.walk.lq with
    | none => s.padRead 0 (walkAddrs port.walk port.pos n)
    | some q =>
      match (s.me.lq[Fin.ofNat 4 q]).slots.get? (port.first + port.pos) with
      | some (.data bs _) => .ok ((bs ++ List.replicate n 0).take n) s
      | some (.used _ (.data bs _)) => .ok ((bs ++ List.replicate n 0).take n) s
      | some (.mark va h) => .stop (s.park 0 0x60 va (BitVec.ofNat 64 h))
      | _ => .stop (s.wake (.ring s.cur 0))

/-- What an entry reads: the values of the input ports it names, each taken once. -/
abbrev PortVals := Tab Nat

/-- Reads the distinct ports among source specifiers, n bytes each. -/
def State.readPorts (s : State) (n : Nat) : List Nat → PortVals → Res PortVals
  | [], acc => .ok acc s
  | v :: t, acc =>
    if 0x30 ≤ v && v < 0x38 && (acc.get? (v - 0x30)).isNone then
      match s.portRead (v - 0x30) n with
      | .stop s => .stop s
      | .ok bs s => s.readPorts n t (acc.put (v - 0x30) (leNat bs))
    else s.readPorts n t acc

/-- e bits repeated in n lanes. -/
def repeatLanes (e n v : Nat) : Nat := packBits e (List.replicate n (v % 2 ^ e))

/-- The value of a source specifier as a number of n × e bits or more. -/
def Core.source (c : Core) (ent : Entry) (vals : PortVals) (e n v : Nat) : Nat :=
  if v < 0x20 then (c.vec.v[Fin.ofNat 32 v]).toNat
  else if v < 0x30 then (c.vec.q[Fin.ofNat 16 v]).toNat
  else if v < 0x38 then Tab.getD vals (v - 0x30) 0
  else if v = 0x38 then repeatLanes e n ent.capa.toNat
  else if v = 0x39 then repeatLanes e n ent.capb.toNat
  else 0

/-- Lanes below L of a source; lanes from L to P read 0. -/
def lanesOf (e L P x : Nat) : List Nat := (unpackBits e x L) ++ List.replicate (P - L) 0

/-- Bit j of a mask register; vm0 reads as all ones (R159). -/
def Core.maskBit (c : Core) (m j : Nat) : Bool := m = 0 || bit (c.vec.m[Fin.ofNat 8 m]).toNat j

/-! ### Vector destinations (R158) -/

/-- What a vector entry produces: lanes of a width (none is not produced), with whether the bytes behind them become 0; or
the bytes of a block image. -/
inductive VRes where
  | lanes (w : Nat) (l : List (Option Nat)) (clear : Bool)
  | image (bs : List Byte)
  deriving DecidableEq, Repr

/-- Replaces the produced lanes of a number. -/
def mergeLanes (w old : Nat) : List (Option Nat) → Nat
  | [] => old
  | none :: t => old % 2 ^ w + 2 ^ w * mergeLanes w (old / 2 ^ w) t
  | some v :: t => v % 2 ^ w + 2 ^ w * mergeLanes w (old / 2 ^ w) t

/-- The value a result leaves in a place that held a value. -/
def VRes.onto (r : VRes) (old : Nat) : Nat :=
  match r with
  | .lanes w l clear => mergeLanes w (if clear then old % 2 ^ (w * l.length) else old) l
  | .image bs => leNat bs

/-- The bytes that a result writes to memory: offset from the operand's address, and value; nibbles not produced keep the
old byte's. -/
def VRes.stores (r : VRes) (old : List Byte) : List (Nat × Byte) :=
  match r with
  | .image bs => (List.range bs.length).zip bs
  | .lanes w l _ =>
    let merged := leBytes old.length (mergeLanes w (leNat old) l)
    let hit (k : Nat) : Bool := (l.zip (List.range l.length)).any fun x => x.1.isSome && x.2 * w / 8 ≤ k && k ≤ (x.2 * w + w - 1) / 8
    ((List.range merged.length).zip merged).filter fun x => hit x.1

/-- Advances a port by a number of operands. -/
def VecUnit.advance (u : VecUnit) (p n : Nat) : VecUnit :=
  match u.ports.get? p with
  | none => u
  | some x => { u with ports := u.ports.put p { x with pos := x.pos + n } }

/-- Shifts a result into the queue. -/
def VecUnit.push (u : VecUnit) (v : Nat) : VecUnit :=
  { u with q := Vector.ofFn fun (i : Fin 16) => if i.val = 0 then BitVec.ofNat 4096 v else u.q[i.val - 1] }

/-- Takes the load-queue place that a bound port's operand came from. -/
def Core.takePort (c : Core) (p : Nat) : Core :=
  match c.vec.ports.get? p with
  | none => c
  | some x =>
    match x.walk.lq with
    | none => c
    | some q =>
      let n := Fin.ofNat 4 q
      { c with lq := c.lq.set n (c.lq[n].take (c.keeper 0) (x.first + x.pos)) }

/-- Advances the ports that were read, taking their load-queue entries. -/
def Core.popPorts (c : Core) (vals : PortVals) : Core :=
  vals.foldl (fun c p => let c := c.takePort p.1; { c with vec := c.vec.advance p.1 1 }) c

/-- Writes a result to output port p's next operand. -/
def State.portWrite (s : State) (p : Nat) (r : VRes) : Res Unit :=
  match s.me.vec.ports.get? (8 + p) with
  | none => .ok () s
  | some port =>
    let n := match r with | .lanes w l _ => (w * l.length + 7) / 8 | .image bs => bs.length
    let addrs := walkAddrs port.walk port.pos n
    let old := addrs.map fun a => s.mem.get (padBase s.cur + a)
    let st := r.stores old
    match s.padWrite 0 (st.map fun x => addrs.getD x.1 0) (st.map (·.2)) with
    | .stop s => .stop s
    | .ok () s => .ok () (s.setMe { s.me with vec := s.me.vec.advance (8 + p) 1 })

/-- Whether n bytes of the operand k places behind output port p's next may be written. -/
def State.portMay (s : State) (p k n : Nat) : Res Unit :=
  match s.me.vec.ports.get? (8 + p) with
  | none => .ok () s
  | some port => s.padMay 0 (walkAddrs port.walk (port.pos + k) n)

/-- R158: everything that a completed entry does at once, but for its raise: the destination, the queue, the ports. -/
def State.deliverV (s : State) (d : Nat) (vals : PortVals) (r : VRes) : Res Unit :=
  let fin (s : State) : State :=
    let c := s.me.popPorts vals
    s.setMe { c with vec := c.vec.push (r.onto 0) }
  if d < 0x20 then
    let u := s.me.vec
    let i := Fin.ofNat 32 d
    .ok () (fin (s.setMe { s.me with vec := { u with v := u.v.set i (BitVec.ofNat 4096 (r.onto (u.v[i]).toNat)) } }))
  else if 0x30 ≤ d && d < 0x34 then
    match s.portWrite (d - 0x30) r with
    | .stop s => .stop s
    | .ok () s => .ok () (fin s)
  else .ok () (fin s)

end Sys2Proof.Machine
end

