-- ==== Sys2Proof/Machine/Flags.lean ====
section
/-!
DEFINITION. The status bits of an accumulator slot (R95), the window sum of a pass (R94), checksums (R190) and the array's
column shadow (R191).
-/
namespace Sys2Proof.Machine

/-! ### Status bits (R95) -/

/-- A drain adds to the bits; a bit keeps the cycle of the drain that set it. -/
def Slot.join (sl : Slot) (now : Nat) (nan inf ovf : Bool) : Slot :=
  { sl with
    nan := sl.nan || nan, inf := sl.inf || inf, ovf := sl.ovf || ovf
    nanAt := if nan && !sl.nan then now else sl.nanAt
    infAt := if inf && !sl.inf then now else sl.infAt
    ovfAt := if ovf && !sl.ovf then now else sl.ovfAt }

/-- Examines values that a command read or wrote. -/
def Slot.examine (sl : Slot) (now : Nat) (vs : List Nat) : Slot :=
  sl.join now (vs.any fun v => (v32 v).isNan) (vs.any fun v => (v32 v).isInf) false

/-- An epilogue conversion overflowed. -/
def Slot.overflowed (sl : Slot) (now : Nat) (o : Bool) : Slot := sl.join now false false o

/-- An overwriting multiply and mzero clear the bits. -/
def Slot.clearBits (sl : Slot) : Slot := { sl with nan := false, inf := false, ovf := false }

/-- The status word. -/
def Slot.status (sl : Slot) : W64 := BitVec.ofNat 64 (sl.nan.toNat + 2 * sl.inf.toNat + 4 * sl.ovf.toNat)

/-! ### Passes (R94) -/

/-- The finite products other than zeros, and the exponent of the largest. -/
def finOf (ps : List FVal) : List (Bool × Nat × Int) := ps.filterMap fun p => match p with | .fin s m e => if m = 0 then none else some (s, m, e) | _ => none
def emaxOf : List (Bool × Nat × Int) → Int
  | [] => 0
  | x :: l => l.foldl (fun (b : Int) p => max b (lead p.2.1 p.2.2)) (lead x.2.1 x.2.2)
/-- Adds products to a window that begins at emax − 70. -/
def windowSum (emax acc : Int) (l : List (Bool × Nat × Int)) : Int :=
  l.foldl (fun (x : Int) p =>
    let q : Int := (roundTo 1 false p.2.1 p.2.2 (emax - 70) : Nat)
    if p.1 then x - q else x + q) acc

def sumOf (ps : List FVal) : Nat :=
  if ps.any FVal.isNan || (ps.contains (.inf false) && ps.contains (.inf true)) then f32.qnan
  else if ps.contains (.inf false) then infF false
  else if ps.contains (.inf true) then infF true
  else
    match finOf ps with
    | [] => if !ps.isEmpty && ps.all FVal.negative then zeroF true else zeroF false
    | x :: l =>
      let emax := emaxOf (x :: l)
      let acc := windowSum emax 0 (x :: l)
      if acc = 0 then zeroF false else f32.round 0 (.fin (decide (acc < 0)) acc.natAbs (emax - 70))

/-! ### A pass that froze in the array (R321) -/

/-- A number as an n-bit two's complement code. -/
def twos (n : Nat) (x : Int) : Nat := (x % (2 ^ n : Nat)).toNat

/-- The words of an array entry that holds row m with the first k of its products (Table 21.5). -/
def arrayCell (ps : List FVal) (m k : Nat) : W64 × W64 :=
  let emax := emaxOf (finOf ps)
  let seen := ps.take k
  let code := twos 88 (windowSum emax 0 (finOf seen))
  let flag (b : Bool) (i : Nat) : Nat := if b then 2 ^ i else 0
  let pos := seen.contains (.inf false)
  let neg := seen.contains (.inf true)
  (BitVec.ofNat 64 code,
    BitVec.ofNat 64 (code / 2 ^ 64 + twos 10 emax * 2 ^ 24 + m * 2 ^ 34 + 2 ^ 41 + flag (seen.any FVal.isNan || (pos && neg)) 42 + flag pos 43 +
      flag neg 44))

/-- The pass of an array entry that goes on behind its first k products. -/
def arraySum (c : W64 × W64) (ps : List FVal) (k : Nat) : Nat :=
  let rest := ps.drop k
  let pos := c.2.fld 43 1 == 1 || rest.contains (.inf false)
  let neg := c.2.fld 44 1 == 1 || rest.contains (.inf true)
  if c.2.fld 42 1 == 1 || rest.any FVal.isNan || (pos && neg) then f32.qnan
  else if pos then infF false
  else if neg then infF true
  else if (finOf ps).isEmpty then sumOf ps
  else
    let emax := (BitVec.ofNat 10 (c.2.fld 24 10)).toInt
    let acc := windowSum emax (BitVec.ofNat 88 (c.2.fld 0 24 * 2 ^ 64 + c.1.toNat)).toInt (finOf rest)
    if acc = 0 then zeroF false else f32.round 0 (.fin (decide (acc < 0)) acc.natAbs (emax - 70))

/-! ### The column shadow (R191) -/

/-- A product with its significand rounded at three fraction bits. -/
def shadow3 : FVal → FVal
  | .fin s m e => if m = 0 then .fin s 0 e else .fin s (roundTo 0 false m e (lead m e - 3)) (lead m e - 3)
  | v => v

def passDiverges (ps : List FVal) (pass : Nat) : Bool :=
  ps.all FVal.isFin && (v32 pass).isFin &&
    let sum := (ps.map shadow3).foldl (FVal.add 0) (.fin false 0 0)
    let mag := (ps.map fun p => (shadow3 p).abs).foldl (FVal.add 0) (.fin false 0 0)
    let d := ((v32 pass).add 0 sum.neg).abs
    (match mag with | .fin _ m e => FVal.fin false m (e - 3) | v => v).lt d

end Sys2Proof.Machine
end

