-- ==== Sys2Proof/Machine/Vector.lean ====
section
/-!
DEFINITION. The vector engine's instructions (R156 to R181). Each executes the entry at the head of the vector ring; a ring
repeat executes body entries through the same functions.
-/
namespace Sys2Proof.Machine

/-! ### Shapes of a vector entry -/

/-- Lane width, granted and padded lanes of an entry. -/
def Entry.e (ent : Entry) : Nat := fmtBits (shFMT ent.shape)
def Entry.lg (ent : Entry) : Nat := shLGR ent.shape
def Entry.lp (ent : Entry) : Nat := shLPAD ent.shape

/-- Commits a result and nothing else; what a body entry of a ring repeat does. -/
abbrev VBody := Entry → State → Res Unit

/-- Banks of the named file that a word's fields name: they wake (R309). -/
def State.wakeBanks (s : State) (w : W32) : State :=
  let u := s.me.vec
  let named (b : Nat) : Bool := [w.fld 20 6, w.fld 14 6, w.fld 8 6].any fun v => v < 0x20 && v % 2 == b
  s.setMe { s.me with vec := { u with
    gated := u.gated.filter fun b => !named b
    lastNamed := [0, 1].foldl (fun t b => if named b then Tab.put t b s.clock else t) u.lastNamed } }

/-- An entry of the vector ring executes: its body, then its raise (R149). -/
def vec (b : VBody) (s : State) : Out := .next ((b (s.entry 0) (s.wakeBanks (s.entry 0).word)).run fun _ s => s.entryDone 0)

/-- R309: a bank that no entry has named for 4,096 cycles may be power-gated. -/
def execBankPowerGate (node core bank : Nat) (s : State) : Out :=
  let ck := node * 256 + core
  let c := s.core ck
  .next (if bank < 2 && 4096 ≤ s.clock - Tab.getD c.vec.lastNamed bank 0 then
    s.putCore ck { c with vec := { c.vec with gated := c.vec.gated.add bank } } else s)

/-! ### Transient faults (R180, R307, R308) -/

/-- The fault that the environment has in store for the unit, if it is the next one. -/
def State.upset (s : State) (unit : Nat) : Option Upset × State := s.takeUpset s.cur unit

/-- The Handle's side of a shadow divergence of the acting core (R308): it counts it, with record 0x2C above its threshold, and may
withdraw a core whose lane or column has failed from service, with record 0x2B (log entry 101). -/
def State.handleDivergence (s : State) (failed : Bool) : State :=
  let p := s.pkg s.node
  let n := Tab.getD p.diverged (ckCore s.cur) 0 + 1
  let note (s : State) (cause : Nat) : State :=
    s.record s.node { s.coreRec s.cur cause 12 with addr := BitVec.ofNat 64 (ckCore s.cur) }
  let s := s.putPkg s.node { p with diverged := p.diverged.put (ckCore s.cur) n }
  let s := if Config.divergenceLimit < n then note s 0x2C else s
  if !failed then s
  else
    let (out, s) := s.pickBool
    if !out then s
    else note (s.putPkg s.node { s.pkg s.node with withdrawn := (s.pkg s.node).withdrawn.add (ckCore s.cur) }) 0x2B

/-- A divergence in a lane or column: the first parks with one cause, the same entry and place again with another (R308). The
record names the place, and the row of a pass in the upper half of SYNDROME. -/
def State.diverge (s : State) (r first again place : Nat) (row : Nat := 0) : State :=
  let x := s.ring r
  let seq := (s.entry r).seq
  let cause := if x.diverged = some (seq, place) then again else first
  let s := s.setRing r { x with diverged := some (seq, place) }
  let s := s.writeRecord s.node { s.coreRec s.cur cause (ringUnit r) with syndrome := BitVec.ofNat 64 (row * 2 ^ 32 + place), detail := seq }
  (s.handleDivergence (cause == again)).park r cause (BitVec.ofNat 64 place) 0

/-- Changes one lane of a list of results. -/
def flipLane (l : List (Option Nat)) (u : Upset) : List (Option Nat) :=
  (List.range l.length).zip l |>.map fun x => if x.1 = u.lane then x.2.map (· ^^^ u.flip.toNat % 2 ^ 32) else x.2

/-- Lane results after the shadow check: div says whether a lane's main result diverges. -/
def State.shadowed (s : State) (l : List (Option Nat)) (div : Nat → Nat → Bool) : Res (List (Option Nat)) :=
  let (u, s) := s.upset 2
  let l := match u with | some u => if u.parity then l else flipLane l u | none => l
  match ((List.range l.length).zip l).find? fun x => match x.2 with | some v => div x.1 v | none => false with
  | some (j, _) => .stop (s.diverge 0 0x20 0x23 j)
  | none => .ok l s

/-- Results of a function table: a parity error parks with 0x26 (R307). -/
def State.tabled (s : State) (l : List (Option Nat)) : Res (List (Option Nat)) :=
  let (u, s) := s.upset 2
  match u with
  | some u => if u.parity then .stop (s.park 0 0x26 (BitVec.ofNat 64 u.lane) 0) else .ok (flipLane l u) s
  | none => .ok l s

def State.unchecked (s : State) (l : List (Option Nat)) : Res (List (Option Nat)) :=
  let (u, s) := s.upset 2
  match u with
  | some u => .ok (if u.parity then l else flipLane l u) s
  | none => .ok l s

/-! ### Lane-wise forms -/

/-- Reads sources a and b of width e: lanes below P, and the port values taken. -/
def State.sources (s : State) (ent : Entry) (e : Nat) (vs : List Nat) : Res (List (List Nat) × PortVals) :=
  match s.readPorts ((ent.lp * e + 7) / 8) vs [] with
  | .stop s => .stop s
  | .ok vals s => .ok (vs.map fun v => lanesOf e ent.lg ent.lp (s.me.source ent vals e ent.lp v), vals) s

/-- Lane j of a list of lanes. -/
def lane (l : List Nat) (j : Nat) : Nat := l.getD j 0

/-- Produced lanes: those below L whose mask bit is 1. -/
def Core.produced (c : Core) (ent : Entry) (m : Nat) (f : Nat → Nat) : List (Option Nat) :=
  (List.range ent.lp).map fun j => if j < ent.lg && c.maskBit m j then some (f j) else none

/-- A lane-wise entry with sources vs. -/
def laneWise (d m : Nat) (vs : List Nat) (f : List (List Nat) → Nat → Nat) (check : State → List (List Nat) → List (Option Nat) → Res (List (Option Nat))) : VBody :=
  fun ent s =>
    match s.sources ent ent.e vs with
    | .stop s => .stop s
    | .ok (xs, vals) s =>
      match check s xs (s.me.produced ent m (f xs)) with
      | .stop s => .stop s
      | .ok l s => s.deliverV d vals (.lanes ent.e l false)

def plain (s : State) (_ : List (List Nat)) (l : List (Option Nat)) : Res (List (Option Nat)) := s.unchecked l
def byTable (s : State) (_ : List (List Nat)) (l : List (Option Nat)) : Res (List (Option Nat)) := s.tabled l

/-- A two-source f32 form under the shadow. -/
def f32Two (d a b m : Nat) (f : Nat → Nat → Nat) (div : Nat → Nat → Nat → Bool) : VBody :=
  laneWise d m [a, b] (fun xs j => f (lane (xs.getD 0 []) j) (lane (xs.getD 1 []) j))
    fun s xs l => s.shadowed l fun j v => div (lane (xs.getD 0 []) j) (lane (xs.getD 1 []) j) v

/-- A form of two sources without a check. -/
def twoLane (d a b m : Nat) (f : Nat → Nat → Nat) : VBody :=
  laneWise d m [a, b] (fun xs j => f (lane (xs.getD 0 []) j) (lane (xs.getD 1 []) j)) plain
def oneLane (d a m : Nat) (f : Nat → Nat) : VBody := laneWise d m [a] (fun xs j => f (lane (xs.getD 0 []) j)) plain
def tableLane (d a m : Nat) (f : Nat → Nat) : VBody := laneWise d m [a] (fun xs j => f (lane (xs.getD 0 []) j)) byTable

/-- The width of the entry's lanes is part of integer forms. -/
def intTwo (d a b m : Nat) (f : Nat → Nat → Nat → Nat) : VBody := fun ent s => twoLane d a b m (f ent.e) ent s

/-- The T operand of vfma (R112): 0 q0, 1 c0, 2 c1, 3 q1, as a specifier. -/
def tSpec (x : Nat) : Nat := match x with | 0 => 0x20 | 1 => 0x38 | 2 => 0x39 | _ => 0x21

/-- vfma: d := X × Y + Z, the operands by their place in the list of sources. -/
def vecFma (d x y z m : Nat) : VBody :=
  laneWise d m [x, y, z] (fun xs j => fmaF (lane (xs.getD 0 []) j) (lane (xs.getD 1 []) j) (lane (xs.getD 2 []) j))
    fun s xs l => s.shadowed l fun j v => divFma (lane (xs.getD 0 []) j) (lane (xs.getD 1 []) j) (lane (xs.getD 2 []) j) v

/-! ### Integer arithmetic (R170, R171) -/

/-- A result modulo 2^e, or clamped to the type's range. -/
def narrow (x : Nat) (e : Nat) (v : Int) : Nat :=
  let signed := x % 2 = 0
  let hi : Int := if signed then 2 ^ (e - 1) - 1 else 2 ^ e - 1
  let lo : Int := if signed then -(2 ^ (e - 1)) else 0
  (BitVec.ofInt e (if 2 ≤ x then max lo (min hi v) else v)).toNat

def intArith (f : Int → Int → Int) (x e a b : Nat) : Nat := narrow x e (f (intOf (x % 2 = 0) e a) (intOf (x % 2 = 0) e b))
def mulHigh (u e a b : Nat) : Nat := (BitVec.ofInt e ((intOf (u = 0) e a * intOf (u = 0) e b) / 2 ^ e)).toNat
def minI (u e a b : Nat) : Nat := if intOf (u = 0) e b < intOf (u = 0) e a then b else a
def maxI (u e a b : Nat) : Nat := if intOf (u = 0) e a < intOf (u = 0) e b then b else a
def absI (e a : Nat) : Nat := (BitVec.ofInt e (intOf true e a).natAbs).toNat
def shlI (e a b : Nat) : Nat := a * 2 ^ (b % e) % 2 ^ e
def shrI (u e a b : Nat) : Nat := (BitVec.ofInt e (intOf (u = 0) e a / 2 ^ (b % e))).toNat

/-! ### Masks (R168) -/

/-- Sets a mask register to the bits of a function of the lane. -/
def Core.setMask (c : Core) (d : Nat) (f : Nat → Bool) : Core :=
  let v := (List.range 512).foldl (fun acc j => if f j then acc + 2 ^ j else acc) 0
  { c with vec := { c.vec with m := c.vec.m.set (Fin.ofNat 8 d) (BitVec.ofNat 512 v) } }

/-- A compare: bits below L under the write mask are set, other bits below L kept, bits from L become 0. -/
def vecCmp (d a b m : Nat) (f : Nat → Nat → Nat → Bool) : VBody :=
  fun ent s =>
    match s.sources ent ent.e [a, b] with
    | .stop s => .stop s
    | .ok (xs, vals) s =>
      let c := s.me
      let old := c.vec.m[Fin.ofNat 8 d]
      let bitOf (j : Nat) : Bool :=
        if ent.lg ≤ j then false
        else if c.maskBit m j then f ent.e (lane (xs.getD 0 []) j) (lane (xs.getD 1 []) j)
        else bit old.toNat j
      .ok () (s.setMe ((c.popPorts vals).setMask d bitOf))

def vecMask (d a b o : Nat) : VBody :=
  fun ent s =>
    let c := s.me
    let bitOf (j : Nat) : Bool :=
      let x := c.maskBit a j
      let y := c.maskBit b j
      j < ent.lg && (match o with | 0 => x && y | 1 => x || y | 2 => x != y | _ => x && !y)
    .ok () (s.setMe (c.setMask d bitOf))

/-- vsel: the mask selects, and every lane below L is produced. -/
def vecSel (d a b m : Nat) : VBody :=
  fun ent s =>
    match s.sources ent ent.e [a, b] with
    | .stop s => .stop s
    | .ok (xs, vals) s =>
      s.deliverV d vals (.lanes ent.e (s.me.produced ent 0 fun j => if s.me.maskBit m j then lane (xs.getD 0 []) j else lane (xs.getD 1 []) j) false)

/-! ### Conversions (R172) -/

/-- Width of a type code of R112; float types, then integer types. -/
def floatOf (t : Nat) : FFmt := match t with | 0 => f32 | 1 => bf16 | 2 => f16 | 3 => e4m3 | 4 => e5m2 | _ => e2m1
def intWidth (t : Nat) : Nat := match t with | 0 => 8 | 1 => 32 | 2 => 8 | 3 => 16 | _ => 32
def intSigned (t : Nat) : Bool := t < 2

/-- A conversion of lanes of one width to lanes of another. -/
def vecCvt (d a m sw tw : Nat) (f : Nat → Nat) : VBody :=
  fun ent s =>
    match s.sources ent sw [a] with
    | .stop s => .stop s
    | .ok (xs, vals) s =>
      match s.unchecked (s.me.produced ent m fun j => f (lane (xs.getD 0 []) j)) with
      | .stop s => .stop s
      | .ok l s => s.deliverV d vals (.lanes tw l (tw < sw))

def vecCvtFF (d a t m x : Nat) (sat : Bool) : VBody :=
  let tgt := floatOf (bits t 3 3)
  let src := floatOf (bits t 0 3)
  vecCvt d a m src.width tgt.width fun c => (tgt.convert x sat (src.value c)).1
def vecCvtFI (d a t m x : Nat) : VBody :=
  let tt := bits t 3 3
  let src := floatOf (bits t 0 3)
  vecCvt d a m src.width (intWidth tt) fun c => (toInteger (intSigned tt) (intWidth tt) x (src.value c)).1
def vecCvtIF (d a t m x : Nat) : VBody :=
  let tgt := floatOf (bits t 3 3)
  let ts := bits t 0 3
  vecCvt d a m (intWidth ts) tgt.width fun c => tgt.round x (ofInteger (intOf (intSigned ts) (intWidth ts) c))
def vecCvtII (d a t m : Nat) : VBody :=
  let tt := bits t 3 3
  let ts := bits t 0 3
  vecCvt d a m (intWidth ts) (intWidth tt) fun c =>
    narrow (if intSigned tt then 2 else 3) (intWidth tt) (intOf (intSigned ts) (intWidth ts) c)

/-! ### Block scale and quantise (R173, R174) -/

/-- Blocks of an image for P lanes, and its bytes. -/
def blocksOf (f P : Nat) : Nat := (P + blockG f - 1) / blockG f
def imageBytes (f nb : Nat) : Nat := up64 (nb * blockG f * (blockElem f).width / 8) + nb

/-- Element and scale of lane j of an image. -/
def imageElem (f nb : Nat) (img j : Nat) : FVal :=
  let w := (blockElem f).width
  scaledValue (blockElem f) (bits img (w * j) w) (bits img (8 * up64 (nb * blockG f * w / 8) + 8 * (j / blockG f)) 8)

/-- The bytes of an image from its blocks' scales and elements. -/
def imageOf (f : Nat) (blocks : List (Nat × List Nat)) : List Byte :=
  let w := (blockElem f).width
  let els := packBytes w (blocks.flatMap (·.2))
  els ++ List.replicate (up64 els.length - els.length) 0 ++ blocks.map fun b => BitVec.ofNat 8 b.1

def vecBscale (d a f x : Nat) : VBody :=
  fun ent s =>
    let nb := blocksOf f ent.lp
    match s.readPorts (imageBytes f nb) [a] [] with
    | .stop s => .stop s
    | .ok vals s =>
      let img := s.me.source ent vals 32 128 a
      match s.unchecked (s.me.produced ent 0 fun j => f32.round x (imageElem f nb img j)) with
      | .stop s => .stop s
      | .ok l s => s.deliverV d vals (.lanes 32 l false)

/-- Splits a list into pieces of n, fuel bounding their number. -/
def chunks (n : Nat) : Nat → List Nat → List (List Nat)
  | 0, _ => []
  | k + 1, l => l.take n :: chunks n k (l.drop n)

def vecQuant (d a f x : Nat) : VBody :=
  fun ent s =>
    match s.sources ent 32 [a] with
    | .stop s => .stop s
    | .ok (xs, vals) s =>
      let nb := blocksOf f ent.lp
      let g := blockG f
      let padded := xs.getD 0 [] ++ List.replicate (nb * g - ent.lp) 0
      s.deliverV d vals (.image (imageOf f ((chunks g nb padded).map (quantise f x))))

/-! ### Across lanes (R175, R176) -/

/-- One level of the fixed tree: neighbours combined, absent values passed over. A step goes by the lane of its right operand;
the first value stands at lane j, and neighbours stand step lanes apart. A value without a neighbour passes as it is, a NaN too (log
entry 94). -/
def treeLevel (comb : Nat → Nat → Nat → Nat) (step : Nat) : Nat → List (Option Nat) → List (Option Nat)
  | j, x :: y :: t =>
    (match x, y with
      | some a, some b => some (comb (j + step) a b)
      | some a, none => some a
      | none, b => b) :: treeLevel comb step (j + 2 * step) t
  | _, l => l

/-- The tree to its root, within n levels. -/
def treeFrom (comb : Nat → Nat → Nat → Nat) : Nat → Nat → List (Option Nat) → Option Nat
  | 0, _, l => l.headD none
  | n + 1, step, l => if l.length ≤ 1 then l.headD none else treeFrom comb n (2 * step) (treeLevel comb step 0 l)

/-- The tree of a fault-free unit. -/
def tree (comb : Nat → Nat → Nat) (n : Nat) (l : List (Option Nat)) : Option Nat := treeFrom (fun _ => comb) n 1 l

/-- Divergence somewhere in the tree: the lane at which a step's result diverges. -/
def treeDivergesFrom (comb : Nat → Nat → Nat → Nat) (div : Nat → Nat → Nat → Bool) : Nat → Nat → List (Option Nat) → Option Nat
  | 0, _, _ => none
  | n + 1, step, l =>
    if l.length ≤ 1 then none
    else
      let rec pairs (j : Nat) : List (Option Nat) → Option Nat
        | some a :: some b :: t => if div a b (comb (j + step) a b) then some (j + step) else pairs (j + 2 * step) t
        | _ :: _ :: t => pairs (j + 2 * step) t
        | _ => none
      match pairs 0 l with
      | some j => some j
      | none => treeDivergesFrom comb div n (2 * step) (treeLevel comb step 0 l)

/-- Divergence in the tree of a fault-free unit. -/
def treeDiverges (comb : Nat → Nat → Nat) (div : Nat → Nat → Nat → Bool) (n step : Nat) (l : List (Option Nat)) : Option Nat :=
  treeDivergesFrom (fun _ => comb) div n step l

/-- A step of a reduction or a scan under the environment's fault: it changes the result of the step at its lane. -/
def faulty (u : Option Upset) (op : Nat → Nat → Nat) (j a b : Nat) : Nat :=
  match u with
  | some u => if u.lane = j && !u.parity then op a b ^^^ u.flip.toNat % 2 ^ 32 else op a b
  | none => op a b

/-- The operation and identity of a reduction: f32 or integer of e bits. -/
def redOpF (o : Nat) : Nat → Nat → Nat := match o with | 0 => addF 0 | 1 => minF | _ => maxF
def redIdF (o : Nat) : Nat := match o with | 0 => 0 | 1 => infF false | _ => infF true
def redOpI (u o e : Nat) : Nat → Nat → Nat :=
  match o with | 0 => fun x y => (x + y) % 2 ^ e | 1 => minI u e | 2 => maxI u e | _ => fun x y => x ^^^ y
def redIdI (u o e : Nat) : Nat :=
  match o with
  | 1 => if u = 0 then 2 ^ (e - 1) - 1 else 2 ^ e - 1
  | 2 => if u = 0 then 2 ^ (e - 1) else 0
  | _ => 0

/-- Lanes that take part. -/
def Core.parts (c : Core) (ent : Entry) (m : Nat) (x : List Nat) : List (Option Nat) :=
  (List.range ent.lp).map fun j => if j < ent.lg && c.maskBit m j then some (lane x j) else none

def vecRed (d a m : Nat) (opOf : Nat → Nat → Nat → Nat) (idOf : Nat → Nat) (div : Nat → Nat → Nat → Bool) : VBody :=
  fun ent s =>
    match s.sources ent ent.e [a] with
    | .stop s => .stop s
    | .ok (xs, vals) s =>
      let l := s.me.parts ent m (xs.getD 0 [])
      let (u, s) := s.upset 2
      let op := faulty u (opOf ent.e)
      match treeDivergesFrom op div 10 1 l with
      | some j => .stop (s.diverge 0 0x20 0x23 j)
      | none =>
        let v := (treeFrom op 10 1 l).getD (idOf ent.e)
        s.deliverV d vals (.lanes ent.e (s.me.produced ent 0 fun j => if j = 0 then v else 0) false)

/-- The running values of a scan from lane j; a step goes by its lane. -/
def scanFrom (op : Nat → Nat → Nat → Nat) : Nat → Nat → List (Option Nat) → List Nat
  | _, _, [] => []
  | j, acc, none :: t => acc :: scanFrom op (j + 1) acc t
  | j, acc, some x :: t => op j acc x :: scanFrom op (j + 1) (op j acc x) t

/-- The running values of a fault-free unit. -/
def scanList (op : Nat → Nat → Nat) (acc : Nat) (l : List (Option Nat)) : List Nat := scanFrom (fun _ => op) 0 acc l

def scanDivergesFrom (op : Nat → Nat → Nat → Nat) (div : Nat → Nat → Nat → Bool) : Nat → Nat → List (Option Nat) → Option Nat
  | _, _, [] => none
  | j, acc, none :: t => scanDivergesFrom op div (j + 1) acc t
  | j, acc, some x :: t => if div acc x (op j acc x) then some j else scanDivergesFrom op div (j + 1) (op j acc x) t

def scanDiverges (op : Nat → Nat → Nat) (div : Nat → Nat → Nat → Bool) (j acc : Nat) (l : List (Option Nat)) : Option Nat :=
  scanDivergesFrom (fun _ => op) div j acc l

def vecScan (d a m : Nat) (opOf : Nat → Nat → Nat → Nat) (idOf : Nat → Nat) (div : Nat → Nat → Nat → Bool) : VBody :=
  fun ent s =>
    match s.sources ent ent.e [a] with
    | .stop s => .stop s
    | .ok (xs, vals) s =>
      let l := s.me.parts ent m (xs.getD 0 [])
      let (u, s) := s.upset 2
      let op := faulty u (opOf ent.e)
      match scanDivergesFrom op div 0 (idOf ent.e) l with
      | some j => .stop (s.diverge 0 0x20 0x23 j)
      | none =>
        let r := scanFrom op 0 (idOf ent.e) l
        s.deliverV d vals (.lanes ent.e (s.me.produced ent 0 fun j => lane r j) false)

def noDiv (_ _ _ : Nat) : Bool := false
/-- The shadow watches additions only (R180). -/
def divOp (o : Nat) : Nat → Nat → Nat → Bool := if o = 0 then divAdd else noDiv

/-! ### Movement and partition (R177, R178) -/

def vecPerm (d a b m : Nat) : VBody :=
  fun ent s =>
    laneWise d m [a, b] (fun xs j => let i := lane (xs.getD 1 []) j; if i < ent.lg then lane (xs.getD 0 []) i else 0) plain ent s
def vecRot (d a m : Nat) : VBody :=
  fun ent s => laneWise d m [a] (fun xs j => lane (xs.getD 0 []) ((j + ent.capa.toNat) % ent.lg)) plain ent s
def vecIota (d m : Nat) : VBody := fun ent s => laneWise d m [] (fun _ j => j % 2 ^ ent.e) plain ent s
def vecSplat (d m c : Nat) : VBody :=
  fun ent s => laneWise d m [] (fun _ _ => (if c = 0 then ent.capa else ent.capb).toNat % 2 ^ ent.e) plain ent s

/-- The two lists of vpart, filled up with all ones. -/
def partLists (L : Nat) (sel : Nat → Bool) (x : List Nat) : List Nat × List Nat :=
  let t := ((List.range L).filter sel).map (lane x)
  let f := ((List.range L).filter fun j => !sel j).map (lane x)
  (t ++ List.replicate (L - t.length) 0xFFFFFFFF, f ++ List.replicate (L - f.length) 0xFFFFFFFF)

def vecPart (d a b m : Nat) : VBody :=
  fun ent s =>
    match s.sources ent 32 [a] with
    | .stop s => .stop s
    | .ok (xs, vals) s0 =>
      let sel := s0.me.maskBit m
      let (tl, fl) := partLists ent.lg sel (xs.getD 0 [])
      let out (l : List Nat) : VRes :=
        .lanes 32 ((List.range ent.lp).map fun j => if j < ent.lg then some (lane l j) else none) false
      let nt := ((List.range ent.lg).filter sel).length
      match s0.portMay (b - 8) (if b = d then 1 else 0) (4 * ent.lg) with
      | .stop s => .stop s
      | .ok () s0 =>
      match s0.portWrite (d - 8) (out tl) with
      | .stop s => .stop s
      | .ok () s1 =>
        match s1.portWrite (b - 8) (out fl) with
        | .stop s => .stop s
        | .ok () s =>
          let c := s.me.popPorts vals
          .ok () (s.setMe { c with vec := c.vec.push (nt + 2 ^ 32 * (ent.lg - nt)) })

/-! ### Ports -/

/-- vport and vportd install the walk that their push captured (R161, R162). -/
def vecPort (d : Nat) : VBody :=
  fun ent s =>
    match ent.walk with
    | none => .ok () s
    | some w =>
      let c := s.me
      .ok () (s.setMe { c with vec := { c.vec with ports := c.vec.ports.put d w } })

/-! ### The body of each instruction -/

def rmode (x : BitVec 2) : Nat := x.toNat

def bodyAdd (d a b : BitVec 6) (m : BitVec 3) (x : BitVec 2) : VBody := f32Two d.toNat a.toNat b.toNat m.toNat (addF x.toNat) divAdd
def bodySub (d a b : BitVec 6) (m : BitVec 3) (x : BitVec 2) : VBody :=
  f32Two d.toNat a.toNat b.toNat m.toNat (subF x.toNat) fun p q r => divAdd p (negF q) r
def bodyMul (d a b : BitVec 6) (m : BitVec 3) (x : BitVec 2) : VBody := f32Two d.toNat a.toNat b.toNat m.toNat (mulF x.toNat) divMul
def bodyFma (d a b : BitVec 6) (m : BitVec 3) (x : BitVec 2) : VBody := vecFma d.toNat a.toNat b.toNat (tSpec x.toNat) m.toNat
def bodyFmaT (d a b : BitVec 6) (m : BitVec 3) (x : BitVec 2) : VBody := vecFma d.toNat a.toNat (tSpec x.toNat) b.toNat m.toNat

/-- What a vector entry does, for a ring repeat: the bodies of all vector instructions but vrep. -/
def vbody : Instr → VBody
  | .vaddF32 d a b _ m x => bodyAdd d a b m x
  | .vsubF32 d a b _ m x => bodySub d a b m x
  | .vmulF32 d a b _ m x => bodyMul d a b m x
  | .vfmaF32 d a b _ m x => bodyFma d a b m x
  | .vfmaF32TMultiplier d a b _ m x => bodyFmaT d a b m x
  | .vminF32 d a b _ m => twoLane d.toNat a.toNat b.toNat m.toNat minF
  | .vmaxF32 d a b _ m => twoLane d.toNat a.toNat b.toNat m.toNat maxF
  | .vabsF32 d a _ m => oneLane d.toNat a.toNat m.toNat absF
  | .vnegF32 d a _ m => oneLane d.toNat a.toNat m.toNat negF
  | .vcmpF32 d a b _ m c => vecCmp d.toNat a.toNat b.toNat m.toNat fun _ => condF c.toNat
  | .vrcpF32 d a _ m => tableLane d.toNat a.toNat m.toNat rcpF
  | .vrsqrtF32 d a _ m => tableLane d.toNat a.toNat m.toNat rsqrtF
  | .vexp2F32 d a _ m => tableLane d.toNat a.toNat m.toNat exp2F
  | .vlog2F32 d a _ m => tableLane d.toNat a.toNat m.toNat log2F
  | .vtanhF32 d a _ m => tableLane d.toNat a.toNat m.toNat tanhF
  | .vaddInt d a b _ m x => intTwo d.toNat a.toNat b.toNat m.toNat (intArith (· + ·) x.toNat)
  | .vsubInt d a b _ m x => intTwo d.toNat a.toNat b.toNat m.toNat (intArith (· - ·) x.toNat)
  | .vmulInt d a b _ m x => intTwo d.toNat a.toNat b.toNat m.toNat (intArith (· * ·) x.toNat)
  | .vmulh d a b _ m u => intTwo d.toNat a.toNat b.toNat m.toNat (mulHigh u.toNat)
  | .vminInt d a b _ m u => intTwo d.toNat a.toNat b.toNat m.toNat (minI u.toNat)
  | .vmaxInt d a b _ m u => intTwo d.toNat a.toNat b.toNat m.toNat (maxI u.toNat)
  | .vabsInt d a _ m => fun ent s => oneLane d.toNat a.toNat m.toNat (absI ent.e) ent s
  | .vand d a b _ m => twoLane d.toNat a.toNat b.toNat m.toNat (· &&& ·)
  | .vor d a b _ m => twoLane d.toNat a.toNat b.toNat m.toNat (· ||| ·)
  | .vxor d a b _ m => twoLane d.toNat a.toNat b.toNat m.toNat (· ^^^ ·)
  | .vshl d a b _ m => intTwo d.toNat a.toNat b.toNat m.toNat shlI
  | .vshr d a b _ m u => intTwo d.toNat a.toNat b.toNat m.toNat (shrI u.toNat)
  | .vcmpSigned d a b _ m c => vecCmp d.toNat a.toNat b.toNat m.toNat fun e x y => condI c.toNat (intOf true e x) (intOf true e y)
  | .vcmpUnsigned d a b _ m c => vecCmp d.toNat a.toNat b.toNat m.toNat fun e x y => condI c.toNat (intOf false e x) (intOf false e y)
  | .vsel d a b _ m => vecSel d.toNat a.toNat b.toNat m.toNat
  | .vmask d a b _ o => vecMask d.toNat a.toNat b.toNat o.toNat
  | .vmov d a _ m => oneLane d.toNat a.toNat m.toNat id
  | .vcvt d a t _ m x => vecCvtFF d.toNat a.toNat t.toNat m.toNat x.toNat false
  | .vcvtSat d a t _ m x => vecCvtFF d.toNat a.toNat t.toNat m.toNat x.toNat true
  | .vcvtFloatToInt d a t _ m x => vecCvtFI d.toNat a.toNat t.toNat m.toNat x.toNat
  | .vcvtIntToFloat d a t _ m x => vecCvtIF d.toNat a.toNat t.toNat m.toNat x.toNat
  | .vcvtIntToInt d a t _ m _ => vecCvtII d.toNat a.toNat t.toNat m.toNat
  | .vbscale d a f _ x => vecBscale d.toNat a.toNat f.toNat x.toNat
  | .vquant d a f _ x => vecQuant d.toNat a.toNat f.toNat x.toNat
  | .vredF32 d a _ m o => vecRed d.toNat a.toNat m.toNat (fun _ => redOpF o.toNat) (fun _ => redIdF o.toNat) (divOp o.toNat)
  | .vredInt d a u _ m o => vecRed d.toNat a.toNat m.toNat (redOpI u.toNat o.toNat) (redIdI u.toNat o.toNat) noDiv
  | .vscanF32 d a _ m o => vecScan d.toNat a.toNat m.toNat (fun _ => redOpF o.toNat) (fun _ => redIdF o.toNat) (divOp o.toNat)
  | .vscanInt d a u _ m o => vecScan d.toNat a.toNat m.toNat (redOpI u.toNat o.toNat) (redIdI u.toNat o.toNat) noDiv
  | .vperm d a b _ m => vecPerm d.toNat a.toNat b.toNat m.toNat
  | .vrot d a _ m => vecRot d.toNat a.toNat m.toNat
  | .viota d _ m => vecIota d.toNat m.toNat
  | .vpart d a b _ m => vecPart d.toNat a.toNat b.toNat m.toNat
  | .vport d _ => vecPort d.toNat
  | .vportd d _ => vecPort d.toNat
  | .vsplat d _ m c => vecSplat d.toNat m.toNat c.toNat
  | _ => fun _ s => .ok () s

/-! ### The instructions -/

def execVaddF32 (d : BitVec 6) (a : BitVec 6) (b : BitVec 6) (sh : BitVec 3) (m : BitVec 3) (x : BitVec 2) (s : State) : Out := vec (vbody (.vaddF32 d a b sh m x)) s
def execVsubF32 (d : BitVec 6) (a : BitVec 6) (b : BitVec 6) (sh : BitVec 3) (m : BitVec 3) (x : BitVec 2) (s : State) : Out := vec (vbody (.vsubF32 d a b sh m x)) s
def execVmulF32 (d : BitVec 6) (a : BitVec 6) (b : BitVec 6) (sh : BitVec 3) (m : BitVec 3) (x : BitVec 2) (s : State) : Out := vec (vbody (.vmulF32 d a b sh m x)) s
def execVfmaF32 (d : BitVec 6) (a : BitVec 6) (b : BitVec 6) (sh : BitVec 3) (m : BitVec 3) (x : BitVec 2) (s : State) : Out := vec (vbody (.vfmaF32 d a b sh m x)) s
def execVfmaF32TMultiplier (d : BitVec 6) (a : BitVec 6) (b : BitVec 6) (sh : BitVec 3) (m : BitVec 3) (x : BitVec 2) (s : State) : Out := vec (vbody (.vfmaF32TMultiplier d a b sh m x)) s
def execVminF32 (d : BitVec 6) (a : BitVec 6) (b : BitVec 6) (sh : BitVec 3) (m : BitVec 3) (s : State) : Out := vec (vbody (.vminF32 d a b sh m)) s
def execVmaxF32 (d : BitVec 6) (a : BitVec 6) (b : BitVec 6) (sh : BitVec 3) (m : BitVec 3) (s : State) : Out := vec (vbody (.vmaxF32 d a b sh m)) s
def execVabsF32 (d : BitVec 6) (a : BitVec 6) (sh : BitVec 3) (m : BitVec 3) (s : State) : Out := vec (vbody (.vabsF32 d a sh m)) s
def execVnegF32 (d : BitVec 6) (a : BitVec 6) (sh : BitVec 3) (m : BitVec 3) (s : State) : Out := vec (vbody (.vnegF32 d a sh m)) s
def execVcmpF32 (d : BitVec 6) (a : BitVec 6) (b : BitVec 6) (sh : BitVec 3) (m : BitVec 3) (c : BitVec 2) (s : State) : Out := vec (vbody (.vcmpF32 d a b sh m c)) s
def execVrcpF32 (d : BitVec 6) (a : BitVec 6) (sh : BitVec 3) (m : BitVec 3) (s : State) : Out := vec (vbody (.vrcpF32 d a sh m)) s
def execVrsqrtF32 (d : BitVec 6) (a : BitVec 6) (sh : BitVec 3) (m : BitVec 3) (s : State) : Out := vec (vbody (.vrsqrtF32 d a sh m)) s
def execVexp2F32 (d : BitVec 6) (a : BitVec 6) (sh : BitVec 3) (m : BitVec 3) (s : State) : Out := vec (vbody (.vexp2F32 d a sh m)) s
def execVlog2F32 (d : BitVec 6) (a : BitVec 6) (sh : BitVec 3) (m : BitVec 3) (s : State) : Out := vec (vbody (.vlog2F32 d a sh m)) s
def execVtanhF32 (d : BitVec 6) (a : BitVec 6) (sh : BitVec 3) (m : BitVec 3) (s : State) : Out := vec (vbody (.vtanhF32 d a sh m)) s
def execVaddInt (d : BitVec 6) (a : BitVec 6) (b : BitVec 6) (sh : BitVec 3) (m : BitVec 3) (x : BitVec 2) (s : State) : Out := vec (vbody (.vaddInt d a b sh m x)) s
def execVsubInt (d : BitVec 6) (a : BitVec 6) (b : BitVec 6) (sh : BitVec 3) (m : BitVec 3) (x : BitVec 2) (s : State) : Out := vec (vbody (.vsubInt d a b sh m x)) s
def execVmulInt (d : BitVec 6) (a : BitVec 6) (b : BitVec 6) (sh : BitVec 3) (m : BitVec 3) (x : BitVec 2) (s : State) : Out := vec (vbody (.vmulInt d a b sh m x)) s
def execVmulh (d : BitVec 6) (a : BitVec 6) (b : BitVec 6) (sh : BitVec 3) (m : BitVec 3) (u : BitVec 1) (s : State) : Out := vec (vbody (.vmulh d a b sh m u)) s
def execVminInt (d : BitVec 6) (a : BitVec 6) (b : BitVec 6) (sh : BitVec 3) (m : BitVec 3) (u : BitVec 1) (s : State) : Out := vec (vbody (.vminInt d a b sh m u)) s
def execVmaxInt (d : BitVec 6) (a : BitVec 6) (b : BitVec 6) (sh : BitVec 3) (m : BitVec 3) (u : BitVec 1) (s : State) : Out := vec (vbody (.vmaxInt d a b sh m u)) s
def execVabsInt (d : BitVec 6) (a : BitVec 6) (sh : BitVec 3) (m : BitVec 3) (s : State) : Out := vec (vbody (.vabsInt d a sh m)) s
def execVand (d : BitVec 6) (a : BitVec 6) (b : BitVec 6) (sh : BitVec 3) (m : BitVec 3) (s : State) : Out := vec (vbody (.vand d a b sh m)) s
def execVor (d : BitVec 6) (a : BitVec 6) (b : BitVec 6) (sh : BitVec 3) (m : BitVec 3) (s : State) : Out := vec (vbody (.vor d a b sh m)) s
def execVxor (d : BitVec 6) (a : BitVec 6) (b : BitVec 6) (sh : BitVec 3) (m : BitVec 3) (s : State) : Out := vec (vbody (.vxor d a b sh m)) s
def execVshl (d : BitVec 6) (a : BitVec 6) (b : BitVec 6) (sh : BitVec 3) (m : BitVec 3) (s : State) : Out := vec (vbody (.vshl d a b sh m)) s
def execVshr (d : BitVec 6) (a : BitVec 6) (b : BitVec 6) (sh : BitVec 3) (m : BitVec 3) (u : BitVec 1) (s : State) : Out := vec (vbody (.vshr d a b sh m u)) s
def execVcmpSigned (d : BitVec 6) (a : BitVec 6) (b : BitVec 6) (sh : BitVec 3) (m : BitVec 3) (c : BitVec 2) (s : State) : Out := vec (vbody (.vcmpSigned d a b sh m c)) s
def execVcmpUnsigned (d : BitVec 6) (a : BitVec 6) (b : BitVec 6) (sh : BitVec 3) (m : BitVec 3) (c : BitVec 2) (s : State) : Out := vec (vbody (.vcmpUnsigned d a b sh m c)) s
def execVsel (d : BitVec 6) (a : BitVec 6) (b : BitVec 6) (sh : BitVec 3) (m : BitVec 3) (s : State) : Out := vec (vbody (.vsel d a b sh m)) s
def execVmask (d : BitVec 6) (a : BitVec 6) (b : BitVec 6) (sh : BitVec 3) (o : BitVec 2) (s : State) : Out := vec (vbody (.vmask d a b sh o)) s
def execVmov (d : BitVec 6) (a : BitVec 6) (sh : BitVec 3) (m : BitVec 3) (s : State) : Out := vec (vbody (.vmov d a sh m)) s
def execVcvt (d : BitVec 6) (a : BitVec 6) (t : BitVec 6) (sh : BitVec 3) (m : BitVec 3) (x : BitVec 2) (s : State) : Out := vec (vbody (.vcvt d a t sh m x)) s
def execVcvtSat (d : BitVec 6) (a : BitVec 6) (t : BitVec 6) (sh : BitVec 3) (m : BitVec 3) (x : BitVec 2) (s : State) : Out := vec (vbody (.vcvtSat d a t sh m x)) s
def execVcvtFloatToInt (d : BitVec 6) (a : BitVec 6) (t : BitVec 6) (sh : BitVec 3) (m : BitVec 3) (x : BitVec 2) (s : State) : Out := vec (vbody (.vcvtFloatToInt d a t sh m x)) s
def execVcvtIntToFloat (d : BitVec 6) (a : BitVec 6) (t : BitVec 6) (sh : BitVec 3) (m : BitVec 3) (x : BitVec 2) (s : State) : Out := vec (vbody (.vcvtIntToFloat d a t sh m x)) s
def execVcvtIntToInt (d : BitVec 6) (a : BitVec 6) (t : BitVec 6) (sh : BitVec 3) (m : BitVec 3) (x : BitVec 2) (s : State) : Out := vec (vbody (.vcvtIntToInt d a t sh m x)) s
def execVbscale (d : BitVec 6) (a : BitVec 6) (f : BitVec 6) (sh : BitVec 3) (x : BitVec 2) (s : State) : Out := vec (vbody (.vbscale d a f sh x)) s
def execVquant (d : BitVec 6) (a : BitVec 6) (f : BitVec 6) (sh : BitVec 3) (x : BitVec 2) (s : State) : Out := vec (vbody (.vquant d a f sh x)) s
def execVredF32 (d : BitVec 6) (a : BitVec 6) (sh : BitVec 3) (m : BitVec 3) (o : BitVec 2) (s : State) : Out := vec (vbody (.vredF32 d a sh m o)) s
def execVredInt (d : BitVec 6) (a : BitVec 6) (u : BitVec 1) (sh : BitVec 3) (m : BitVec 3) (o : BitVec 2) (s : State) : Out := vec (vbody (.vredInt d a u sh m o)) s
def execVscanF32 (d : BitVec 6) (a : BitVec 6) (sh : BitVec 3) (m : BitVec 3) (o : BitVec 2) (s : State) : Out := vec (vbody (.vscanF32 d a sh m o)) s
def execVscanInt (d : BitVec 6) (a : BitVec 6) (u : BitVec 1) (sh : BitVec 3) (m : BitVec 3) (o : BitVec 2) (s : State) : Out := vec (vbody (.vscanInt d a u sh m o)) s
def execVperm (d : BitVec 6) (a : BitVec 6) (b : BitVec 6) (sh : BitVec 3) (m : BitVec 3) (s : State) : Out := vec (vbody (.vperm d a b sh m)) s
def execVrot (d : BitVec 6) (a : BitVec 6) (sh : BitVec 3) (m : BitVec 3) (s : State) : Out := vec (vbody (.vrot d a sh m)) s
def execViota (d : BitVec 6) (sh : BitVec 3) (m : BitVec 3) (s : State) : Out := vec (vbody (.viota d sh m)) s
def execVpart (d : BitVec 6) (a : BitVec 6) (b : BitVec 6) (sh : BitVec 3) (m : BitVec 3) (s : State) : Out := vec (vbody (.vpart d a b sh m)) s
def execVport (d : BitVec 6) (sh : BitVec 3) (s : State) : Out := vec (vbody (.vport d sh)) s
def execVportd (d : BitVec 6) (sh : BitVec 3) (s : State) : Out := vec (vbody (.vportd d sh)) s
def execVsplat (d : BitVec 6) (sh : BitVec 3) (m : BitVec 3) (c : BitVec 2) (s : State) : Out := vec (vbody (.vsplat d sh m c)) s
def execVnop (s : State) : Out := vec (vbody .vnop) s

/-! ### Ring repeat (R154) -/

/-- The n entries directly before the head of the vector ring, oldest first. -/
def Ring.before (x : Ring) (n : Nat) : List Entry := (x.past.take n).reverse

/-- One body entry of a repeat, and the progress after it: repeat number and body position. -/
def State.repeatOne (s : State) (n : Nat) : Res Unit :=
  let x := s.ring 0
  match (x.before n)[x.prog.pos]? with
  | none => .ok () s
  | some ent =>
    match decodeVector ent.word with
    | .error _ => .ok () s
    | .ok i => vbody i ent (s.wakeBanks ent.word)

/-- Runs body entries until a part stops the entry or the count is reached, within k entries. -/
def State.repeatAll (s : State) (n count : Nat) : Nat → State
  | 0 => s.entryDone 0
  | k + 1 =>
    if count ≤ (s.ring 0).prog.rep then s.entryDone 0
    else
      match s.repeatOne n with
      | .stop s => s
      | .ok () s =>
        let p := (s.ring 0).prog
        let p := if p.pos + 1 < n then { p with pos := p.pos + 1 } else { p with pos := 0, rep := p.rep + 1 }
        (s.setRing 0 { s.ring 0 with prog := p }).repeatAll n count k

/-- vrep: the body runs as often as CAPA says, with captures and shapes as pushed, without waits and raises; a park inside
a repeat is resumed at the body entry that parked. -/
def execVrep (n : BitVec 6) (s : State) : Out :=
  let c := (s.entry 0).capa.toNat % 65536
  .next (s.repeatAll n.toNat c (c * n.toNat + 1))

end Sys2Proof.Machine
end

