-- ==== Sys2Proof/Machine/Matrix.lean ====
section
/-!
DEFINITION. The matrix engine's instructions (R182 to R200), with the parts of ganged multiplies as they arrive at and
commit on the members' cores.
-/
namespace Sys2Proof.Machine

/-! ### Elements of tile registers and slots -/

/-- Element idx of w bits in a store of bytes. -/
def getBits (m : Memory) (w idx : Nat) : Nat := if w = 4 then bits (m.get (idx / 2)).toNat (4 * (idx % 2)) 4 else leNat (m.read (idx * w / 8) (w / 8))
def setBits (m : Memory) (w idx v : Nat) : Memory :=
  if w = 4 then
    let b := (m.get (idx / 2)).toNat
    m.set (idx / 2) (BitVec.ofNat 8 (if idx % 2 = 0 then b / 16 * 16 + v % 16 else b % 16 + 16 * (v % 16)))
  else m.write (idx * w / 8) (leBytes (w / 8) v)

/-- The value of element k of row j of a tile under a format, with rows of K elements (R186, R189). -/
def Tile.value (t : Tile) (f K j k : Nat) : FVal :=
  let w := fmtBits f
  let c := getBits t.elems w (j * K + k)
  if f = 0x05 then ofInteger (intOf true 8 c)
  else if blockCode f then scaledValue (blockElem f) c (t.scales.get (j * (K / blockG f) + k / blockG f)).toNat
  else match fmtOf f with
    | some x => x.value c
    | none => .nan

def Slot.at_ (sl : Slot) (m n : Nat) : Nat := (Tab.getD sl.elems (m * 64 + n) 0).toNat
def Slot.put (sl : Slot) (m n v : Nat) : Slot := { sl with elems := Tab.put sl.elems (m * 64 + n) (BitVec.ofNat 32 v) }

/-- The granted elements of a shape, row by row. -/
def granted (sh : W64) : List (Nat × Nat) := (List.range (shMGR sh)).flatMap fun m => (List.range (shNGR sh)).map fun n => (m, n)

def MatUnit.setSlot (u : MatUnit) (i : Nat) (x : Slot) : MatUnit := { u with slots := u.slots.set (Fin.ofNat 8 i) x }
def MatUnit.slot (u : MatUnit) (i : Nat) : Slot := u.slots[Fin.ofNat 8 i]
def MatUnit.tile (u : MatUnit) (i : Nat) : Tile := u.tiles[Fin.ofNat 8 i]
def MatUnit.setTile (u : MatUnit) (i : Nat) (x : Tile) : MatUnit := { u with tiles := u.tiles.set (Fin.ofNat 8 i) x }

/-- A part of a matrix entry gave a new matrix unit: the entry completes. -/
def State.matDone (s : State) (u : MatUnit) : State := (s.setMe { s.me with mat := u }).entryDone 1

/-! ### Multiplies (R189, R190) -/

/-- The products of an output element, over the granted K. Those of i8 are integers, which have no −0 (R94). -/
def products (t u : Tile) (sh : W64) (m n : Nat) : List FVal :=
  let f := shFMT sh
  let K := shKPAD sh
  (List.range (shKGR sh)).map fun k =>
    if f = 0x05 then ofInteger (intOf true 8 (getBits t.elems 8 (m * K + k)) * intOf true 8 (getBits u.elems 8 (n * K + k)))
    else (t.value f K m k).mul (u.value f K n k)

/-- The checksum of a product set added to an old sum. -/
def addSum (acc : Bool) (old : W32) (new : Nat) : W32 := BitVec.ofNat 32 (if acc then addF 0 old.toNat new else new)

/-- The products of an element as the array takes them: none beyond the granted rows and columns, where the operands read as zero. -/
def arrayRow (t u : Tile) (sh : W64) (m n : Nat) : List FVal := if m < shMGR sh && n < shNGR sh then products t u sh m n else []

/-- The products that one stage of the array takes: 16 bits of element (log entry 106, DEDUCED from Table 4.3 and KSTG). -/
def stageProducts (f : Nat) : Nat := 16 / fmtBits f

/-- The stages that a shape's K runs through, at most 128. -/
def shStages (sh : W64) : Nat := shKPAD sh / stageProducts (shFMT sh)

/-- A multiply that freezes at a cycle (R318, R321): row m enters column n, stage k, at cycle m + k + n. -/
def freezeAt (t u : Tile) (sh : W64) (seq : W64) (cycle : Nat) : Frozen :=
  let stages := shStages sh
  let all := (List.range (shMPAD sh)).flatMap fun m => ((List.range (shNPAD sh)).filter (m + · ≤ cycle)).map fun n => (m, n)
  { seq := seq, cycle := cycle
    done := (all.filter fun p => stages ≤ cycle - p.1 - p.2).foldl
      (fun d p => Tab.put d (p.1 * 64 + p.2) (BitVec.ofNat 32 (sumOf (arrayRow t u sh p.1 p.2)))) []
    cells := (all.filter fun p => cycle - p.1 - p.2 < stages).foldl
      (fun d p =>
        let k := cycle - p.1 - p.2
        Tab.put d (p.2 * 128 + k) (arrayCell (arrayRow t u sh p.1 p.2) p.1 (k * stageProducts (shFMT sh)))) [] }

/-- The pass of an element that a frozen multiply goes on to: what has left its column, what stands in the array, or a row that has
not entered. d is how many products a stage takes. -/
def Frozen.pass (z : Frozen) (d m n : Nat) (ps : List FVal) : Nat :=
  if z.cycle < m + n then sumOf ps
  else match z.done.get? (m * 64 + n), z.cells.get? (n * 128 + (z.cycle - m - n)) with
    | some v, _ => v.toNat
    | none, some c => arraySum c ps ((z.cycle - m - n) * d)
    | none, none => sumOf ps

/-- A multiply starts: an overwriting one clears the status bits of its slot (R95). -/
def MatUnit.begin (u : MatUnit) (acc : Bool) (sl : Nat) : MatUnit := if acc then u else u.setSlot sl (u.slot sl).clearBits

/-- A multiply on a core's matrix unit. A fault of the array (m × 64 + n and a flip) that the column shadow catches answers the
row and the column of the pass instead; the array without a fault never diverges (R191). z is the frozen multiply that it goes on
from, if it does. -/
def MatUnit.multiply (u : MatUnit) (acc chk : Bool) (ta tb sl : Nat) (sh : W64) (fault : Option (Nat × Nat)) (z : Option Frozen := none) :
    Except (Nat × Nat) MatUnit :=
  let a := u.tile ta
  let w := u.tile tb
  let old := u.slot sl
  let all := (granted sh).map fun p => (p, products a w sh p.1 p.2)
  let sum (p : Nat × Nat) (ps : List FVal) : Nat := match z with | some z => z.pass (stageProducts (shFMT sh)) p.1 p.2 ps | none => sumOf ps
  let pass (p : Nat × Nat) (ps : List FVal) : Nat :=
    match fault with
    | some (i, f) => if i = p.1 * 64 + p.2 then sum p ps ^^^ f else sum p ps
    | none => sum p ps
  match (if fault.isSome then all.find? fun x => passDiverges x.2 (pass x.1 x.2) else none) with
  | some x => .error x.1
  | none =>
    let base := if acc then old else old.clearBits
    let put (s : Slot) (x : (Nat × Nat) × List FVal) : Slot :=
      let v := pass x.1 x.2
      s.put x.1.1 x.1.2 (if acc then addF 0 (old.at_ x.1.1 x.1.2) v else v)
    let s := all.foldl put { base with pass := if acc then old.pass + 1 else 1 }
    let s :=
      if !chk then { s with ckv := false }
      else if acc && !old.ckv then s
      else
        let row (m : Nat) : Nat := sumOf ((all.filter fun x => x.1.1 == m).flatMap (·.2))
        let col (n : Nat) : Nat := sumOf ((all.filter fun x => x.1.2 == n).flatMap (·.2))
        { s with
          rows := (List.range (shMGR sh)).foldl (fun t m => Tab.put t m (addSum acc (Tab.getD old.rows m 0) (row m))) s.rows
          cols := (List.range (shNGR sh)).foldl (fun t n => Tab.put t n (addSum acc (Tab.getD old.cols n 0) (col n))) s.cols
          ckv := true }
    .ok { (u.setSlot sl s) with weights := some (Fin.ofNat 8 tb) }

/-- An uncorrectable error of a tile register that the acting core's entry reads, if the environment has one in store (R305). -/
def State.tileError (s : State) : Bool × State :=
  match s.takeUpset s.cur 5 with
  | (some _, s) => (true, s)
  | (none, s) => (false, s)

/-- A matrix entry reads a tile register: an uncorrectable error starts a replay. -/
def State.readTile (s : State) (a : BitVec 3) (k : State → State) : State :=
  match s.tileError with
  | (true, s) => s.consumeError 1 (a.setWidth 64) false
  | (false, s) => k s

/-- The array fault that the environment has in store. -/
def State.arrayFault (s : State) : Option (Nat × Nat) × State :=
  let (u, s) := s.upset 3
  (u.map fun u => (u.lane, u.flip.toNat % 2 ^ 32), s)

/-- mmul: the multiply of the head entry. A frozen multiply goes on from where it stopped (R318, R321, R324). -/
def mmul (acc : Bool) (a b c : BitVec 3) (k : BitVec 1) (s : State) : Out :=
  let e := s.entry 1
  let s := s.setMe { s.me with mat := s.me.mat.begin acc c.toNat }
  .next (s.readTile a fun s =>
    let (f, s) := s.arrayFault
    match s.me.mat.multiply acc (k == 1) a.toNat b.toNat c.toNat e.shape f (s.me.mat.frozen.filter (·.seq == e.seq)) with
    | .error p => s.diverge 1 0x21 0x24 p.2 p.1
    | .ok u => s.matDone { u with frozen := none })

def execMmulOvw (a b c sh : BitVec 3) (k : BitVec 1) (s : State) : Out := let _ := sh; mmul false a b c k s
def execMmulAcc (a b c sh : BitVec 3) (k : BitVec 1) (s : State) : Out := let _ := sh; mmul true a b c k s

/-! ### Ganged multiplies (R192 to R194) -/

/-- Adds a ganged completion to GC of a barrier on a core, saturating at 255 with record 0x92 (R241). -/
def State.gangComplete (s : State) (b ck : Nat) : State :=
  let c := s.core ck
  let x := Tab.getD c.bars b {}
  if x.gc = 255 then s.record (ckNode ck) { s.coreRec ck 0x92 3 with addr := BitVec.ofNat 64 b }
  else s.putCore ck { c with bars := c.bars.put b { x with gc := x.gc + 1 } }

/-- Parks the issuer's ring on account of a part; parts not done are sent again on resume. -/
def State.gangPark (s : State) (r cause place : Nat) (desc : W64 := 0) (row : Nat := 0) : State :=
  let e := s.entry r
  let s := s.setEntry r { e with gang := { e.gang with sent := e.gang.done } }
  if cause = 0x21 then s.diverge r 0x21 0x24 place row else s.park r cause (BitVec.ofNat 64 place) desc

/-- How the own part of a ganged multiply went. -/
inductive OwnPart where
  | done
  | diverges (m n : Nat)
  | tile
  deriving DecidableEq, Repr

/-- The own part, unless it is done: an ordinary multiply (R193). -/
def State.ownPart (s : State) (acc : Bool) (a b c : BitVec 3) (k : BitVec 1) : OwnPart × State :=
  let e := s.entry 1
  let me := s.me.slcore
  if e.gang.done.has me then (.done, s)
  else
    let s := s.setMe { s.me with mat := s.me.mat.begin acc c.toNat }
    match s.tileError with
    | (true, s) => (.tile, s)
    | (false, s) =>
      let (f, s) := s.arrayFault
      match s.me.mat.multiply acc (k == 1) a.toNat b.toNat c.toNat e.shape f with
      | .error p => (.diverges p.1 p.2, s)
      | .ok u => (.done, (s.setMe { s.me with mat := u }).setEntry 1 { e with gang := { e.gang with done := e.gang.done.add me } })

/-- Sends the part of the head entry to the members that are neither done nor sent. -/
def State.sendParts (s : State) : State :=
  let e := s.entry 1
  let todo := e.gang.members.filter fun m => m != s.me.slcore && !e.gang.done.has m && !e.gang.sent.has m
  let s := s.setEntry 1 { e with gang := { e.gang with sent := todo.foldl NSet.add e.gang.sent } }
  todo.foldl (fun s m => s.later (.event (.gangPartArrive s.node (ckCore s.cur) m))) s

/-- mgang as its issuer's engine handles it: the own part, the parts to send, and the completion once all are done; of an entry
that a replay executes again and whose completion was delivered, there is none. -/
def mgang (acc : Bool) (a b c : BitVec 3) (n : BitVec 7) (k : BitVec 1) (s : State) : Out :=
  let (own, s) := s.ownPart acc a b c k
  let s := s.sendParts
  .next (match own with
    | .diverges i j => s.gangPark 1 0x21 j 0 i
    | .tile => s.consumeError 1 (a.setWidth 64) false
    | .done =>
      let e := s.entry 1
      if e.gang.members.all e.gang.done.has then
        let keys := e.gang.members.filterMap fun m => s.me.slice.bind fun sk => s.sliceCoreKey sk m
        (if e.raised then s else keys.foldl (fun s ck => s.gangComplete n.toNat ck) s).entryDone 1
      else if 1 < (s.ring 1).queue.length then s.wake (.ring s.cur 1)
      else s)

def execMgangOvw (a b c sh g h : BitVec 3) (n : BitVec 7) (k : BitVec 1) (s : State) : Out :=
  let _ := (sh, g, h)
  mgang false a b c n k s
def execMgangAcc (a b c sh g h : BitVec 3) (n : BitVec 7) (k : BitVec 1) (s : State) : Out :=
  let _ := (sh, g, h)
  mgang true a b c n k s

/-- A part arrives at a member: it takes its place in the member's matrix order, or finds the member's thread gone. -/
def execGangPartArrive (node core member : Nat) (s : State) : Out :=
  let ck := node * 256 + core
  let s := { s with cur := ck }
  let e := s.entry 1
  .next (match s.me.slice.bind fun sk => s.sliceCoreKey sk member with
    | none => s
    | some mk =>
      let m := s.core mk
      if !(e.gang.members.has member) || e.gang.done.has member then s
      else if m.run = .idle || m.slice ≠ s.me.slice || Tab.getD e.gang.ids member 0 ≠ m.thread then s.gangPark 1 0x3C member
      else
        let p : Part := { issuer := ck, seq := e.seq, word := e.word, shape := e.shape, after := m.mring.wp }
        (s.putCore mk { m with mat := { m.mat with parts := m.mat.parts ++ [p] } }).later (.event (.gangPartCommit node core member)))

/-- An arrived part waits behind an entry pushed before its arrival, and a part that arrived before it, that name what it names
(R193). -/
def Core.partWaits (m : Core) (p : Part) : Bool :=
  let hits (w : W32) : Bool := (matrixNames w).any fun n => n ∈ matrixNames p.word
  p.blocked || ((m.mring.queue.take (p.after - m.mring.rp)).any fun x => !x.finished && hits x.word) ||
    (m.mat.parts.takeWhile (· ≠ p)).any fun q => hits q.word

/-- An arrived part runs once every earlier entry of the member that names its registers has completed, and commits. One that
diverges, or meets an uncorrectable error, writes nothing and parks its issuer; the error is one refused to another core (R305). -/
def execGangPartCommit (node core member : Nat) (s : State) : Out :=
  let ck := node * 256 + core
  let s := { s with cur := ck }
  .next (match s.me.slice.bind fun sk => s.sliceCoreKey sk member with
    | none => s
    | some mk =>
      match (s.core mk).mat.parts.find? fun p => p.issuer == ck with
      | none => s
      | some p =>
        if (s.core mk).partWaits p then s.wake (.event (.gangPartCommit node core member))
        else
          let rest := (s.core mk).mat.parts.filter fun q => q.issuer != ck
          let w := p.word
          let acc := w.fld 27 5 == 0x08
          let s := s.putCore mk { s.core mk with mat := { ((s.core mk).mat.begin acc (w.fld 18 3)) with parts := rest } }
          match ({ s with cur := mk } : State).tileError with
          | (true, s) =>
            let s := { s with cur := ck }
            (s.record node { s.coreRec mk 0x63 3 with kind := 0, addr := BitVec.ofNat 64 (w.fld 24 3) }).gangPark 1 0x60 member 0x63
          | (false, s) =>
            let (f, s) := s.arrayFault
            let s := { s with cur := ck }
            match (s.core mk).mat.multiply acc (w.fld 0 1 == 1) (w.fld 24 3) (w.fld 21 3) (w.fld 18 3) p.shape f with
            | .error x => s.gangPark 1 0x21 x.2 0 x.1
            | .ok u =>
              let s := s.putCore mk { s.core mk with mat := u }
              let e := s.entry 1
              let s := s.setEntry 1 { e with gang := { e.gang with done := e.gang.done.add member } }
              ((s.wake (.ring ck 1)).wake (.ring mk 1)).checkDrained mk)

/-! ### Tile path (R186 to R188) -/

/-- The bytes that an entry takes from its load-queue claim, each place zero-filled to 512 bytes; an error mark parks. -/
def State.claimBytes (s : State) (q first : Nat) : Nat → Res (List Byte)
  | 0 => .ok [] s
  | n + 1 =>
    match s.claimBytes q first n with
    | .stop s => .stop s
    | .ok bs s =>
      match (s.me.lq[Fin.ofNat 4 q]).slots.get? (first + n) with
      | some (.data b _) => .ok (bs ++ (b ++ List.replicate 512 0).take 512) s
      | some (.used _ (.data b _)) => .ok (bs ++ (b ++ List.replicate 512 0).take 512) s
      | some (.mark va h) => .stop (s.park 1 0x60 va (BitVec.ofNat 64 h))
      | _ => .stop (s.wake (.ring s.cur 1))

/-- Takes the claimed places. -/
def Core.takeClaim (c : Core) (q first n : Nat) : Core :=
  let i := Fin.ofNat 4 q
  (List.range n).foldl (fun c j => { c with lq := c.lq.set i (c.lq[i].take (c.keeper 1) (first + j)) }) c

/-- Sets granted elements of a tile: rows below G, k below KGR; element (j, k) is number src j k of a stream. -/
def Tile.load (t : Tile) (sh : W64) (G : Nat) (code : Nat → Nat → Nat) : Tile :=
  let w := fmtBits (shFMT sh)
  let K := shKPAD sh
  (List.range G).foldl (fun t j => (List.range (shKGR sh)).foldl (fun (t : Tile) k => { t with elems := setBits t.elems w (j * K + k) (code j k) }) t) t

/-- Scale bytes of the blocks that hold granted elements. -/
def Tile.loadScales (t : Tile) (sh : W64) (G : Nat) (at_ : Nat → Byte) : Tile :=
  let f := shFMT sh
  if !blockCode f then t
  else
    let g := blockG f
    let per := shKPAD sh / g
    (List.range G).foldl (fun t j => (List.range ((shKGR sh + g - 1) / g)).foldl (fun (t : Tile) b =>
      { t with scales := t.scales.set (j * per + b) (at_ (j * per + b)) }) t) t

/-- A tile load. G and R are granted and padded rows; tr says that the stream's rows run along them. -/
def tileLoad (tr : Bool) (rowsOf : W64 → Nat × Nat) (a : BitVec 3) (k : BitVec 1) (s : State) : Out :=
  let e := s.entry 1
  let sh := e.shape
  let f := shFMT sh
  let w := fmtBits f
  let K := shKPAD sh
  let (G, R) := rowsOf sh
  let per := if tr then R else K
  -- number of element (j, k) in the stream, and the stream's bytes that granted elements need
  let idx (j k : Nat) : Nat := if tr then k * R + j else j * K + k
  let total := (R * K * w + 7) / 8
  let place (o : Nat) : Nat := if k = 1 then skewed (per * w / 8 / 64) o else o
  let got : Res (List Byte × List Byte × Core) :=
    match e.lqClaim with
    | some (first, n) =>
      let q := e.capa.fld 0 2
      match s.claimBytes q first n with
      | .stop s => .stop s
      | .ok bs s => .ok (bs, [], s.me.takeClaim q first n) s
    | none =>
      let base := e.capa.toNat % 2 ^ 22
      match s.padRead 1 ((List.range total).map fun o => base + place o) with
      | .stop s => .stop s
      | .ok bs s =>
        if !blockCode f then .ok (bs, [], s.me) s
        else match s.padRead 1 (span (base + up64 total) (R * K / blockG f)) with
          | .stop s => .stop s
          | .ok sc s => .ok (bs, sc, s.me) s
  .next (got.run fun r s =>
    let m := r.1.foldl (fun (acc : Memory × Nat) b => (acc.1.set acc.2 b, acc.2 + 1)) ([], 0)
    let c := r.2.2
    let t := c.mat.tile a.toNat
    let t := t.load sh G fun j k => getBits m.1 w (idx j k)
    let t := t.loadScales sh G fun i => r.2.1.getD i 0
    (s.setMe c).matDone (c.mat.setTile a.toNat { t with tr := tr }))

def actRows (sh : W64) : Nat × Nat := (shMGR sh, shMPAD sh)
def weightRows (sh : W64) : Nat × Nat := (shNGR sh, shNPAD sh)
def execMld (a sh : BitVec 3) (k : BitVec 1) (s : State) : Out := let _ := sh; tileLoad false actRows a k s
def execMldt (a sh : BitVec 3) (k : BitVec 1) (s : State) : Out := let _ := sh; tileLoad true actRows a k s
def execMwld (a sh : BitVec 3) (k : BitVec 1) (s : State) : Out := let _ := sh; tileLoad false weightRows a k s
def execMwldt (a sh : BitVec 3) (k : BitVec 1) (s : State) : Out := let _ := sh; tileLoad true weightRows a k s

/-- Writes elements of w bits by their number in a stream at an address, keeping other nibbles. -/
def State.streamWrite (s : State) (base w : Nat) (els : List (Nat × Nat)) (extra : List (Nat × Byte)) : Res Unit :=
  let bytesOf (x : Nat × Nat) : List Nat := if w = 4 then [x.1 / 2] else span (x.1 * w / 8) (w / 8)
  let offs := (els.flatMap bytesOf).foldl NSet.add []
  let old : Memory := offs.foldl (fun m o => Memory.set m o (s.mem.get (padBase s.cur + base + o))) []
  let new := els.foldl (fun m x => setBits m w x.1 x.2) old
  s.padWrite 1 (offs.map (base + ·) ++ extra.map fun x => base + x.1) (offs.map new.get ++ extra.map (·.2))

/-- mstt: the granted elements and scales of a tile, in the layout that mld reads. -/
def execMstt (a sh : BitVec 3) (s : State) : Out :=
  let _ := sh
  let e := s.entry 1
  let sh := e.shape
  let f := shFMT sh
  let w := fmtBits f
  let K := shKPAD sh
  let t := s.me.mat.tile a.toNat
  let els := (List.range (shMGR sh)).flatMap fun j => (List.range (shKGR sh)).map fun k => (j * K + k, getBits t.elems w (j * K + k))
  let g := blockG f
  let scs : List (Nat × Byte) :=
    if blockCode f then (List.range (shMGR sh)).flatMap fun j => (List.range ((shKGR sh + g - 1) / g)).map fun b =>
      (up64 (shMPAD sh * K * w / 8) + j * (K / g) + b, t.scales.get (j * (K / g) + b))
    else []
  .next (s.readTile a fun s => (s.streamWrite (e.capa.toNat % 2 ^ 22) w els scs).run fun _ s => s.entryDone 1)

def execMmov (a b sh : BitVec 3) (s : State) : Out :=
  let _ := sh
  .next (s.readTile b fun s => s.matDone (s.me.mat.setTile a.toNat (s.me.mat.tile b.toNat)))

def execMtr (a b sh : BitVec 3) (s : State) : Out :=
  let _ := sh
  let sh := (s.entry 1).shape
  let w := fmtBits (shFMT sh)
  let src := (s.me.mat.tile b.toNat).elems
  let t := (s.me.mat.tile a.toNat).load sh (shMGR sh) fun m k => getBits src w (k * shMPAD sh + m)
  .next (s.readTile b fun s => s.matDone (s.me.mat.setTile a.toNat { t with tr := true }))

def execMnop (s : State) : Out := .next (s.entryDone 1)

/-! ### Epilogue (R195 to R198) -/

/-- The new elements of a slot under the environment's fault of the epilogue's multiply and add: the element that it changes; and
whether the residue check finds it (R307). -/
def State.epilogueFault (s : State) (new : List ((Nat × Nat) × Nat)) : List ((Nat × Nat) × Nat) × Bool × State :=
  match s.upset 3 with
  | (some u, s) =>
    let i := u.lane % max 1 new.length
    let bad := ((List.range new.length).zip new).map fun x => if x.1 = i then (x.2.1, x.2.2 ^^^ u.flip.toNat % 2 ^ 32) else x.2
    (bad, (bad.zip new).any fun x => residueDiverges (f32.sig x.2.2) (f32.sig x.1.2), s)
  | (none, s) => (new, false, s)

/-- The end of a slot-writing epilogue form: the slot takes the new elements; what was read and written is examined. -/
def State.epilogueEnd (s : State) (c : BitVec 3) (extra : List Nat) (new : List ((Nat × Nat) × Nat)) : State :=
  let u := s.me.mat
  let old := u.slot c.toNat
  let sl := new.foldl (fun (x : Slot) q => x.put q.1.1 q.1.2 q.2) old
  let sl := sl.examine s.clock (new.map (fun q => old.at_ q.1.1 q.1.2) ++ extra ++ new.map (·.2))
  s.matDone (u.setSlot c.toNat { sl with pass := 0, ckv := false })

/-- The elements that f makes of the granted elements of a slot. -/
def State.epilogueNew (s : State) (c : BitVec 3) (f : Nat → Nat → Nat → Nat) : List ((Nat × Nat) × Nat) :=
  (granted (s.entry 1).shape).map fun p => (p, f p.1 p.2 ((s.me.mat.slot c.toNat).at_ p.1 p.2))

/-- A slot-writing epilogue form without a check. -/
def State.epilogue (s : State) (c : BitVec 3) (extra : List Nat) (f : Nat → Nat → Nat → Nat) : State :=
  s.epilogueEnd c extra (s.epilogueNew c f)

/-- A slot-writing epilogue form that multiplies or adds; a residue divergence parks with 0x25 (R307). -/
def State.residue (s : State) (c : BitVec 3) (extra : List Nat) (f : Nat → Nat → Nat → Nat) : State :=
  let (new, found, s) := s.epilogueFault (s.epilogueNew c f)
  if found then s.park 1 0x25 (c.setWidth 64) 0 else s.epilogueEnd c extra new

/-- Reads n f32 values at CAPA. -/
def State.vector32 (s : State) (n : Nat) : Res (List Nat) :=
  match s.padRead 1 (span ((s.entry 1).capa.toNat % 2 ^ 22) (4 * n)) with
  | .stop s => .stop s
  | .ok bs s => .ok (unpackBytes 32 n bs) s

def execMzero (c sh : BitVec 3) (s : State) : Out :=
  let _ := sh
  let sh := (s.entry 1).shape
  let u := s.me.mat
  let sl := (granted sh).foldl (fun (x : Slot) p => x.put p.1 p.2 0) (u.slot c.toNat).clearBits
  .next (s.matDone (u.setSlot c.toNat { sl with pass := 0, rows := [], cols := [], ckv := true }))

def execMacc (b c sh : BitVec 3) (s : State) : Out :=
  let _ := sh
  let x := s.me.mat.slot b.toNat
  .next (s.residue c ((granted (s.entry 1).shape).map fun p => x.at_ p.1 p.2) fun m n e => addF 0 e (x.at_ m n))

/-- mldacc takes the f32 bits as they stand and examines what it loads. -/
def execMldacc (c sh : BitVec 3) (s : State) : Out :=
  let _ := sh
  let sh := (s.entry 1).shape
  let base := (s.entry 1).capa.toNat % 2 ^ 22
  .next ((s.padRead 1 ((granted sh).flatMap fun p => span (base + 4 * (p.1 * shNPAD sh + p.2)) 4)).run fun bs s =>
    let vs := unpackBytes 32 (granted sh).length bs
    let u := s.me.mat
    let sl := ((granted sh).zip vs).foldl (fun (x : Slot) q => x.put q.1.1 q.1.2 q.2) (u.slot c.toNat)
    let sl := sl.examine s.clock vs
    s.matDone (u.setSlot c.toNat { sl with pass := 0, ckv := false }))

def execMescale (c sh : BitVec 3) (s : State) : Out :=
  let _ := sh
  let k := (s.entry 1).capa.toNat % 2 ^ 32
  .next (s.residue c [] fun _ _ e => mulF 0 e k)
def execMescv (c sh : BitVec 3) (s : State) : Out :=
  let _ := sh
  .next ((s.vector32 (shNGR (s.entry 1).shape)).run fun v s => s.residue c [] fun _ n e => mulF 0 e (v.getD n 0))
def execMebias (c sh : BitVec 3) (s : State) : Out :=
  let _ := sh
  .next ((s.vector32 (shNGR (s.entry 1).shape)).run fun v s => s.residue c [] fun _ n e => addF 0 e (v.getD n 0))

/-- meact; a parity error of the activation table parks with 0x27 (R307). -/
def execMeact (c sh : BitVec 3) (f : BitVec 4) (s : State) : Out :=
  let _ := sh
  let (u, s) := s.upset 3
  .next (if (match u with | some u => u.parity | none => false) then s.park 1 0x27 (c.setWidth 64) 0
    else s.epilogue c [] fun _ _ e => actF f.toNat e)

/-- A NaN bound is absent; a NaN element gives canonical NaN. -/
def clampF (lo hi e : Nat) : Nat :=
  if (v32 e).isNan then f32.qnan
  else
    let x := if (v32 lo).isNan then e else maxF e lo
    if (v32 hi).isNan then x else minF x hi
def execMeclamp (c sh : BitVec 3) (s : State) : Out :=
  let _ := sh
  let e := s.entry 1
  .next (s.epilogue c [] fun _ _ x => clampF (e.capa.toNat % 2 ^ 32) (e.capb.toNat % 2 ^ 32) x)

def execMecvt (c sh : BitVec 3) (t : BitVec 1) (r : BitVec 2) (f : BitVec 5) (s : State) : Out :=
  let _ := sh
  let fm := (fmtOf f.toNat).getD f32
  let conv (e : Nat) : Nat × Bool := fm.convert r.toNat (t == 1) (v32 e)
  let sh := (s.entry 1).shape
  let old := s.me.mat.slot c.toNat
  let above := (granted sh).any fun p => (conv (old.at_ p.1 p.2)).2
  -- the flag joins the slot's bits with the completion of the command
  let s := s.setMe { s.me with mat := s.me.mat.setSlot c.toNat (old.overflowed s.clock above) }
  .next (s.epilogue c [] fun _ _ e => f32.round 0 (fm.value (conv e).1))

/-- What a store writes: element numbers with codes, scale bytes, and whether a finite element overflowed. -/
def storeImage (sl : Slot) (sh : W64) (f mode : Nat) (sat : Bool) : List (Nat × Nat) × List (Nat × Byte) × Bool :=
  let N := shNPAD sh
  if blockCode f then
    let g := blockG f
    let w := (blockElem f).width
    let blocks := (List.range (shMGR sh)).flatMap fun m => (List.range ((shNGR sh + g - 1) / g)).map fun b =>
      ((m, b), quantise f mode ((List.range g).map fun j => if b * g + j < shNGR sh then sl.at_ m (b * g + j) else 0))
    (blocks.flatMap fun x => ((List.range g).zip x.2.2).filterMap fun y =>
        if x.1.2 * g + y.1 < shNGR sh then some (x.1.1 * N + x.1.2 * g + y.1, y.2) else none,
      blocks.map fun x => (up64 (shMPAD sh * N * w / 8) + x.1.1 * (N / g) + x.1.2, BitVec.ofNat 8 x.2.1), false)
  else
    let conv (e : Nat) : Nat × Bool :=
      if f = 0x14 then (e, false)
      else if f = 0x05 then toInteger true 8 mode (v32 e)
      else if f = 0x15 then toInteger true 32 mode (v32 e)
      else ((fmtOf f).getD f32).convert mode sat (v32 e)
    let els := (granted sh).map fun p => (p.1 * N + p.2, conv (sl.at_ p.1 p.2))
    (els.map fun x => (x.1, x.2.1), [], els.any (·.2.2))

/-- mst and mstn: only says that a NAN bit stops the store. -/
def tileStore (only : Bool) (c : BitVec 3) (t : BitVec 1) (r : BitVec 2) (f : BitVec 5) (s : State) : Out :=
  let e := s.entry 1
  let u := s.me.mat
  let old := u.slot c.toNat
  let sl := old.examine s.clock ((granted e.shape).map fun p => old.at_ p.1 p.2)
  .next (if only && sl.nan then s.matDone (u.setSlot c.toNat sl)
    else
      let img := storeImage old e.shape f.toNat r.toNat (t == 1)
      (s.streamWrite (e.capa.toNat % 2 ^ 22) (fmtBits f.toNat) img.1 img.2.1).run fun _ s =>
        s.matDone (s.me.mat.setSlot c.toNat (sl.overflowed s.clock img.2.2)))

def execMst (c sh : BitVec 3) (t : BitVec 1) (r : BitVec 2) (f : BitVec 5) (s : State) : Out := let _ := sh; tileStore false c t r f s
def execMstn (c sh : BitVec 3) (t : BitVec 1) (r : BitVec 2) (f : BitVec 5) (s : State) : Out := let _ := sh; tileStore true c t r f s

/-- Bytes of a snapshot (SNAP of R183). -/
def snapBytes (sh : W64) : Nat := up64 (4 * (shMPAD sh * shNPAD sh + shMPAD sh + shNPAD sh)) + 64

def execMsnap (c sh : BitVec 3) (s : State) : Out :=
  let _ := sh
  let e := s.entry 1
  let sh := e.shape
  let u := s.me.mat
  let old := u.slot c.toNat
  let sl := old.examine s.clock ((granted sh).map fun p => old.at_ p.1 p.2)
  let MN := shMPAD sh * shNPAD sh
  let els := (granted sh).map (fun p => (p.1 * shNPAD sh + p.2, sl.at_ p.1 p.2)) ++
    (List.range (shMGR sh)).map (fun m => (MN + m, (Tab.getD sl.rows m 0).toNat)) ++
    (List.range (shNGR sh)).map fun n => (MN + shMPAD sh + n, (Tab.getD sl.cols n 0).toNat)
  let trailer := wordBytes sl.pass ++ wordBytes sl.status ++ wordBytes (BitVec.ofNat 64 sl.ckv.toNat) ++ List.replicate 40 0
  let off := snapBytes sh - 64
  .next ((s.streamWrite (e.capa.toNat % 2 ^ 22) 32 els ((List.range 64).zip trailer |>.map fun x => (off + x.1, x.2))).run fun _ s =>
    s.matDone (s.me.mat.setSlot c.toNat sl))

end Sys2Proof.Machine
end

