-- ==== Sys2Proof/Machine/Copy.lean ====
section
/-!
DEFINITION. The copy engine's moving, filling, gathering, signalling and batch-atomic forms (R201 to R213). Each executes the
entry at the head of the copy ring. The functions that move bytes take the unit's ring number, so that staging copies (R22,
R47) use them as unit 3.
-/
namespace Sys2Proof.Machine

/-! ### Global ranges -/

/-- A part of a global range that lies in one page: input address, bytes, translation. -/
structure Seg where
  va : Nat
  len : Nat
  pg : Page
  deriving DecidableEq, Repr

/-- Translates an input address for unit r, which waits for room among the requests to the page's node (R281). -/
def State.engPage (s : State) (r va : Nat) (k : Kind) : Res Page :=
  match s.translate s.cur (BitVec.ofNat 64 va) k with
  | .ok pg s => if s.portFull pg.pa then .stop (s.engLater r) else .ok pg s
  | .fault f s => .stop (s.parkX r k f (BitVec.ofNat 64 va))
  | .refused h _ s => .stop (s.park r 0x60 (BitVec.ofNat 64 va) (BitVec.ofNat 64 h))

/-- The switch window (R60). -/
def inWindow (va : Nat) : Bool := 0xF00000000000 ≤ va && va < 2 ^ 48

/-- The pages of a range, translated in ascending order, within fuel pages. A copy that is not of the switch forms parks where
its range reaches the switch window (R203). -/
def State.segs (s : State) (r : Nat) (k : Kind) (va n : Nat) (fuel : Nat) (sw : Bool := false) : Res (List Seg) :=
  match fuel with
  | 0 => .ok [] s
  | fuel + 1 =>
    if n = 0 then .ok [] s
    else if !sw && inWindow va then .stop (s.park r 0xB0 (BitVec.ofNat 64 va) 0)
    else match s.engPage r va k with
      | .stop s => .stop s
      | .ok pg s =>
        let m := min n pg.left
        match s.segs r k (va + m) (n - m) fuel sw with
        | .stop s => .stop s
        | .ok t s => .ok ({ va := va, len := m, pg := pg } :: t) s

/-- Pages enough for a range, the smallest effective page being 4 KiB of a striped allocation. -/
def segFuel (n : Nat) : Nat := n / 4096 + 2

/-- The parts of a segment within 64-byte lines. -/
def Seg.lines (g : Seg) : List Seg :=
  (runsOf (span g.va g.len)).map fun x => { va := x.1, len := x.2, pg := { g.pg with pa := g.pg.pa + (x.1 - g.va), alt := g.pg.alt.map (· + (x.1 - g.va)) } }

/-- What an access of unit r at its home comes to. -/
def engAcc {α : Type} (r va pa : Nat) : Acc α → Res α
  | .ok v s => .ok v s
  | .err h a s => .stop (s.park r 0x60 (BitVec.ofNat 64 (va + (a - pa))) (BitVec.ofNat 64 h))
  | .poison a s => .stop (s.consumeError r (BitVec.ofNat 64 (va + (a - pa))))
  | .race c w s => .stop (s.park r c (BitVec.ofNat 64 va) w)

/-- Reads a part that lies in one line. -/
def State.lineRead (s : State) (r : Nat) (g : Seg) : Res (List Byte) := engAcc r g.va g.pg.pa (s.loadAt s.cur g.pg g.len)
/-- A write to another node takes the next index of the unit's stream (R283). -/
def State.lineWrite (s : State) (r : Nat) (g : Seg) (bs : List Byte) : Res Unit :=
  let s := if g.pg.pa / 2 ^ 48 = s.node then s else (s.nextIndex s.cur (r + 1) (g.pg.pa / 2 ^ 48)).2
  engAcc r g.va g.pg.pa (s.storeAt s.cur g.pg bs)

/-- Does something for each member of a list, until a part stops the entry. -/
def State.each {α : Type} (f : α → State → Res Unit) : List α → State → Res Unit
  | [], s => .ok () s
  | x :: t, s =>
    match f x s with
    | .stop s => .stop s
    | .ok () s => State.each f t s

/-- All bytes of a list of parts, in order. -/
def State.gather (r : Nat) : List Seg → State → Res (List Byte)
  | [], s => .ok [] s
  | g :: t, s =>
    match s.lineRead r g with
    | .stop s => .stop s
    | .ok bs s =>
      match State.gather r t s with
      | .stop s => .stop s
      | .ok rest s => .ok (bs ++ rest) s

def allLines (l : List Seg) : List Seg := l.flatMap Seg.lines

/-- Reads a global range whole. -/
def State.rangeRead (s : State) (r va n : Nat) : Res (List Byte) :=
  match s.segs r .read va n (segFuel n) with
  | .stop s => .stop s
  | .ok l s => State.gather r (allLines l) s

/-- Writes bytes to parts, in order. -/
def State.scatter (r : Nat) : List Seg → List Byte → State → Res Unit
  | [], _, s => .ok () s
  | g :: t, bs, s =>
    match s.lineWrite r g (bs.take g.len) with
    | .stop s => .stop s
    | .ok () s => State.scatter r t (bs.drop g.len) s

def State.rangeWrite (s : State) (r : Nat) (k : Kind) (va : Nat) (bs : List Byte) : Res Unit :=
  match s.segs r k va bs.length (segFuel bs.length) with
  | .stop s => .stop s
  | .ok l s => State.scatter r (allLines l) bs s

/-! ### Acquire and release of an entry (R205) -/

/-- Bytes of an aligned 8-byte word from an address on: the most that one access of an engine reads at once. -/
def wordRest (pa len : Nat) : Nat := min len (8 - pa % 8)

/-- Acquires the location of the entry's first read: its bytes within one aligned 8-byte word (R255, R271). -/
def State.copyAcquire (s : State) (q : BitVec 1) (sc : BitVec 3) (first : Option Seg) : State :=
  match first with
  | some g => if q = 1 then s.acquireAt s.cur sc.toNat g.pg.pa (wordRest g.pg.pa g.len) else s
  | none => s

/-- The descriptor's line as the place of an entry's first read: it is read at once. -/
def State.descAcquire (s : State) (q : BitVec 1) (sc : BitVec 3) : State :=
  match s.translate s.cur (s.entry 2).capa .read with
  | .ok pg t => if q = 1 then t.acquireAt s.cur sc.toNat pg.pa 64 else t
  | _ => s

/-- The release after the entry's last write. It stamps the aligned 8-byte word of the last byte, up to that byte. -/
def State.copyRelease (s : State) (rl : BitVec 1) (sc : BitVec 3) (last : Option Nat) : State :=
  if rl = 1 && 1 ≤ sc.toNat then
    let s := s.countRelease s.cur
    match last with
    | some a => s.stamp s.cur sc.toNat (a / 8 * 8) (a % 8 + 1)
    | none => s
  else s

/-- Physical address of the last byte of a list of parts. -/
def lastPa (l : List Seg) : Option Nat := l.getLast?.map fun g => g.pg.pa + g.len - 1
/-- The last own scratchpad byte of a range. -/
def State.padLast (s : State) (x n : Nat) : Option Nat := some (padBase s.cur + x + n - 1)

/-- A copy entry's end: the follow-on is released (R144, R202), and the entry completes. -/
def State.copyDone (s : State) (r : BitVec 1) (sc : BitVec 3) (last : Option Nat) : State :=
  let e := s.entry 2
  let s := s.copyRelease r sc last
  let m := s.me.mring
  let s := s.setRing 1 { m with queue := m.queue.map fun f => if f.held && f.seq == e.seq + 1 then { f with held := false } else f }
  (s.wake (.ring s.cur 1)).entryDone 2

/-- Ends a copy entry whose parts went well. -/
def copy (r : BitVec 1) (sc : BitVec 3) (b : Res (Option Nat)) : Out := .next (b.run fun last s => s.copyDone r sc last)

/-! ### Block frames and images (R90, R91) -/

/-- Blocks of a frame (Table 6.4), and bytes of its element part. -/
def frameBlocks (f : Nat) : Nat :=
  match f with | 0x08 => 455 | 0x09 => 315 | 0x0A => 240 | 0x0C => 240 | 0x0D => 163 | 0x0E => 124 | _ => 0
def frameElems (f : Nat) : Nat := frameBlocks f * blockG f * (blockElem f).width / 8

/-- Splits bytes into n pieces of k. -/
def pieces (k : Nat) : Nat → List Byte → List (List Byte)
  | 0, _ => []
  | n + 1, l => l.take k :: pieces k n (l.drop k)

/-- The image of block frames: elements, then scales from the first multiple of 64 bytes on, counted from the image's start (R91,
log entry 93). -/
def frameToImage (f : Nat) (bs : List Byte) : List Byte :=
  let fr := pieces 4096 (bs.length / 4096) bs
  let els := fr.flatMap (List.take (frameElems f))
  els ++ List.replicate (up64 els.length - els.length) 0 ++ fr.flatMap fun x => (x.drop (frameElems f)).take (frameBlocks f)

def imageToFrame (f n : Nat) (img : List Byte) : List Byte :=
  let els := pieces (frameElems f) n img
  let scs := pieces (frameBlocks f) n (img.drop (up64 (n * frameElems f)))
  (els.zip scs).flatMap fun x => x.1 ++ x.2 ++ List.replicate (4096 - frameElems f - frameBlocks f) 0

/-- Bytes of the image of n frames. -/
def imageLen (f n : Nat) : Nat := up64 (n * frameElems f) + n * frameBlocks f

/-- A page-format fault of R67, at a page (R74). -/
def fmtFault (pg : Page) (cause : Nat) : XFault := { stage := 2, cause := cause, level := 0xF, ipa := pg.ipa, desc := pg.d2 }

/-- Parks for a format that a command does not take at an address; 0x5A and 0x5B are stage-2 faults. -/
def State.badFmt (s : State) (r : Nat) (k : Kind) (va : Nat) (pg : Page) (cause : Nat) : State :=
  if cause = 0x5A || cause = 0x5B then s.parkX r k (fmtFault pg cause) (BitVec.ofNat 64 va)
  else s.park r cause (BitVec.ofNat 64 va) 0

/-- R67, R207: the pages of a range share one format; the first page that differs parks with 0x5A. -/
def State.oneFmt (s : State) (r : Nat) (k : Kind) (l : List Seg) : Res Nat :=
  let f := match l with | g :: _ => g.pg.fmt | [] => 0
  match l.find? fun g => g.pg.fmt ≠ f with
  | some g => .stop (s.badFmt r k g.va g.pg 0x5A)
  | none => .ok f s

/-- The page that a range begins in. -/
def firstPage (l : List Seg) : Page := match l with | g :: _ => g.pg | [] => { pa := 0, left := 0 }

/-! ### Moves (R207, R208) -/

/-- Moves a global range to own scratchpad addresses, line by line. -/
def State.moveIn (s : State) (r : Nat) (l : List Seg) (place : Nat → Nat) (from_ : Nat) : Res Unit :=
  State.each (fun g s =>
    match s.lineRead r g with
    | .stop s => .stop s
    | .ok bs s => s.padWrite r ((span (g.va - from_) g.len).map place) bs) (allLines l) s

/-- Moves own scratchpad bytes out to a global range, line by line. -/
def State.moveOut (s : State) (r : Nat) (l : List Seg) (place : Nat → Nat) (from_ : Nat) : Res Unit :=
  State.each (fun g s =>
    match s.padRead r ((span (g.va - from_) g.len).map place) with
    | .stop s => .stop s
    | .ok bs s => s.lineWrite r g bs) (allLines l) s

/-- A load of n bytes to scratchpad, in the page's format: byte o of the range, or of the image, goes to place o. -/
def State.loadIn (s : State) (r va n : Nat) (place : Nat → Nat) (acq : State → List Seg → State) (sw : Bool := false) : Res (List Seg) :=
  match s.segs r .read va n (segFuel n) sw with
  | .stop s => .stop s
  | .ok l s =>
    match s.oneFmt r .read l with
    | .stop s => .stop s
    | .ok f s =>
      let s := acq s (allLines l)
      if !blockCode f then
        match s.moveIn r l place va with
        | .stop s => .stop s
        | .ok () s => .ok l s
      else if va % 4096 ≠ 0 || n % 4096 ≠ 0 then .stop (s.badFmt r .read va (firstPage l) 0x66)
      else
        match State.gather r (allLines l) s with
        | .stop s => .stop s
        | .ok bs s =>
          let img := frameToImage f bs
          match s.padWrite r ((List.range img.length).map place) img with
          | .stop s => .stop s
          | .ok () s => .ok l s

def fieldAddr (x : BitVec 20) : Nat := 4 * x.toNat

/-- Bytes that a load of a range leaves in scratchpad: the image, for block-format pages (R207). -/
def loadLen (l : List Seg) (n : Nat) : Nat := if blockCode (firstPage l).fmt then imageLen (firstPage l).fmt (n / 4096) else n

def execCldHbm (q r : BitVec 1) (sc : BitVec 3) (fo : BitVec 1) (x : BitVec 20) (s : State) : Out :=
  let _ := fo
  let e := s.entry 2
  copy r sc (match s.loadIn 2 e.capa.toNat e.capb.toNat (fieldAddr x + ·) fun s l => s.copyAcquire q sc l.head? with
    | .stop s => .stop s
    | .ok l s => .ok (s.padLast (fieldAddr x) (loadLen l e.capb.toNat)) s)

/-- A store from scratchpad in the page's format. -/
def State.storeTo (s : State) (va n x : Nat) (sw : Bool := false) : Res (Option Nat) :=
  match s.segs 2 .write va n (segFuel n) sw with
  | .stop s => .stop s
  | .ok l s =>
    match s.oneFmt 2 .write l with
    | .stop s => .stop s
    | .ok f s =>
      if !blockCode f then
        match s.moveOut 2 l (fun o => x + o) va with
        | .stop s => .stop s
        | .ok () s => .ok (lastPa l) s
      else if va % 4096 ≠ 0 || n % 4096 ≠ 0 then .stop (s.badFmt 2 .write va (firstPage l) 0x66)
      else
        match s.padRead 2 (span x (imageLen f (n / 4096))) with
        | .stop s => .stop s
        | .ok img s =>
          match State.scatter 2 (allLines l) (imageToFrame f (n / 4096) img) s with
          | .stop s => .stop s
          | .ok () s => .ok (lastPa l) s

/-- An entry's own scratchpad as the place of its first read. -/
def State.padSeg (s : State) (x n : Nat) : Option Seg := some { va := x, len := n, pg := padPage s.cur x }

def execCstHbm (q r : BitVec 1) (sc : BitVec 3) (x : BitVec 20) (s : State) : Out :=
  let e := s.entry 2
  let s := s.copyAcquire q sc (s.padSeg (fieldAddr x) e.capb.toNat)
  copy r sc (s.storeTo e.capa.toNat e.capb.toNat (fieldAddr x))

/-- Rows of a 2D copy: pitch, SKEW, rows, row bytes (Table 12.1). -/
def pitchOf (b : W64) : Nat := b.fld 32 32
def skewOf (b : W64) : Bool := b.fld 31 1 == 1
def rowsOf (b : W64) : Nat := b.fld 16 15
def rowBytesOf (b : W64) : Nat := b.fld 0 16

/-- Where byte o of a rectangle of rows stands in scratchpad. -/
def rectPlace (skew : Bool) (rb x o : Nat) : Nat := if skew then x + skewed (rb / 64) o else x + o

/-- Loads one row of a rectangle; block-format and e2m1 pages park with 0x67. -/
def State.rowIn (s : State) (r va rb x j : Nat) (skew : Bool) (acq : State → List Seg → State) : Res Unit :=
  match s.segs r .read va rb (segFuel rb) with
  | .stop s => .stop s
  | .ok l s =>
    match l.find? fun g => blockCode g.pg.fmt || g.pg.fmt == 0x06 with
    | some g => .stop (s.badFmt r .read g.va g.pg 0x67)
    | none => (acq s (allLines l)).moveIn r l (fun o => rectPlace skew rb x (j * rb + o)) va

def execCld2d (q r : BitVec 1) (sc : BitVec 3) (fo : BitVec 1) (x : BitVec 20) (s : State) : Out :=
  let _ := fo
  let e := s.entry 2
  let rb := rowBytesOf e.capb
  copy r sc (match State.each (fun j s => s.rowIn 2 (e.capa.toNat + j * pitchOf e.capb) rb (fieldAddr x) j (skewOf e.capb)
      fun s l => if j = 0 then s.copyAcquire q sc l.head? else s) (List.range (rowsOf e.capb)) s with
    | .stop s => .stop s
    | .ok () s => .ok (s.padLast (fieldAddr x) (rowsOf e.capb * rb)) s)

def execCst2d (q r : BitVec 1) (sc : BitVec 3) (x : BitVec 20) (s : State) : Out :=
  let e := s.entry 2
  let rb := rowBytesOf e.capb
  let s := s.copyAcquire q sc (s.padSeg (fieldAddr x) (rowsOf e.capb * rb))
  let row (j : Nat) (s : State) : Res Unit :=
    let va := e.capa.toNat + j * pitchOf e.capb
    match s.segs 2 .write va rb (segFuel rb) with
    | .stop s => .stop s
    | .ok l s =>
      match l.find? fun g => blockCode g.pg.fmt || g.pg.fmt == 0x06 with
      | some g => .stop (s.badFmt 2 .write g.va g.pg 0x67)
      | none => s.moveOut 2 l (fun o => rectPlace (skewOf e.capb) rb (fieldAddr x) (j * rb + o)) va
  copy r sc (match State.each row (List.range (rowsOf e.capb)) s with
    | .stop s => .stop s
    | .ok () s =>
      match s.translate s.cur (BitVec.ofNat 64 (e.capa.toNat + (rowsOf e.capb - 1) * pitchOf e.capb + rb - 1)) .write with
      | .ok pg s => .ok (some pg.pa) s
      | _ => .ok none s)

/-! ### Global to global (R209) -/

/-- One line of ccpy: read, then written. -/
def State.copyLine (src dst : Nat) (i : Nat) (s : State) : Res Unit :=
  match s.rangeRead 2 (src + 64 * i) 64 with
  | .stop s => .stop s
  | .ok bs s => s.rangeWrite 2 .write (dst + 64 * i) bs

/-- The formats of both ranges against R67. -/
def State.pairFmt (s : State) (src dst n : Nat) : Res (List Seg × List Seg) :=
  match s.segs 2 .read src n (segFuel n) with
  | .stop s => .stop s
  | .ok a s =>
    match s.segs 2 .write dst n (segFuel n) with
    | .stop s => .stop s
    | .ok b s =>
      let clash := b.find? fun g => a.any fun h =>
        g.va - dst < h.va - src + h.len && h.va - src < g.va - dst + g.len && g.pg.fmt ≠ h.pg.fmt && g.pg.fmt ≠ 0 && h.pg.fmt ≠ 0
      match clash with
      | some g => .stop (s.badFmt 2 .write g.va g.pg 0x5A)
      | none =>
        if (a.any fun g => blockCode g.pg.fmt) && (b.any fun g => blockCode g.pg.fmt) && (src % 4096 ≠ 0 || dst % 4096 ≠ 0 || n % 4096 ≠ 0) then
          .stop (s.badFmt 2 .write dst (firstPage b) 0x66)
        else .ok (a, b) s

def execCcpy (q r : BitVec 1) (sc : BitVec 3) (x : BitVec 20) (s : State) : Out :=
  let e := s.entry 2
  let dst := e.capa.toNat
  let src := e.capb.toNat
  copy r sc (match s.pairFmt src dst (64 * x.toNat) with
    | .stop s => .stop s
    | .ok (a, b) s =>
      match State.each (State.copyLine src dst) (List.range x.toNat) (s.copyAcquire q sc (allLines a).head?) with
      | .stop s => .stop s
      | .ok () s => .ok (lastPa b) s)

/-- Elements per 4 KiB of a page format (Table 6.4). -/
def perFrame (f : Nat) : Nat := if blockCode f then frameBlocks f * blockG f else 32768 / fmtBits f

/-- The exact values of the elements of frames of a format. -/
def frameValues (f : Nat) (bs : List Byte) : List FVal :=
  if blockCode f then
    (pieces 4096 (bs.length / 4096) bs).flatMap fun fr =>
      let w := (blockElem f).width
      let x := leNat fr
      (List.range (perFrame f)).map fun j => scaledValue (blockElem f) (bits x (w * j) w) (bits x (8 * frameElems f + 8 * (j / blockG f)) 8)
  else (unpackBytes (fmtBits f) (bs.length * 8 / fmtBits f) bs).map ((fmtOf f).getD f32).value

/-- Whole frames of a target format that hold values; what lies behind them is zero. -/
def toFrames (t mode : Nat) (sat : Bool) (vs : List FVal) : List Byte :=
  let n := (vs.length + perFrame t - 1) / perFrame t
  if blockCode t then
    let g := blockG t
    let w := (blockElem t).width
    let fs := vs.map fun v => (f32.convert mode sat v).1
    let padded := fs ++ List.replicate (n * perFrame t - fs.length) 0
    let used := (fs.length + g - 1) / g
    let blocks := ((List.range (n * frameBlocks t)).zip (chunks g (n * frameBlocks t) padded)).map fun x =>
      if x.1 < used then quantise t mode x.2 else (0, x.2.map fun _ => 0)
    let rec frames : Nat → List (Nat × List Nat) → List Byte
      | 0, _ => []
      | k + 1, l =>
        packBytes w ((l.take (frameBlocks t)).flatMap (·.2)) ++ (l.take (frameBlocks t)).map (fun b => BitVec.ofNat 8 b.1) ++
          List.replicate (4096 - frameElems t - frameBlocks t) 0 ++ frames k (l.drop (frameBlocks t))
    frames n blocks
  else
    let codes := vs.map fun v => (((fmtOf t).getD f32).convert mode sat v).1
    let bs := packBytes (fmtBits t) codes
    bs ++ List.replicate (4096 * n - bs.length) 0

/-- What the copy engine's arithmetic gives for bytes, with the environment's fault in its lane, an 8-byte word (R307). -/
def State.copyUpset (s : State) (bs : List Byte) : List Byte × State :=
  match s.upset 4 with
  | (some u, s) =>
    let at_ := if bs.length < 8 then 0 else u.lane % (bs.length / 8) * 8
    (leBytes bs.length (leNat bs ^^^ (u.flip.toNat * 2 ^ (8 * at_)) % 2 ^ (8 * bs.length)), s)
  | (none, s) => (bs, s)

/-- Significands of the elements of frames of a format. -/
def frameSigs (f : Nat) (bs : List Byte) : List Nat :=
  if blockCode f then
    (pieces 4096 (bs.length / 4096) bs).flatMap fun fr => (unpackBytes (blockElem f).width (perFrame f) fr).map (blockElem f).sig
  else (unpackBytes (fmtBits f) (bs.length * 8 / fmtBits f) bs).map ((fmtOf f).getD f32).sig

/-- The residue check of a conversion, over the significands of its results (R307). -/
def framesDiverge (f : Nat) (good bad : List Byte) : Bool := ((frameSigs f good).zip (frameSigs f bad)).any fun x => residueDiverges x.1 x.2

/-- ccvt: the P field holds frames, saturation, mode and target. A residue divergence parks with 0x28 (R307). -/
def execCcvt (q r : BitVec 1) (sc : BitVec 3) (x : BitVec 20) (s : State) : Out :=
  let e := s.entry 2
  let n := x.fld 8 12
  let t := x.fld 0 5
  copy r sc (match s.segs 2 .read e.capb.toNat (4096 * n) (segFuel (4096 * n)) with
    | .stop s => .stop s
    | .ok a s =>
      match s.oneFmt 2 .read a with
      | .stop s => .stop s
      | .ok f s =>
        if !(ccvtCode f) then .stop (s.badFmt 2 .read e.capb.toNat (firstPage a) 0x5A)
        else
          let outN := (n * perFrame f + perFrame t - 1) / perFrame t * 4096
          match s.segs 2 .write e.capa.toNat outN (segFuel outN) with
          | .stop s => .stop s
          | .ok b s =>
            match b.find? fun g => g.pg.fmt ≠ t with
            | some g => .stop (s.badFmt 2 .write g.va g.pg 0x5A)
            | none =>
              match State.gather 2 (allLines a) (s.copyAcquire q sc (allLines a).head?) with
              | .stop s => .stop s
              | .ok bs s =>
                let good := toFrames t (x.fld 5 2) (x.fld 7 1 == 1) (frameValues f bs)
                let (bad, s) := s.copyUpset good
                if framesDiverge t good bad then .stop (s.park 2 0x28 e.capa 0)
                else
                  match State.scatter 2 (allLines b) bad s with
                  | .stop s => .stop s
                  | .ok () s => .ok (lastPa b) s)

/-! ### Gather, scatter, fill, tags (R210, R211) -/

/-- Element bytes for an element-aware command; raw pages park with 0x5B, block and e2m1 pages with 0x67. -/
def State.elemBytes (s : State) (k : Kind) (va : Nat) : Res Nat :=
  match s.engPage 2 va k with
  | .stop s => .stop s
  | .ok pg s =>
    if pg.fmt = 0 then .stop (s.badFmt 2 k va pg 0x5B)
    else if blockCode pg.fmt || pg.fmt = 0x06 then .stop (s.badFmt 2 k va pg 0x67)
    else .ok (fmtBits pg.fmt / 8) s

/-- cgat; an index that reaches another page keeps the element width of the base page (log entry 91), and csct's too. -/
def execCgat (q r : BitVec 1) (sc : BitVec 3) (fo : BitVec 1) (x : BitVec 20) (s : State) : Out :=
  let _ := fo
  let en := s.entry 2
  let n := en.capb.fld 32 20
  let X := fieldAddr x
  copy r sc (match (s.copyAcquire q sc (s.padSeg (en.capb.fld 0 22) (4 * n))).padRead 2 (span (en.capb.fld 0 22) (4 * n)) with
    | .stop s => .stop s
    | .ok lst s =>
      match s.elemBytes .read en.capa.toNat with
      | .stop s => .stop s
      | .ok e s =>
        let one (y : Nat × Nat) (s : State) : Res Unit :=
          if y.2 = 0xFFFFFFFF then s.padWrite 2 (span (X + y.1 * e) e) (List.replicate e 0)
          else
            let va := en.capa.toNat + y.2 * e
            if inWindow va then .stop (s.park 2 0xB0 (BitVec.ofNat 64 va) 0)
            else
              match s.elemBytes .read va with
              | .stop s => .stop s
              | .ok _ s =>
                match s.rangeRead 2 va e with
                | .stop s => .stop s
                | .ok bs s => s.padWrite 2 (span (X + y.1 * e) e) bs
        let idx := unpackBytes 32 n lst
        match State.each one ((List.range n).zip idx) s with
        | .stop s => .stop s
        | .ok () s => .ok (s.padLast X (n * e)) s)

def execCsct (q r : BitVec 1) (sc : BitVec 3) (x : BitVec 20) (s : State) : Out :=
  let en := s.entry 2
  let n := en.capb.fld 32 20
  let X := fieldAddr x
  copy r sc (match (s.copyAcquire q sc (s.padSeg (en.capb.fld 0 22) (4 * n))).padRead 2 (span (en.capb.fld 0 22) (4 * n)) with
    | .stop s => .stop s
    | .ok lst s =>
      match s.elemBytes .write en.capa.toNat with
      | .stop s => .stop s
      | .ok e s =>
        let one (y : Nat × Nat) (s : State) : Res Unit :=
          if y.2 = 0xFFFFFFFF then .ok () s
          else
            let va := en.capa.toNat + y.2 * e
            if inWindow va then .stop (s.park 2 0xB0 (BitVec.ofNat 64 va) 0)
            else
              match s.elemBytes .write va with
              | .stop s => .stop s
              | .ok _ s =>
                match s.padRead 2 (span (X + y.1 * e) e) with
                | .stop s => .stop s
                | .ok bs s => s.rangeWrite 2 .write va bs
        let idx := unpackBytes 32 n lst
        match State.each one ((List.range n).zip idx) s with
        | .stop s => .stop s
        | .ok () s =>
          match (idx.filter (· ≠ 0xFFFFFFFF)).getLast? with
          | none => .ok none s
          | some i =>
            match s.translate s.cur (BitVec.ofNat 64 (en.capa.toNat + i * e)) .write with
            | .ok pg s => .ok (some (pg.pa + e - 1)) s
            | _ => .ok none s)

/-- The bytes of a fill value repeated over n bytes. -/
def fillBytes (w : Nat) (v : W64) (n : Nat) : List Byte :=
  if w = 4 then List.replicate n (BitVec.ofNat 8 (v.toNat % 16 * 17))
  else packBytes w (List.replicate (n * 8 / w) (v.toNat % 2 ^ w))

def execCfill (q r : BitVec 1) (sc : BitVec 3) (x : BitVec 20) (s : State) : Out :=
  let _ := q
  let e := s.entry 2
  copy r sc (match s.segs 2 .write e.capa.toNat (64 * x.toNat) (segFuel (64 * x.toNat)) with
    | .stop s => .stop s
    | .ok l s =>
      match l.find? fun g => g.pg.fmt == 0 || blockCode g.pg.fmt with
      | some g => .stop (s.badFmt 2 .write g.va g.pg (if g.pg.fmt = 0 then 0x5B else 0x67))
      | none =>
        match State.each (fun g s => s.lineWrite 2 g (fillBytes (fmtBits g.pg.fmt) e.capb g.len)) (allLines l) s with
        | .stop s => .stop s
        | .ok () s => .ok (lastPa l) s)

def execCfillSp (q r : BitVec 1) (sc : BitVec 3) (x : BitVec 20) (s : State) : Out :=
  let _ := q
  let e := s.entry 2
  let n := e.capb.toNat
  copy r sc (match s.padWrite 2 (span (fieldAddr x) n) ((List.replicate (n / 8) (wordBytes e.capa)).flatten) with
    | .stop s => .stop s
    | .ok () s => .ok (s.padLast (fieldAddr x) n) s)

def execCtag (q r : BitVec 1) (sc : BitVec 3) (x : BitVec 20) (s : State) : Out :=
  let _ := q
  let e := s.entry 2
  let ws := (List.range (e.capb.toNat / 8)).map fun i => (padBase s.cur + fieldAddr x) / 8 + i
  let s := { s with tags := ws.foldl (fun t w => if e.capa.fld 0 1 = 1 then NSet.add t w else NSet.del t w) s.tags }
  copy r sc (.ok (s.padLast (fieldAddr x) e.capb.toNat) (ws.foldl State.tagServe s))

/-- cpref has no effect that the machine shows; a page that cannot be translated is skipped. -/
def execCpref (q r : BitVec 1) (sc : BitVec 3) (x : BitVec 20) (s : State) : Out :=
  let _ := q
  let e := s.entry 2
  let s := (List.range (64 * x.toNat / 65536 + 1)).foldl (fun s i =>
    match s.translate s.cur (e.capa + BitVec.ofNat 64 (65536 * i)) .read with
    | .ok _ t => t
    | _ => s) s
  copy r sc (.ok none s)

def execCmovSp (q r : BitVec 1) (sc : BitVec 3) (fo : BitVec 1) (x : BitVec 20) (s : State) : Out :=
  let _ := fo
  let e := s.entry 2
  let n := e.capb.toNat
  copy r sc (match (s.copyAcquire q sc (s.padSeg (e.capa.fld 0 22) n)).padRead 2 (span (e.capa.fld 0 22) n) with
    | .stop s => .stop s
    | .ok bs s =>
      match s.padWrite 2 (span (fieldAddr x) n) bs with
      | .stop s => .stop s
      | .ok () s => .ok (s.padLast (fieldAddr x) n) s)

/-- Writes bytes to a scratchpad of the slice through its window. -/
def State.windowWrite (s : State) (mk off : Nat) (bs : List Byte) : Res Unit :=
  State.scatter 2 (Seg.lines { va := padBase mk + off, len := bs.length, pg := { pa := padBase mk + off, left := bs.length } }) bs s

def execCmst (q r : BitVec 1) (sc : BitVec 3) (x : BitVec 20) (s : State) : Out :=
  let e := s.entry 2
  let n := e.capb.toNat
  let keys := e.group.filterMap fun m => s.me.slice.bind fun sk => s.sliceCoreKey sk m
  copy r sc (match (s.copyAcquire q sc (s.padSeg (fieldAddr x) n)).padRead 2 (span (fieldAddr x) n) with
    | .stop s => .stop s
    | .ok bs s =>
      match State.each (fun mk s => s.windowWrite mk (e.capa.fld 0 22) bs) keys s with
      | .stop s => .stop s
      | .ok () s => .ok (keys.getLast?.map fun mk => padBase mk + e.capa.fld 0 22 + n - 1) s)

/-! ### Signals and fences (R212) -/

def execCsig (q r : BitVec 1) (sc : BitVec 3) (k : BitVec 2) (s : State) : Out :=
  let e := s.entry 2
  let va := e.capa.toNat
  copy r sc (if k = 0 then
      match s.engPage 2 va .atomic with
      | .stop s => .stop s
      | .ok pg s =>
        let s := s.copyAcquire q sc (some { va := va, len := 8, pg := pg })
        let s := if pg.pa / 2 ^ 48 = s.node then s else (s.nextIndex s.cur 3 (pg.pa / 2 ^ 48)).2
        match engAcc 2 va pg.pa (s.atomicAt s.cur pg (· + e.capb)) with
        | .stop s => .stop s
        | .ok _ s => .ok (some (pg.pa + 7)) s
    else
      match s.engPage 2 va .write with
      | .stop s => .stop s
      | .ok pg s =>
        match s.lineWrite 2 { va := va, len := 8, pg := pg } (wordBytes e.capb) with
        | .stop s => .stop s
        | .ok () s => .ok (some (pg.pa + 7)) s)

def execCfence (q r : BitVec 1) (sc : BitVec 3) (s : State) : Out :=
  let _ := q
  copy r sc (.ok none s)

def execCnop (s : State) : Out := copy 0 0 (.ok none s)

/-! ### Batch atomics (R213) -/

/-- The new value of an element by operation 0 add, 1 min, 2 max, 3 or, 4 xchg, and page format; none where the format is not
supported. -/
def batchOp (op f : Nat) (old v : Nat) : Option Nat :=
  match f, op with
  | 0x12, 0 => some ((old + v) % 2 ^ 32)
  | 0x15, 0 => some ((old + v) % 2 ^ 32)
  | 0x13, 0 => some ((old + v) % 2 ^ 64)
  | 0x14, 0 => some (addF 0 old v)
  | 0x12, 1 => some (min old v)
  | 0x13, 1 => some (min old v)
  | 0x15, 1 => some (minI 0 32 old v)
  | 0x14, 1 => some (minF old v)
  | 0x12, 2 => some (max old v)
  | 0x13, 2 => some (max old v)
  | 0x15, 2 => some (maxI 0 32 old v)
  | 0x14, 2 => some (maxF old v)
  | 0x12, 3 => some (old ||| v)
  | 0x13, 3 => some (old ||| v)
  | 0x12, 4 => some v
  | 0x13, 4 => some v
  | 0x14, 4 => some v
  | 0x15, 4 => some v
  | _, _ => none

/-- Bytes [lo, lo + n) of a word replaced. -/
def replaceBytes (w : W64) (lo n v : Nat) : W64 :=
  let bs := wordBytes w
  bytesWord (bs.take lo ++ leBytes n v ++ bs.drop (lo + n))

/-- The fault of a batch atomic on a page whose format does not serve it (R67, R213). -/
def batchFault (pg : Page) : Nat := if pg.fmt = 0 then 0x5B else 0x67

/-- One record of a batch: element address from the index, the old value to word 1 of the record. -/
def State.batchOne (s : State) (op X j : Nat) : Res Unit :=
  let en := s.entry 2
  match s.padRead 2 (span (X + 16 * j) 16) with
  | .stop s => .stop s
  | .ok rec s =>
    let i := leNat (rec.take 4)
    if i = 0xFFFFFFFF then .ok () s
    else
      match s.engPage 2 en.capa.toNat .atomic with
      | .stop s => .stop s
      | .ok base s =>
        let e := fmtBits base.fmt / 8
        let va := en.capa.toNat + i * e
        if (batchOp op base.fmt 0 0).isNone then .stop (s.badFmt 2 .atomic en.capa.toNat base (batchFault base))
        else if inWindow va then .stop (s.park 2 0xB0 (BitVec.ofNat 64 va) 0)
        else
          match s.engPage 2 va .atomic with
          | .stop s => .stop s
          | .ok pg s =>
            if (batchOp op pg.fmt 0 0).isNone then .stop (s.badFmt 2 .atomic va pg (batchFault pg))
            else
              let v := leNat ((rec.drop 8).take e)
              let lo := pg.pa % 8
              let old (w : W64) : Nat := leNat (((wordBytes w).drop lo).take e)
              let good (w : W64) : Nat := (batchOp op pg.fmt (old w) v).getD (old w)
              let (u, s) := if op = 0 && pg.fmt = 0x14 then s.upset 4 else (none, s)
              let flip := match u with | some u => u.flip.toNat % 2 ^ 32 | none => 0
              let now := good (bytesWord (s.keyBytes (if pg.enc then s.lineKey pg.pa else none) (pg.pa - lo) 8))
              if residueDiverges (f32.sig now) (f32.sig (now ^^^ flip)) then .stop (s.park 2 0x28 (BitVec.ofNat 64 va) 0)
              else
                match s.padMay 2 (span (X + 16 * j + 8) 8) with
                | .stop s => .stop s
                | .ok () s =>
                  match engAcc 2 va pg.pa (s.atomicAt s.cur { pg with pa := pg.pa - lo } fun w => replaceBytes w lo e (good w ^^^ flip)) with
                  | .stop s => .stop s
                  | .ok was s => s.padWrite 2 (span (X + 16 * j + 8) 8) (wordBytes (BitVec.ofNat 64 (old was)))

/-- The records from the progress on, within n of them. -/
def State.batchAll (s : State) (op X : Nat) : Nat → Res Unit
  | 0 => .ok () s
  | n + 1 =>
    let j := (s.ring 2).prog.pos
    match s.batchOne op X j with
    | .stop s => .stop s
    | .ok () s => (s.setRing 2 { s.ring 2 with prog := { (s.ring 2).prog with pos := j + 1 } }).batchAll op X n

def cbat (op : Nat) (q r : BitVec 1) (sc : BitVec 3) (x : BitVec 20) (s : State) : Out :=
  let n := (s.entry 2).capb.toNat
  let s := s.copyAcquire q sc (s.padSeg (fieldAddr x) (16 * n))
  let index (s : State) (j : Nat) : Nat := leNat (s.bytes (padBase s.cur + fieldAddr x + 16 * j) 4)
  copy r sc (match s.batchAll op (fieldAddr x) (n - (s.ring 2).prog.pos) with
    | .stop s => .stop s
    | .ok () s =>
      -- the last write is that of the last record with an index
      match ((List.range n).filter fun j => index s j ≠ 0xFFFFFFFF).getLast? with
      | some j => .ok (s.padLast (fieldAddr x) (16 * (j + 1))) s
      | none => .ok none s)

def execCbatAdd (q r : BitVec 1) (sc : BitVec 3) (x : BitVec 20) (s : State) : Out := cbat 0 q r sc x s
def execCbatMin (q r : BitVec 1) (sc : BitVec 3) (x : BitVec 20) (s : State) : Out := cbat 1 q r sc x s
def execCbatMax (q r : BitVec 1) (sc : BitVec 3) (x : BitVec 20) (s : State) : Out := cbat 2 q r sc x s
def execCbatOr (q r : BitVec 1) (sc : BitVec 3) (x : BitVec 20) (s : State) : Out := cbat 3 q r sc x s
def execCbatXchg (q r : BitVec 1) (sc : BitVec 3) (x : BitVec 20) (s : State) : Out := cbat 4 q r sc x s

end Sys2Proof.Machine
end

