-- ==== Sys2Proof/Machine/Link.lean ====
section
/-!
DEFINITION. The copy engine's switch-memory and transfer forms: loads and stores of switch memory (R217), member-ordered
reductions at their switch (R218 to R220, R287), and key-value transfers (R214 to R216).
-/
namespace Sys2Proof.Machine

/-! ### Loads and stores (R217) -/

def execCldSw (q r : BitVec 1) (sc : BitVec 3) (fo : BitVec 1) (x : BitVec 20) (s : State) : Out :=
  let _ := fo
  let e := s.entry 2
  copy r sc (match s.loadIn 2 e.capa.toNat e.capb.toNat (fieldAddr x + ·) (fun s l => s.copyAcquire q sc l.head?) true with
    | .stop s => .stop s
    | .ok _ s => .ok (s.padLast (fieldAddr x) e.capb.toNat) s)

def execCstSw (q r : BitVec 1) (sc : BitVec 3) (x : BitVec 20) (s : State) : Out :=
  let e := s.entry 2
  let s := s.copyAcquire q sc (s.padSeg (fieldAddr x) e.capb.toNat)
  copy r sc (s.storeTo e.capa.toNat e.capb.toNat (fieldAddr x) true)

/-! ### Reduction contexts at their switch -/

/-- Cycles of a microsecond: the arithmetic clock runs at 2 GHz (log entry 16). -/
def usCycles : Nat := 2000

/-- Element bits of a context's format, and of its results. -/
def RedCtx.bits (c : RedCtx) : Nat := if c.fmt = 0x01 || c.fmt = 0x02 then 16 else 32
def RedCtx.outBits (c : RedCtx) : Nat := if c.wide then 32 else c.bits

/-- An element widened: to f32, exactly, or to an integer. -/
def RedCtx.widen (c : RedCtx) (v : Nat) : Int :=
  if c.fmt = 0x15 then intOf true 32 v else ((f32.convert 0 false (((fmtOf c.fmt).getD f32).value v)).1 : Nat)

/-- comb (R219), on widened elements. -/
def RedCtx.comb (c : RedCtx) (acc x : Int) : Int :=
  if c.fmt = 0x15 then (match c.op with | 0 => acc + x | 1 => min acc x | _ => max acc x)
  else
    let a := acc.toNat
    let b := x.toNat
    ((match c.op with | 0 => addF 0 a b | 1 => minF a b | _ => maxF a b) : Nat)

/-- out (R219). -/
def RedCtx.outOf (c : RedCtx) (acc : Int) : Nat :=
  if c.fmt = 0x15 then (toInteger true 32 0 (ofInteger acc)).1
  else if c.wide then acc.toNat
  else (((fmtOf c.fmt).getD f32).convert 0 false (f32.value acc.toNat)).1

/-- The result of a complete round: the members' elements combined in member order; for a broadcast, member 0's bytes, unless
their elements are to be widened. -/
def RedCtx.result (c : RedCtx) : List Byte :=
  let member (i : Nat) : List Int := (unpackBytes c.bits c.n (Tab.getD c.parts i [])).map c.widen
  if c.op = 3 && c.outBits = c.bits then Tab.getD c.parts 0 []
  else
  let start := member 0
  let acc := if c.op = 3 then start else (List.range (c.m - 1)).foldl (fun acc i => (acc.zip (member (i + 1))).map fun x => c.comb x.1 x.2) start
  packBytes c.outBits (acc.map c.outOf)

/-- The status line, and the result behind it where there is one (R219). -/
def redAnswer (state round : Nat) (missing : List Nat) (result : List Byte) : List Byte :=
  leBytes 8 (state + missing.headD 0xFF * 2 ^ 8 + missing.length * 2 ^ 16 + round * 2 ^ 32) ++ List.replicate 56 0 ++ result

def RoundEnd.answer (r : RoundEnd) : List Byte := redAnswer r.state r.round r.missing r.result

/-- finish (R219): the round ends, and every waiting cldr.sw of it is answered with the same bytes. -/
def State.redFinish (s : State) (sw off state : Nat) (valid : Bool) : State :=
  let w := s.switch sw
  match w.ctxs.get? off with
  | none => s
  | some c =>
    let e : RoundEnd := {
      round := c.round, state := state
      result := if state = 0 then c.result else []
      missing := if state = 0 then [] else (List.range c.m).filter fun i => (c.parts.get? i).isNone }
    let w := { w with
      ctxs := w.ctxs.put off { c with valid := valid, round := (c.round + 1) % 2 ^ 32, parts := [], last := some e, waiters := [] }
      answers := c.waiters.foldl (fun t ck => Tab.put t ck e.answer) w.answers }
    c.waiters.foldl (fun s ck => s.wake (.ring ck 2)) (s.putSwitch sw w)

/-- contribute (R219): the state after it, or the cause and value of a refusal; none stands for CAPA. -/
def State.redContribute (s : State) (sw off : Nat) (cmst : Bool) (b : W64) (data : List Byte) : Except (Nat × Option Nat) State :=
  let i := b.fld 0 8
  let q := b.fld 32 32
  match (s.switch sw).ctxs.get? off with
  | none => .error (0xB3, none)
  | some c =>
    if !c.valid || b.fld 16 16 ≠ c.n || cmst ≠ (c.op == 3) then .error (0xB3, none)
    else if c.m ≤ i || (cmst && i ≠ 0) then .error (0xB4, some i)
    else if q ≠ c.round then .error (0xB6, some q)
    else if (c.parts.get? i).isSome then .error (0xB5, some i)
    else
      let first := c.parts.isEmpty
      let c' := { c with parts := c.parts.put i data, start := if first then s.clock else c.start }
      let s := s.putSwitch sw { (s.switch sw) with ctxs := (s.switch sw).ctxs.put off c' }
      if c.op = 3 || (List.range c.m).all fun j => (c'.parts.get? j).isSome then .ok (s.redFinish sw off 0 true)
      else .ok (if first then s.wake (.event (.reductionRoundTimeout sw off)) else s)

/-- load (R219): the answer for a core, none while the round is open; or a refusal. -/
def State.redLoad (s : State) (sw off ck : Nat) (b : W64) : Except (Nat × Option Nat) (Option (List Byte) × State) :=
  let q := b.fld 32 32
  let w := s.switch sw
  match w.answers.get? ck with
  | some a => .ok (some a, s.putSwitch sw { w with answers := w.answers.del ck })
  | none =>
    match w.ctxs.get? off with
    | none => .error (0xB3, none)
    | some c =>
      if !c.valid || b.fld 16 16 ≠ c.n then .error (0xB3, none)
      else if q = c.round then .ok (none, s.putSwitch sw { w with ctxs := w.ctxs.put off { c with waiters := c.waiters.add ck } })
      else match c.last with
        | some e => if e.round = q then .ok (some e.answer, s) else .error (0xB6, some q)
        | none => .error (0xB6, some q)

/-- R219: the timer of a context's round. -/
def execReductionRoundTimeout (sw ctx : Nat) (s : State) : Out :=
  .next <|
    match (s.switch sw).ctxs.get? ctx with
    | none => s
    | some c =>
      if c.parts.isEmpty then s
      else if c.tmo * usCycles ≤ s.clock - c.start then s.redFinish sw ctx 1 c.valid
      else s.wake (.event (.reductionRoundTimeout sw ctx))

/-! ### The requester's side -/

/-- Where a context address leads: the switch, the offset, and the allocation entry's address; none for a lost
allocation. -/
def State.redPlace (s : State) (va : Nat) : Res (Option (Nat × Nat × Nat)) :=
  let deny (c : Nat) (d : W64) : Res (Option (Nat × Nat × Nat)) :=
    .stop (s.parkX 2 .read { stage := 1, cause := c, level := 0xF, desc := d } (BitVec.ofNat 64 va))
  match s.me.slice.bind fun sk => s.swEntry sk va with
  | none => deny 0x4B 0
  | some a =>
    let w0 := s.word a
    let w2 := s.word (a + 16)
    if w0.fld 62 2 = 3 then .ok none s
    else if w0.fld 59 1 = 0 then deny 0x46 w0
    else .ok (some (w2.fld 37 5, w2.fld 0 37 + (va - w0.fld 0 48), a)) s

/-- A request of a context form at its switch: refusals of the way there, then the switch's own (each parks the copy ring). The
switch keeps the answer for a resend (R219, R281). -/
def State.atSwitchPa {α : Type} (s : State) (va pa : Nat) (f : State → Except (Nat × Option Nat) (α × State)) : Res α :=
  if s.portFull pa then .stop (s.wake (.ring s.cur 2))
  else match s.homeRefuses (s.party s.cur) pa 64 2 false with
  | some c =>
    let (h, s) := s.refuseSent (s.party s.cur) pa c
    .stop (s.park 2 0x60 (BitVec.ofNat 64 va) (BitVec.ofNat 64 h))
  | none =>
    let (done, failed, seq, s) := s.fabric s.cur pa
    match failed with
    | none =>
      match f s with
      | .ok (v, s) => .ok v (s.cacheOwn s.cur pa seq 0)
      | .error (c, v) => .stop (s.park 2 c (BitVec.ofNat 64 (v.getD va)) 0)
    | some h =>
      let s := if done then (match f s with | .ok (_, t) => t.cacheOwn s.cur pa seq 0 | .error _ => s) else s
      .stop (s.park 2 0x60 (BitVec.ofNat 64 va) (BitVec.ofNat 64 h))

def State.atSwitch {α : Type} (s : State) (va sw off : Nat) (f : State → Except (Nat × Option Nat) (α × State)) : Res α :=
  s.atSwitchPa va (swPa sw off) f

/-- cred.init (R218, R287). -/
def execCredInit (q r : BitVec 1) (sc : BitVec 3) (x : BitVec 20) (s : State) : Out :=
  let e := s.entry 2
  let va := e.capa.toNat
  let n := e.capb.fld 0 16
  let m := x.fld 0 8
  copy r sc (match s.me.slice.bind fun sk => s.swEntry sk va with
    | none => .stop (s.parkX 2 .write { stage := 1, cause := 0x4B, level := 0xF } e.capa)
    | some a =>
      let w0 := s.word a
      let w2 := s.word (a + 16)
      let room := w0.fld 0 48 + (s.word (a + 8)).toNat - va
      if w0.fld 62 2 ≠ 1 || w0.fld 60 2 ≠ 0 || w0.fld 59 1 = 0 || w0.fld 58 1 = 0 || room < 64 + (m + 2) * up64 (4 * n) then
        .stop (s.park 2 0xB2 e.capa 0)
      else
        let sw := w2.fld 37 5
        let off := w2.fld 0 37 + (va - w0.fld 0 48)
        let seg : Seg := { va := va, len := 64, pg := { pa := swPa sw off, left := room } }
        (s.copyAcquire q sc (some seg)).atSwitch va sw off fun s =>
          let held (s : State) : Bool := match (s.switch sw).ctxs.get? off with | some c => c.valid | none => false
          if !held s && 4096 ≤ ((s.switch sw).ctxs.filter fun c => c.2.valid).length then .error (0xB8, none)
          else
            let s := if held s then s.redFinish sw off 2 true else s
            let w := s.switch sw
            let c : RedCtx := {
              valid := true, op := x.fld 16 4, fmt := x.fld 11 5, wide := x.fld 10 1 == 1, m := m, n := n, tmo := e.capb.fld 48 16 }
            .ok (some (swPa sw off), s.putSwitch sw { w with ctxs := w.ctxs.put off c }))

/-- cred.sw and cmst.sw: a contribution of N elements from X. -/
def contribute (cmst : Bool) (q r : BitVec 1) (sc : BitVec 3) (x : BitVec 20) (s : State) : Out :=
  let e := s.entry 2
  copy r sc (match s.redPlace e.capa.toNat with
    | .stop s => .stop s
    | .ok none s => .ok none s
    | .ok (some (sw, off, _)) s =>
      let n := e.capb.fld 16 16
      let w := match (s.switch sw).ctxs.get? off with | some c => c.bits | none => 0
      match (s.copyAcquire q sc (s.padSeg (fieldAddr x) (4 * n))).padRead 2 (span (fieldAddr x) (n * w / 8)) with
      | .stop s => .stop s
      | .ok data s =>
        s.atSwitch e.capa.toNat sw off fun s =>
          match s.redContribute sw off cmst e.capb data with
          | .ok s => .ok (some (swPa sw off), s)
          | .error c => .error c)

def execCredSw (q r : BitVec 1) (sc : BitVec 3) (x : BitVec 20) (s : State) : Out := contribute false q r sc x s
def execCmstSw (q r : BitVec 1) (sc : BitVec 3) (x : BitVec 20) (s : State) : Out := contribute true q r sc x s

/-- The answer that a switch has sent to the acting core's waiting cldr.sw; and its end, when it is written. -/
def State.answer (s : State) : Option (List Byte) := s.switches.findSome? fun w => w.2.answers.get? s.cur
def State.dropAnswer (s : State) : State :=
  { s with switches := s.switches.mapVals fun w => { w with answers := w.answers.del s.cur } }

/-- cldr.sw: while its round is open the entry stays where it is, and is taken up again when the round ends; the answer is
then its own, whatever has become of the allocation (R220, R251). -/
def execCldrSw (q r : BitVec 1) (sc : BitVec 3) (fo : BitVec 1) (x : BitVec 20) (s : State) : Out :=
  let _ := fo
  let e := s.entry 2
  let put (s : State) (bs : List Byte) : Res (Option Nat) :=
    match s.padWrite 2 (span (fieldAddr x) bs.length) bs with
    | .stop s => .stop s
    | .ok () s => .ok (s.padLast (fieldAddr x) bs.length) s
  let acquire (s : State) : State :=
    match s.redPlace e.capa.toNat with
    | .ok (some (sw, off, _)) s => s.copyAcquire q sc (some { va := e.capa.toNat, len := 64, pg := { pa := swPa sw off, left := 64 } })
    | _ => s
  copy r sc (match s.answer with
    | some bs =>
      match put (acquire s) bs with
      | .ok l s => .ok l s.dropAnswer
      | .stop s => .stop s
    | none => match s.redPlace e.capa.toNat with
    | .stop s => .stop s
    | .ok none s => put s (redAnswer 3 (e.capb.fld 32 32) [] [])
    | .ok (some (sw, off, _)) s =>
      match s.atSwitch e.capa.toNat sw off fun s => s.redLoad sw off s.cur e.capb with
      | .stop s => .stop s
      | .ok none s => .stop s
      | .ok (some bs) s => put (acquire s) bs)

/-- cred.drop (R220). -/
def execCredDrop (q r : BitVec 1) (sc : BitVec 3) (b : BitVec 1) (s : State) : Out :=
  let e := s.entry 2
  copy r sc (match s.redPlace e.capa.toNat with
    | .stop s => .stop s
    | .ok none s => .ok none s
    | .ok (some (sw, off, _)) s =>
      let seg : Seg := { va := e.capa.toNat, len := 64, pg := { pa := swPa sw off, left := 64 } }
      (s.copyAcquire q sc (some seg)).atSwitch e.capa.toNat sw off fun s =>
        match (s.switch sw).ctxs.get? off with
        | some c => if c.valid then .ok (some (swPa sw off), s.redFinish sw off 2 (b == 1)) else .error (0xB3, none)
        | none => .error (0xB3, none))

/-! ### The switch's events (R219) -/

/-- A contribution that arrives at a switch from a core; a refusal parks that core's copy ring. ctx is the context's
physical address. -/
def execReductionContribution (node core : Nat) (form : Bool) (ctx capb : W64) (data : List Byte) (s : State) : Out :=
  .next <|
    match region ctx.toNat with
    | .switch sw off =>
      match s.redContribute sw off form capb data with
      | .ok s => s
      | .error (c, v) => { s with cur := node * 256 + core }.park 2 c (BitVec.ofNat 64 (v.getD ctx.toNat)) 0
    | _ => s

/-- A cldr.sw that arrives at a switch: it is answered, waits for the round, or is refused. -/
def execReductionLoad (node core : Nat) (ctx capb : W64) (s : State) : Out :=
  .next <|
    match region ctx.toNat with
    | .switch sw off =>
      let ck := node * 256 + core
      match s.redLoad sw off ck capb with
      | .ok (none, s) => s
      | .ok (some a, s) => (s.putSwitch sw { (s.switch sw) with answers := Tab.put (s.switch sw).answers ck a }).wake (.ring ck 2)
      | .error (c, v) => { s with cur := ck }.park 2 c (BitVec.ofNat 64 (v.getD ctx.toNat)) 0
    | _ => s

/-! ### Key-value transfers (R214 to R216) -/

/-- Fields of a transfer descriptor (Table 12.3). -/
def kvXid (ws : List W64) : Nat := (ws.getD 0 0).fld 32 32
def kvPsz (ws : List W64) : Nat := (ws.getD 0 0).fld 0 3
def kvPeer (ws : List W64) : Nat := (ws.getD 1 0).fld 0 48
def kvList (ws : List W64) : Nat := (ws.getD 2 0).fld 0 48
def kvTmo (ws : List W64) : Nat := (ws.getD 3 0).fld 32 16
def kvPages (ws : List W64) : Nat := (ws.getD 3 0).fld 0 32
def kvPageSize (ws : List W64) : Nat := 4096 * 2 ^ kvPsz ws

/-- A broken field of a descriptor; word 4 is the device's to write. -/
def kvBroken (ws : List W64) : Bool :=
  (ws.getD 0 0).fld 3 29 != 0 || 4 < kvPsz ws || (ws.getD 1 0).fld 48 16 != 0 || (ws.getD 2 0).fld 48 16 != 0 ||
    (ws.getD 3 0).fld 48 16 != 0 || kvTmo ws == 0 || kvPages ws == 0 || 65536 < kvPages ws || (ws.drop 5).any (· ≠ 0)

def wordsOf (bs : List Byte) : List W64 := (pieces 8 (bs.length / 8) bs).map bytesWord

/-- Translates the 4 KiB parts of the listed pages of a post: where they lie, and the translations taken. -/
def State.kvTranslate (s : State) (k : Kind) : List Nat → Res (List (Nat × Bool × Bool) × List TlbEntry)
  | [] => .ok ([], []) s
  | a :: t =>
    if inWindow a then .stop (s.park 2 0xB0 (BitVec.ofNat 64 a) 0)
    else match s.engPage 2 a k with
    | .stop s => .stop s
    | .ok pg s =>
      let mine := (s.me.tlbFind a).toList
      match s.kvTranslate k t with
      | .stop s => .stop s
      | .ok (l, u) s => .ok ((pg.pa, pg.enc, pg.chk) :: l, mine ++ u.filter fun e => !(mine.any (· == e))) s

/-- The 4 KiB parts of the listed pages. -/
def kvParts (ws : List W64) (list : List W64) : List Nat :=
  list.flatMap fun a => (List.range (2 ^ kvPsz ws)).map fun j => a.toNat + 4096 * j

/-- Where an endpoint leads: package and function, as EPBIND has attached it, or the function whose own it is (R25, R328). -/
def State.endpointOf (s : State) (ep : Nat) : Option (Nat × Nat) :=
  match s.pkgs.findSome? fun p => (p.2.endpoints.get? ep).map (p.1, ·) with
  | some x => some x
  | none => (s.nodes.filter (· < 0x90)).findSome? fun n => (s.ownFunc n ep).map (n, ·)

/-- The package and function of a half. -/
def State.halfParty (s : State) (h : KvHalf) : Option (Nat × Nat) := (s.core h.core).slice.map fun sk => (ckNode h.core, s.sliceFunc sk)

/-- Whether two halves match: each names the other's endpoint, and both carry one XID (R215). -/
def State.kvMeet (s : State) (a b : KvHalf) : Bool :=
  a.pull != b.pull && a.peer.isNone && b.peer.isNone && kvXid a.words == kvXid b.words &&
    (s.endpointOf (kvPeer a.words)).isSome && s.endpointOf (kvPeer a.words) == s.halfParty b && s.endpointOf (kvPeer b.words) == s.halfParty a

/-- ckv.send and ckv.pull. A post that would be the thread's 65th waits before it starts. -/
def kvPost (pull : Bool) (q r : BitVec 1) (sc : BitVec 3) (s : State) : Out :=
  let e := s.entry 2
  let ck := s.cur
  copy r sc (if 64 ≤ (s.transfers.filter fun h => h.core == ck).length then .stop s
    else match (s.descAcquire q sc).rangeRead 2 e.capa.toNat 64 with
    | .stop s => .stop s
    | .ok bs s =>
      let ws := wordsOf bs
      let dup := s.transfers.any fun h => h.core == ck && kvXid h.words == kvXid ws && kvPeer h.words == kvPeer ws
      if kvBroken ws || dup then .stop (s.park 2 0xC8 e.capa 0)
      else
        match s.rangeRead 2 (kvList ws) (8 * kvPages ws) with
        | .stop s => .stop s
        | .ok lbs s =>
          let list := wordsOf lbs
          if list.any fun a => a.toNat % kvPageSize ws ≠ 0 then .stop (s.park 2 0xC8 e.capa 0)
          else
            let die := dieOf (ckCore ck)
            if (s.pkg (ckNode ck)).ready.fld (36 + die) 1 = 0 || (match s.me.slice with | some sk => s.etherBarred sk | none => false) then .stop (s.park 2 0xCA (BitVec.ofNat 64 die) 0)
            else
              match s.kvTranslate (if pull then .write else .read) (kvParts ws list) with
              | .stop s => .stop s
              | .ok (pages, used) s =>
                match s.engPage 2 (e.capa.toNat + 32) .write with
                | .stop s => .stop s
                | .ok pg s =>
                  match s.lineWrite 2 { va := e.capa.toNat + 32, len := 8, pg := pg } (List.replicate 8 0) with
                  | .stop s => .stop s
                  | .ok () s =>
                    let h : KvHalf := {
                      id := s.nextKv, core := ck, seq := e.seq, pull := pull, words := ws, desc := (pg.pa - 32, pg.enc), descChk := pg.chk, pages := pages
                      used := used, posted := s.clock }
                    let other := s.transfers.find? fun g => s.kvMeet h g
                    let s := { s with transfers := s.transfers ++ [h], nextKv := s.nextKv + 1 }
                    let s := s.later (.event (.kvTransferTimeout h.id))
                    let s := match other with
                      | some g => s.later (.event (if pull then .kvHalvesMatch g.id h.id else .kvHalvesMatch h.id g.id))
                      | none => s
                    .ok (some (pg.pa + 7)) s)

def execCkvSend (q r : BitVec 1) (sc : BitVec 3) (s : State) : Out := kvPost false q r sc s
/-- The .pref bit brings landed pages into a memory-side cache, which shows nowhere. -/
def execCkvPull (q r : BitVec 1) (sc : BitVec 3) (p : BitVec 1) (s : State) : Out :=
  let _ := p
  kvPost true q r sc s

/-- ckv.sync (R216): the entry stays until every transfer of an earlier entry of its ring has ended. -/
def execCkvSync (q r : BitVec 1) (sc : BitVec 3) (s : State) : Out :=
  let e := s.entry 2
  -- the writes that it acquires are the core's own transfers'
  let _ := q
  copy r sc (if s.transfers.any fun h => h.core == s.cur && h.seq.toNat < e.seq.toNat then .stop s else .ok none s)

def State.kvHalf (s : State) (id : Nat) : Option KvHalf := s.transfers.find? (·.id == id)
def State.setHalf (s : State) (h : KvHalf) : State := { s with transfers := s.transfers.map fun (x : KvHalf) => if x.id = h.id then h else x }

/-- The halves of a transfer have met: they disagree and both end with no page moved, or the pages begin to move. -/
def execKvHalvesMatch (send pull : Nat) (s : State) : Out :=
  .next <|
    match s.kvHalf send, s.kvHalf pull with
    | some a, some b =>
      if a.pull || !b.pull || !s.kvMeet a b then s
      else if kvPsz a.words ≠ kvPsz b.words || kvPages a.words ≠ kvPages b.words then (s.endHalf a 3).endHalf b 3
      else ((s.setHalf { a with peer := some pull }).setHalf { b with peer := some send }).later (.event (.kvPageLanded pull 0))
    | _, _ => s

/-- The party of the write of a receiver's part: its core, where the sender's is of the same package, and else another package (R270). -/
def kvWriter (a b : KvHalf) : Nat := if ckNode a.core = ckNode b.core then b.core else ckNode b.core * 256 + 144

/-- Line j of a part of a listed page: address, ENC, CHK. -/
def kvAt (x : Nat × Bool × Bool) (j : Nat) : Page := { pa := x.1 + 64 * j, left := 64, enc := x.2.1, chk := x.2.2 }

/-- A device access of a half to a line that its home refuses: an error response, with the home's record (R304). -/
def State.kvRefused (s : State) (h : KvHalf) (pg : Page) (acc : Nat) : Option State :=
  (s.homeRefuses (s.party h.core) pg.pa 64 acc pg.enc).map fun c => (s.refuseSent (s.party h.core) pg.pa c).2

/-- Moves one line of a sender's part to a receiver's: it is read at its home, over the fabric if that is another node, and written at its
home likewise (R44, R215, R279). An error response, an uncorrectable error or a race at either side keeps it from moving, and names that side:
the receiver's (true) or the sender's (log entry 96). -/
def State.kvMove (s : State) (a b : KvHalf) (x y : Page) : Option Bool × State :=
  match s.kvRefused a x 0 with
  | some s => (some false, s)
  | none =>
  if (s.poisonAt x.pa 64).isSome then (some false, s)
  else match s.racing a.core x 64 with
  | (some _, s) => (some false, s.count (ckNode a.core) 0x70)
  | (none, s) =>
  match s.fabric a.core x.pa with
  | (_, some _, _, s) => (some false, s)
  | (_, none, _, s) =>
  match s.kvRefused b y 1 with
  | some s => (some true, s)
  | none =>
  match s.racing (kvWriter a b) y 64 with
  | (some _, s) => (some true, s.count (ckNode b.core) 0x71)
  | (none, s) =>
    let bs := s.keyBytes (if x.enc then s.lineKey x.pa else none) x.pa 64
    let (done, failed, seq, s) := s.fabric b.core y.pa
    let s := if done then ((s.poke (if y.enc then s.lineKey y.pa else none) y.pa bs).noteWrite (kvWriter a b) y 64).cacheOwn b.core y.pa seq 0 else s
    (if failed.isSome then some true else none, s)

/-- One 4 KiB part moves, line by line, until one does not. -/
def State.kvPart (s : State) (a b : KvHalf) (i : Nat) : Option Bool × State :=
  match a.pages[i]?, b.pages[i]? with
  | some x, some y => (List.range 64).foldl (fun t j => if t.1.isSome then t else t.2.kvMove a b (kvAt x j) (kvAt y j)) (none, s)
  | _, _ => (none, s)

/-- A page of a transfer waits for room among the requests to a node that it lies at (R281). -/
def State.kvFull (s : State) (a b : KvHalf) (page per : Nat) : Bool :=
  (List.range per).any fun j => (match a.pages[page * per + j]? with | some x => s.portFullOf (ckNode a.core) x.1 | none => false) ||
    (match b.pages[page * per + j]? with | some y => s.portFullOf (ckNode b.core) y.1 | none => false)

/-- KV_PAGE_LANDED: a page of the transfer moves. An error at either side ends that side with CODE 5. -/
def execKvPageLanded (pull page : Nat) (s : State) : Out :=
  .next <|
    match s.kvHalf pull with
    | none => s
    | some b =>
      match b.peer.bind s.kvHalf with
      | none => s
      | some a =>
        let per := 2 ^ kvPsz b.words
        if page ≠ b.landed then s
        else if s.kvFull a b page per then s.wake (.event (.kvPageLanded pull page))
        else match (List.range per).foldl (fun t j => if t.1.isSome then t else t.2.kvPart a b (page * per + j)) ((none : Option Bool), s) with
          | (some false, s) => s.endHalf a 5
          | (some true, s) => s.endHalf b 5
          | (none, s) =>
            let s := (s.setHalf { a with landed := page + 1 }).setHalf { b with landed := page + 1 }
            if page + 1 < kvPages b.words then s.later (.event (.kvPageLanded pull (page + 1)))
            else (s.later (.event (.kvTransferEnd pull 1))).later (.event (.kvTransferEnd a.id 1))

/-- The lines of a receiver's pages that have not landed hold their old or their new bytes when it times out: each may have moved, with the
checks that every line meets. -/
def State.kvHalfLanded (s : State) (a b : KvHalf) : State :=
  let from_ := b.landed * 2 ^ kvPsz b.words
  (((a.pages.zip b.pages).drop from_).flatMap fun x => (List.range 64).map fun j => (x, j)).foldl (fun s e =>
    let (new, s) := s.pickBool
    if new then (s.kvMove a b (kvAt e.1.1 e.2) (kvAt e.1.2 e.2)).2 else s) s

/-- R215: a half that has not ended within TMO of its post times out. -/
def execKvTransferTimeout (half : Nat) (s : State) : Out :=
  .next <|
    match s.kvHalf half with
    | none => s
    | some h =>
      if s.clock - h.posted < kvTmo h.words * 1000 * usCycles then s.later (.event (.kvTransferTimeout half))
      else
        let s := match h.pull, h.peer.bind s.kvHalf with
          | true, some a => s.kvHalfLanded a h
          | _, _ => s
        s.endHalf h 2

/-- A half ends with a CODE (R215): 1 after the last page of a matched transfer, 4 when its peer is lost. -/
def execKvTransferEnd (half code : Nat) (s : State) : Out :=
  .next <|
    match s.kvHalf half with
    | none => s
    | some h =>
      if code = 1 && !(h.peer.isSome && h.landed == kvPages h.words) then s
      else if 1 ≤ code && code ≤ 6 then s.endHalf h code else s

/-- A function of a package has been unbound, reset or rebound: the halves that name it lose their peer (R215). -/
def State.kvPeerLost (s : State) (node func : Nat) : State :=
  ((s.transfers.filter fun h => s.endpointOf (kvPeer h.words) == some (node, func)).map (·.id)).foldl (fun s id =>
    match s.kvHalf id with
    | some h => s.endHalf h 4
    | none => s) s

end Sys2Proof.Machine
end

