-- ==== Sys2Proof/Machine/Sketch.lean ====
section
/-!
DEFINITION. Sparse-update sets and their sketches (R221 to R228): the descriptor and its LOCK, cells, the region kept by
linear probing, and the eight csk forms.
-/
namespace Sys2Proof.Machine

/-! ### Access to the set's areas -/

/-- Reads a range that the descriptor leads to; the switch window is the wrong space for it (R203). -/
def State.setRead (s : State) (va n : Nat) : Res (List Byte) :=
  if inWindow va then .stop (s.park 2 0xB0 (BitVec.ofNat 64 va) 0) else s.rangeRead 2 va n

def State.setWordAt (s : State) (va : Nat) : Res W64 := (s.setRead va 8).then_ fun bs s => .ok (bytesWord bs) s

/-- Whether the lines of a range may be written: what parks them parks before any write. -/
def State.linesMay (s : State) : List Seg → Res Unit
  | [] => .ok () s
  | g :: t =>
    match s.homeRefuses (s.party s.cur) g.pg.pa g.len 1 g.pg.enc with
    | some c =>
      let (h, s) := s.refuseSent (s.party s.cur) g.pg.pa c
      .stop (s.park 2 0x60 (BitVec.ofNat 64 g.va) (BitVec.ofNat 64 h))
    | none =>
      match s.racing s.cur g.pg g.len with
      | (some w, s) => .stop (s.park 2 0x71 (BitVec.ofNat 64 g.va) w)
      | (none, s) => s.linesMay t

/-- A write to be made: kind, address, bytes. -/
abbrev Put := Kind × Nat × List Byte

def State.allMay (s : State) : List Put → Res Unit
  | [] => .ok () s
  | (k, va, bs) :: t =>
    if inWindow va then .stop (s.park 2 0xB0 (BitVec.ofNat 64 va) 0)
    else (s.segs 2 k va bs.length (segFuel bs.length)).then_ fun l s => (s.linesMay (allLines l)).then_ fun _ s => s.allMay t

def State.putEach (s : State) : List Put → Res Unit
  | [] => .ok () s
  | (k, va, bs) :: t => (s.rangeWrite 2 k va bs).then_ fun _ s => s.putEach t

/-- Writes several ranges, none unless all may be written, so that a parked step leaves nothing behind. -/
def State.putAll (s : State) (l : List Put) : Res Unit := (s.allMay l).then_ fun _ s => s.putEach l

/-! ### The descriptor (Table 12.6) -/

structure SetDesc where
  at_ : Nat
  ws : List W64
  deriving DecidableEq, Repr

def SetDesc.w (d : SetDesc) (i : Nat) : W64 := d.ws.getD i 0
def SetDesc.region (d : SetDesc) : Nat := (d.w 0).fld 0 48
def SetDesc.esize (d : SetDesc) : Nat := (d.w 1).fld 32 16
def SetDesc.cap (d : SetDesc) : Nat := (d.w 1).fld 0 32
def SetDesc.sketch (d : SetDesc) : Nat := (d.w 2).fld 0 48
def SetDesc.round (d : SetDesc) : Nat := (d.w 3).fld 59 4
def SetDesc.c (d : SetDesc) : Nat := (d.w 3).fld 41 18
def SetDesc.skmax (d : SetDesc) : Nat := (d.w 3).fld 23 18
def SetDesc.nout (d : SetDesc) : Nat := (d.w 3).fld 0 16
def SetDesc.rx (d : SetDesc) : Nat := (d.w 4).fld 0 48
def SetDesc.peerRx (d : SetDesc) : Nat := (d.w 5).fld 0 48
def SetDesc.outcap (d : SetDesc) : Nat := (d.w 6).fld 48 16
def SetDesc.out (d : SetDesc) : Nat := (d.w 6).fld 0 48
def SetDesc.peerReg (d : SetDesc) : Nat := (d.w 8).fld 0 48

/-- A broken range or alignment, or a reserved bit that is set. -/
def SetDesc.broken (d : SetDesc) : Bool :=
  [0, 1, 2, 4, 5, 8].any (fun i => (d.w i).fld 48 16 != 0) || (d.w 3).fld 16 7 != 0 || (d.ws.drop 9).any (· ≠ 0) ||
    d.region % 8 != 0 || d.esize % 8 != 0 || d.esize < 8 || 4096 < d.esize || d.cap == 0 || d.sketch % 32 != 0 || d.outcap == 0

/-- Whether C fits a form other than csk.init. -/
def SetDesc.fits (d : SetDesc) : Bool := d.c % 3 == 0 && 3 ≤ d.c && d.c ≤ d.skmax

/-- Word 3 with other C, ROUND and NOUT, and LOCK. -/
def SetDesc.word3 (d : SetDesc) (lock : Bool) (c round nout : Nat) : W64 :=
  BitVec.ofNat 64 ((if lock then 2 ^ 63 else 0) + round % 16 * 2 ^ 59 + c * 2 ^ 41 + d.skmax * 2 ^ 23 + nout)

def State.setProg (s : State) (f : Progress → Progress) : State := s.setRing 2 { s.ring 2 with prog := f (s.ring 2).prog }
def State.prog (s : State) : Progress := (s.ring 2).prog

/-- Takes LOCK (R228), unless the entry holds it, as an acquire at package scope; found set by another command, it is waited
for. -/
def State.takeLock (s : State) (a : Nat) : Res Unit :=
  if s.prog.lock then .ok () s
  else
    (s.engPage 2 (a + 24) .atomic).then_ fun pg s =>
      (engAcc 2 (a + 24) pg.pa ((s.acquireAt s.cur 2 pg.pa 8).atomicAt s.cur pg (· ||| BitVec.ofNat 64 (2 ^ 63)))).then_ fun old s =>
        if old.fld 63 1 = 1 then .stop (s.wake (.ring s.cur 2))
        else .ok () (s.setProg fun p => { p with lock := true })

/-- Reads the descriptor, and refuses one that is broken or, but for csk.init, was never initialised. -/
def State.readSet (s : State) (init : Bool) : Res SetDesc :=
  let capa := (s.entry 2).capa
  (s.setRead capa.toNat 128).then_ fun bs s =>
    let d : SetDesc := { at_ := capa.toNat, ws := wordsOf bs }
    if d.broken || !(init || d.fits) then .stop (s.park 2 0xC0 capa 0) else .ok d s

/-- Writes word 3 with LOCK 0, as a release at package scope. -/
def State.giveLock (s : State) (d : SetDesc) (c round nout : Nat) : Res Unit :=
  (s.engPage 2 (d.at_ + 24) .write).then_ fun pg s =>
    (s.lineWrite 2 { va := d.at_ + 24, len := 8, pg := pg } (wordBytes (d.word3 false c round nout))).then_ fun _ s =>
      .ok () (((s.countRelease s.cur).stamp s.cur 2 pg.pa 8).setProg fun p => { p with lock := false })

/-- What a csk form ends with: OP, CODE, COUNTA and COUNTB, word 3, and an error record. -/
def State.setDone (s : State) (d : SetDesc) (op code a b c round nout : Nat) (rec : Option Nat) : Res (Option Nat) :=
  let w7 : W64 := BitVec.ofNat 64 (b % 2 ^ 24 * 2 ^ 40 + a % 2 ^ 24 * 2 ^ 16 + op * 2 ^ 8 + code)
  (s.putAll [(.write, d.at_ + 56, wordBytes w7)]).then_ fun _ s =>
    (if s.prog.lock then s.giveLock d c round nout else .ok () s).then_ fun _ s =>
      (s.engPage 2 (d.at_ + 56) .write).then_ fun pg s =>
        let s := match rec with
          | some x => s.record s.node { s.coreRec s.cur x 4 with kind := 1, addr := BitVec.ofNat 64 d.at_, detail := (s.entry 2).seq }
          | none => s
        .ok (some (pg.pa + 7)) s

/-! ### Cells (R222) -/

structure Cell where
  count : W32
  keyx : W64
  chkx : W64
  deriving DecidableEq, Repr

def chk (k : W64) : W64 := k.rotateLeft 17 + k
def cellOf (bs : List Byte) : Cell :=
  { count := (bytesWord bs).setWidth 32, keyx := bytesWord (bs.drop 8), chkx := bytesWord (bs.drop 16) }
def cellBytes (x : Cell) : List Byte := leBytes 8 x.count.toNat ++ wordBytes x.keyx ++ wordBytes x.chkx ++ List.replicate 8 0
/-- The three cells of a key among c. -/
def cellsOf (c : Nat) (k : W64) : List Nat :=
  let p := c / 3
  [k.toNat % p, p + k.toNat / 2 ^ 8 % p, 2 * p + k.toNat / 2 ^ 16 % p]
/-- Adds a key with a sign to a cell. -/
def Cell.add (x : Cell) (k : W64) (plus : Bool) : Cell :=
  { count := if plus then x.count + 1 else x.count - 1, keyx := x.keyx ^^^ k, chkx := x.chkx ^^^ chk k }
def Cell.pure (x : Cell) : Bool := (x.count == 1 || x.count == BitVec.allOnes 32) && chk x.keyx == x.chkx
def Cell.zero (x : Cell) : Bool := x.count == 0 && x.keyx == 0 && x.chkx == 0

def State.readCell (s : State) (base i : Nat) : Res Cell := (s.setRead (base + 32 * i) 32).then_ fun bs s => .ok (cellOf bs) s

/-- The writes that add a key to a sketch of c cells. -/
def State.addPuts (s : State) (base : Nat) (k : W64) (plus : Bool) : List Nat → Res (List Put)
  | [] => .ok [] s
  | i :: t =>
    (s.readCell base i).then_ fun x s =>
      (s.addPuts base k plus t).then_ fun l s => .ok ((.write, base + 32 * i, cellBytes (x.add k plus)) :: l) s

/-! ### The region (R225) -/

/-- find: whether the key is present, and its slot or the slot an insert takes. -/
def State.setFind (s : State) (base esize cap : Nat) (k : W64) (t : Nat) (free : Option Nat) : Nat → Res (Bool × Option Nat)
  | 0 => .ok (false, free) s
  | fuel + 1 =>
    let j := (k.toNat + t) % cap
    (s.setWordAt (base + j * esize)).then_ fun x s =>
      if x = k then .ok (true, some j) s
      else if x = 0 then .ok (false, some (free.getD j)) s
      else s.setFind base esize cap k (t + 1) (if x = BitVec.allOnes 64 then some (free.getD j) else free) fuel

def State.find (s : State) (d : SetDesc) (base : Nat) (k : W64) : Res (Bool × Option Nat) := s.setFind base d.esize d.cap k 0 none d.cap

/-- A key that cannot be a member parks with 0xC3. -/
def badKey (k : W64) : Bool := k == 0 || k == BitVec.allOnes 64

/-- insert: true if the entry was written. -/
def State.setInsert (s : State) (d : SetDesc) (entry : List Byte) : Res Bool :=
  let k := bytesWord entry
  if badKey k then .stop (s.park 2 0xC3 k 0)
  else (s.find d d.region k).then_ fun f s =>
    match f with
    | (true, _) => .ok false s
    | (false, none) => .stop (s.park 2 0xC4 k 0)
    | (false, some j) =>
      (s.addPuts d.sketch k true (cellsOf d.c k)).then_ fun l s =>
        (s.putAll ((.set, d.region + j * d.esize, entry) :: l)).then_ fun _ s => .ok true s

/-- delete: true if the key was present. -/
def State.setDelete (s : State) (d : SetDesc) (k : W64) : Res Bool :=
  if badKey k then .stop (s.park 2 0xC3 k 0)
  else (s.find d d.region k).then_ fun f s =>
    match f with
    | (true, some j) =>
      (s.addPuts d.sketch k false (cellsOf d.c k)).then_ fun l s =>
        (s.putAll ((.set, d.region + j * d.esize, List.replicate 8 (BitVec.allOnes 8) ++ List.replicate (d.esize - 8) 0) :: l)).then_
          fun _ s => .ok true s
    | _ => .ok false s

/-- Makes every slot from j on empty. -/
def State.clearSlots (s : State) (d : SetDesc) (j : Nat) : Nat → Res Unit
  | 0 => .ok () s
  | fuel + 1 =>
    (s.putAll [(.set, d.region + j * d.esize, List.replicate d.esize 0)]).then_ fun _ s => s.clearSlots d (j + 1) fuel

/-- Rebuilds the sketch of c cells from the region, from the progress on: first the cells are zeroed, then each slot in use
is added; the slots in use are counted. -/
def State.rebuild (s : State) (d : SetDesc) (c : Nat) : Nat → Res Unit
  | 0 => .ok () s
  | fuel + 1 =>
    let p := s.prog.pos
    if p < c then
      (s.putAll [(.write, d.sketch + 32 * p, List.replicate 32 0)]).then_ fun _ s =>
        (s.setProg fun x => { x with pos := p + 1 }).rebuild d c fuel
    else if p < c + d.cap then
      (s.setWordAt (d.region + (p - c) * d.esize)).then_ fun k s =>
        if badKey k then (s.setProg fun x => { x with pos := p + 1 }).rebuild d c fuel
        else (s.addPuts d.sketch k true (cellsOf c k)).then_ fun l s =>
          (s.putAll l).then_ fun _ s => (s.setProg fun x => { x with pos := p + 1, n := x.n + 1 }).rebuild d c fuel
    else .ok () s

/-- Writes the receive header as csk.init and csk.rsz leave it. -/
def State.zeroHeader (s : State) (d : SetDesc) : Res Unit :=
  s.putAll [(.write, d.rx, List.replicate 8 0 ++ leBytes 8 d.skmax ++ List.replicate 16 0)]

/-! ### The forms (R223 to R227) -/

/-- A form that holds LOCK from its first access to its last. -/
def csk (init : Bool) (q r : BitVec 1) (sc : BitVec 3) (s : State) (body : SetDesc → State → Res (Option Nat)) : Out :=
  copy r sc (((s.descAcquire q sc).takeLock (s.entry 2).capa.toNat).then_ fun _ s => (s.readSet init).then_ body)

def execCskInit (q r : BitVec 1) (sc : BitVec 3) (cl : BitVec 1) (s : State) : Out :=
  let c := s.me.skCells.fld 0 18
  if c % 3 ≠ 0 || c < 3 || 196605 < c then .next (s.park 2 0xC1 0x050 0)
  else csk true q r sc s fun d s =>
    if d.skmax < c then .stop (s.park 2 0xC2 (BitVec.ofNat 64 c) 0)
    else
      let s := s.setProg fun p => { p with pos := 0, n := 0 }
      (s.zeroHeader d).then_ fun _ s =>
        (if cl = 1 then s.clearSlots d 0 d.cap else .ok () s).then_ fun _ s =>
          (s.rebuild d c (c + d.cap + 1)).then_ fun _ s => s.setDone d 0x1E 0 s.prog.n 0 c 0 0 none

/-- Entries to insert, or keys to delete, counted. -/
def State.setEach (s : State) (f : List Byte → State → Res Bool) (n : Nat) : List (List Byte) → Res Nat
  | [] => .ok n s
  | x :: t => (f x s).then_ fun b s => s.setEach f (if b then n + 1 else n) t

def execCskIns (q r : BitVec 1) (sc : BitVec 3) (s : State) : Out :=
  let b := (s.entry 2).capb
  let src := b.fld 0 22
  let n := b.fld 32 20
  csk false q r sc s fun d s =>
    if ringRegion < src + n * d.esize then .stop (s.park 2 0x82 (BitVec.ofNat 64 (max src ringRegion)) 0)
    else (s.padRead 2 (span src (n * d.esize))).then_ fun bs s =>
      (s.setEach (fun x s => s.setInsert d x) 0 (pieces d.esize n bs)).then_ fun k s =>
        s.setDone d 0x1F 0 k (n - k) d.c d.round d.nout none

def execCskDel (q r : BitVec 1) (sc : BitVec 3) (s : State) : Out :=
  let b := (s.entry 2).capb
  let n := b.fld 32 20
  csk false q r sc s fun d s =>
    (s.padRead 2 (span (b.fld 0 22) (8 * n))).then_ fun bs s =>
      (s.setEach (fun x s => s.setDelete d (bytesWord x)) 0 (pieces 8 n bs)).then_ fun k s =>
        s.setDone d 0x20 0 k (n - k) d.c d.round d.nout none

/-- The receive header's word 0 (R221). -/
def header (c round : Nat) (valid diff : Bool) : W64 :=
  BitVec.ofNat 64 (c + round * 2 ^ 20 + (if valid then 2 ^ 24 else 0) + (if diff then 2 ^ 25 else 0))
def hdrValid (w : W64) : Bool := w.fld 24 1 == 1
def hdrDiff (w : W64) : Bool := w.fld 25 1 == 1

def execCskSend (q r : BitVec 1) (sc : BitVec 3) (s : State) : Out :=
  copy r sc (((s.descAcquire q sc).readSet false).then_ fun d s =>
    (s.setWordAt (d.peerRx + 8)).then_ fun w1 s =>
      if w1.fld 0 18 < d.c then .stop (s.park 2 0xCB (BitVec.ofNat 64 d.peerRx) 0)
      else (s.takeLock d.at_).then_ fun _ s =>
        (s.readSet false).then_ fun d s =>
          (s.setRead d.sketch (32 * d.c)).then_ fun bs s =>
            (s.giveLock d d.c d.round d.nout).then_ fun _ s =>
              (s.putAll [(.write, d.peerRx + 32, bs)]).then_ fun _ s =>
                if inWindow d.peerRx then .stop (s.park 2 0xB0 (BitVec.ofNat 64 d.peerRx) 0)
                else (s.engPage 2 d.peerRx .write).then_ fun pg s =>
                  (s.lineWrite 2 { va := d.peerRx, len := 8, pg := pg } (wordBytes (header d.c d.round true false))).then_ fun _ s =>
                    ((s.countRelease s.cur).stamp s.cur 3 pg.pa 8).setDone d 0x21 0 0 0 d.c d.round d.nout none)

/-- Reads the receive header with an acquire at pod scope. -/
def State.readHeader (s : State) (d : SetDesc) : Res W64 :=
  if inWindow d.rx then .stop (s.park 2 0xB0 (BitVec.ofNat 64 d.rx) 0)
  else
    (s.engPage 2 d.rx .read).then_ fun pg s =>
      (engAcc 2 d.rx pg.pa ((s.acquireAt s.cur 3 pg.pa 8).loadAt s.cur pg 8)).then_ fun bs s => .ok (bytesWord bs) s

/-- RX := local − RX, cell by cell from the progress on. -/
def State.subtract (s : State) (d : SetDesc) : Nat → Res Unit
  | 0 => .ok () s
  | fuel + 1 =>
    let i := s.prog.pos
    if d.c ≤ i then .ok () s
    else
      (s.readCell d.sketch i).then_ fun x s =>
        (s.readCell (d.rx + 32) i).then_ fun y s =>
          let z : Cell := { count := x.count - y.count, keyx := x.keyx ^^^ y.keyx, chkx := x.chkx ^^^ y.chkx }
          (s.putAll [(.write, d.rx + 32 + 32 * i, cellBytes z)]).then_ fun _ s =>
            (s.setProg fun p => { p with pos := i + 1 }).subtract d fuel

def execCskXchg (q r : BitVec 1) (sc : BitVec 3) (s : State) : Out :=
  csk false q r sc s fun d s =>
    (s.readHeader d).then_ fun h s =>
      if s.prog.pos = 0 && !(hdrValid h && !hdrDiff h && h.fld 0 18 == d.c && h.fld 20 4 == d.round) then .stop (s.park 2 0xC7 h 0)
      else (s.subtract d (d.c + 1)).then_ fun _ s =>
        (s.putAll [(.write, d.rx, wordBytes (h ||| BitVec.ofNat 64 (2 ^ 25)))]).then_ fun _ s =>
          s.setDone d 0x22 0 0 0 d.c d.round d.nout none

/-- Sweeps over RX, from the progress on: CODE 3 when the output list is full, else 0; each peeled key goes to OUT and out of
its three cells. -/
def State.peel (s : State) (d : SetDesc) : Nat → Res Nat
  | 0 => .ok 0 s
  | fuel + 1 =>
    let p := s.prog
    if d.c ≤ p.pos then
      if p.flag then (s.setProg fun x => { x with pos := 0, flag := false }).peel d fuel else .ok 0 s
    else
      (s.readCell (d.rx + 32) p.pos).then_ fun x s =>
        if !x.pure then (s.setProg fun y => { y with pos := p.pos + 1 }).peel d fuel
        else if p.n = d.outcap then .ok 3 s
        else
          (s.addPuts (d.rx + 32) x.keyx (x.count != 1) (cellsOf d.c x.keyx)).then_ fun l s =>
            (s.putAll ((.write, d.out + 16 * p.n, wordBytes x.keyx ++ wordBytes (x.count.signExtend 64)) :: l)).then_ fun _ s =>
              (s.setProg fun y => { y with pos := p.pos + 1, n := p.n + 1, flag := true }).peel d fuel

/-- Cells of RX that are not zero. -/
def State.cellsLeft (s : State) (d : SetDesc) (n : Nat) : List Nat → Res Nat
  | [] => .ok n s
  | i :: t => (s.readCell (d.rx + 32) i).then_ fun x s => s.cellsLeft d (if x.zero then n else n + 1) t

def execCskPeel (q r : BitVec 1) (sc : BitVec 3) (s : State) : Out :=
  csk false q r sc s fun d s =>
    (s.readHeader d).then_ fun h s =>
      if !hdrDiff h then .stop (s.park 2 0xC7 h 0)
      else (s.peel d ((d.outcap + 2) * (d.c + 1))).then_ fun full s =>
        (s.cellsLeft d 0 (List.range d.c)).then_ fun left s =>
          let code := if full = 3 then 3 else if left = 0 then 0 else 1
          (s.putAll [(.write, d.rx, wordBytes (h &&& ~~~(BitVec.ofNat 64 (2 ^ 24))))]).then_ fun _ s =>
            s.setDone d 0x23 code s.prog.n left d.c d.round s.prog.n (if code = 3 then some 0xCC else if code = 1 then some 0xC5 else none)

/-- One entry of OUT: whether it changed a slot, and whether its key was not found. -/
def State.fetchOne (s : State) (d : SetDesc) (mirror : Bool) (i : Nat) : Res (Nat × Nat) :=
  (s.setRead (d.out + 16 * i) 16).then_ fun bs s =>
    let k := bytesWord bs
    if (bytesWord (bs.drop 8)).fld 63 1 = 1 then
      (s.find d d.peerReg k).then_ fun f s =>
        match f with
        | (true, some j) =>
          (s.setRead (d.peerReg + j * d.esize) d.esize).then_ fun e s =>
            (s.setInsert d e).then_ fun b s => .ok (if b then 1 else 0, 0) s
        | _ => .ok (0, 1) s
    else if mirror then (s.setDelete d k).then_ fun b s => .ok (if b then 1 else 0, 0) s
    else .ok (0, 0) s

def State.fetchAll (s : State) (d : SetDesc) (mirror : Bool) : Nat → Res Unit
  | 0 => .ok () s
  | fuel + 1 =>
    let i := s.prog.pos
    if d.nout ≤ i then .ok () s
    else (s.fetchOne d mirror i).then_ fun x s =>
      (s.setProg fun p => { p with pos := i + 1, a := p.a + x.1, b := p.b + x.2 }).fetchAll d mirror fuel

def execCskFetch (q r : BitVec 1) (sc : BitVec 3) (m : BitVec 1) (s : State) : Out :=
  csk false q r sc s fun d s =>
    (s.fetchAll d (m == 1) (d.nout + 1)).then_ fun _ s => s.setDone d 0x24 0 s.prog.a s.prog.b d.c d.round d.nout none

def execCskRsz (q r : BitVec 1) (sc : BitVec 3) (s : State) : Out :=
  let grow := s.me.skGrow.fld 0 4
  let rounds := s.me.skRounds.fld 0 4
  if !s.prog.flag && grow < 2 then .next (s.park 2 0xC1 0x051 0)
  else csk false q r sc s fun d s =>
    let build (d : SetDesc) (c round : Nat) (s : State) : Res (Option Nat) :=
      (s.rebuild d c (c + d.cap + 1)).then_ fun _ s => s.setDone d 0x25 0 s.prog.n c c round d.nout none
    if s.prog.flag then build d d.c d.round s
    else if d.round = rounds then s.setDone d 0x25 2 0 d.c d.c d.round d.nout (some 0xC6)
    else
      let c := d.c * grow
      if d.skmax < c || 196605 < c then .stop (s.park 2 0xC2 (BitVec.ofNat 64 c) 0)
      else
        (s.allMay [(.write, d.at_ + 24, List.replicate 8 0)]).then_ fun _ s =>
          (s.zeroHeader d).then_ fun _ s =>
            (s.putAll [(.write, d.at_ + 24, wordBytes (d.word3 true c (d.round + 1) d.nout))]).then_ fun _ s =>
              build d c (d.round + 1) (s.setProg fun p => { p with flag := true, pos := 0, n := 0 })

end Sys2Proof.Machine
end

