-- ==== Sys2Proof/Machine/Push.lean ====
section
/-!
DEFINITION. The push of an engine instruction: its checks in their order (R109, R53, R156, R164, R185, R203, R148, R154),
what it captures, and the entries it writes (R143, R144).
-/
namespace Sys2Proof.Machine

/-! ### Shapes -/

/-- The shape register that an engine word of a ring names (R112, R113). -/
def namedShape (r : Nat) (w : W32) : Option (Fin 8) :=
  if r = 0 then (if w.fld 26 6 = 0x32 || w.fld 26 6 = 0x34 then none else some (Fin.ofNat 8 (w.fld 5 3)))
  else if r = 1 then (if w.fld 27 5 = 0x18 then none else some (Fin.ofNat 8 (w.fld 15 3)))
  else none

/-- R53: the captured shape, or the cause. -/
def Core.shapeFor (c : Core) (r : Nat) (w : W32) : Except (Nat × W64) W64 :=
  match namedShape r w with
  | none => .ok 0
  | some i =>
    let sh := c.sh[i]
    let n := BitVec.ofNat 64 i.val
    if sh.fld 63 1 = 0 then .error (0x30, n)
    else if sh.fld 62 1 = 1 then .error (0x31, n)
    else if sh.fld 61 1 ≠ r then .error (0x32, n)
    else .ok sh

/-- The shape widths that a vector form admits (R156, R172). -/
def widthOk (e : Nat) : Instr → Bool
  | .vaddInt _ _ _ _ _ x => x.toNat % 2 == 1 || e != 16
  | .vsubInt _ _ _ _ _ x => x.toNat % 2 == 1 || e != 16
  | .vmulInt _ _ _ _ _ x => x.toNat % 2 == 1 || e != 16
  | .vmulh _ _ _ _ _ u => u == 1 || e != 16
  | .vminInt _ _ _ _ _ u => u == 1 || e != 16
  | .vmaxInt _ _ _ _ _ u => u == 1 || e != 16
  | .vabsInt _ _ _ _ => e != 16
  | .vshr _ _ _ _ _ u => u == 1 || e != 16
  | .vcmpSigned _ _ _ _ _ _ => e != 16
  | .vredInt _ _ u _ _ _ => u == 1 || e != 16
  | .vscanInt _ _ u _ _ _ => u == 1 || e != 16
  | .vcvt _ _ t _ _ _ => e == max (floatOf (bits t.toNat 3 3)).width (floatOf (bits t.toNat 0 3)).width
  | .vcvtSat _ _ t _ _ _ => e == max (floatOf (bits t.toNat 3 3)).width (floatOf (bits t.toNat 0 3)).width
  | .vcvtFloatToInt _ _ t _ _ _ => e == max (intWidth (bits t.toNat 3 3)) (floatOf (bits t.toNat 0 3)).width
  | .vcvtIntToFloat _ _ t _ _ _ => e == max (floatOf (bits t.toNat 3 3)).width (intWidth (bits t.toNat 0 3))
  | .vcvtIntToInt _ _ t _ _ _ => e == max (intWidth (bits t.toNat 3 3)) (intWidth (bits t.toNat 0 3))
  | .vcmpUnsigned _ _ _ _ _ _ => true
  | .vand _ _ _ _ _ => true
  | .vor _ _ _ _ _ => true
  | .vxor _ _ _ _ _ => true
  | .vshl _ _ _ _ _ => true
  | .vsel _ _ _ _ _ => true
  | .vmask _ _ _ _ _ => true
  | .vmov _ _ _ _ => true
  | .vperm _ _ _ _ _ => true
  | .vrot _ _ _ _ => true
  | .viota _ _ _ => true
  | .vsplat _ _ _ _ => true
  | .vport _ _ => true
  | .vportd _ _ => true
  | .vrep _ => true
  | .vnop => true
  | .addI64 .. | .subI64 .. | .mulI64 .. | .mulhI64 .. | .mulhW64 .. | .divI64 .. | .divW64 .. | .remI64 .. | .andW64 .. | .orW64 ..
    | .xorW64 .. | .shlI64 .. | .shrW64 .. | .sraI64 .. | .cmpEqI64 .. | .cmpNeI64 .. | .cmpLtI64 .. | .cmpGeI64 .. | .cmpLtW64 ..
    | .cmpGeW64 .. | .pand .. | .por .. | .pxor .. | .pandn .. | .pset .. | .pget .. | .addiI64 .. | .andiW64 .. | .oriW64 ..
    | .xoriW64 .. | .shliI64 .. | .shriW64 .. | .sraiI64 .. | .li .. | .lea .. | .bxlen .. | .br .. | .call .. | .jr .. | .ret ..
    | .loop .. | .ldW8 .. | .ldW16 .. | .ldW32 .. | .ldW64 .. | .ldI8 .. | .ldI32 .. | .stW8 .. | .stW16 .. | .stW32 .. | .stW64 ..
    | .ldAcqW32 .. | .ldAcqW64 .. | .stRelW32 .. | .stRelW64 .. | .waitTk .. | .barWait .. | .ldwfW64 .. | .stweW64 .. | .pop ..
    | .sigTk .. | .barArrive .. | .join .. | .leave .. | .amoAddW64 .. | .amoMinI64 .. | .amoMaxI64 .. | .amoAndW64 .. | .amoOrW64 ..
    | .amoXorW64 .. | .amoXchgW64 .. | .amoCasW64 .. | .fence .. | .fenceR .. | .rld .. | .setshapeV .. | .setshapeM .. | .asnap ..
    | .tstat .. | .swalloc .. | .swfree .. | .swquota .. | .yield .. | .enqueuePrefix .. | .trap .. | .rft .. | .endThread .. | .csrr ..
    | .csrw .. | .resume .. | .qreset .. | .tinvPg1 .. | .tinvRg1 .. | .tinvAll1 .. | .tinvPg2 .. | .tinvRg2 .. | .tinvAll2 .. | .einj ..
    | .takeIb .. | .commitIb .. | .attest .. | .vaddF32 .. | .vsubF32 .. | .vmulF32 .. | .vfmaF32 .. | .vfmaF32TMultiplier ..
    | .vminF32 .. | .vmaxF32 .. | .vabsF32 .. | .vnegF32 .. | .vcmpF32 .. | .vrcpF32 .. | .vrsqrtF32 .. | .vexp2F32 .. | .vlog2F32 ..
    | .vtanhF32 .. | .vbscale .. | .vquant .. | .vredF32 .. | .vscanF32 .. | .vpart .. | .mld .. | .mldt .. | .mwld .. | .mwldt ..
    | .mmulOvw .. | .mmulAcc .. | .mgangOvw .. | .mgangAcc .. | .mzero .. | .macc .. | .mldacc .. | .mescale .. | .mescv .. | .mebias ..
    | .meact .. | .meclamp .. | .mecvt .. | .mst .. | .mstn .. | .msnap .. | .mstt .. | .mmov .. | .mtr .. | .mnop .. | .cldHbm ..
    | .cstHbm .. | .cld2d .. | .cst2d .. | .ccpy .. | .ccvt .. | .cgat .. | .csct .. | .cfill .. | .cfillSp .. | .ctag .. | .cpref ..
    | .cmovSp .. | .cmst .. | .ckvSend .. | .ckvPull .. | .ckvSync .. | .cldSw .. | .cstSw .. | .credInit .. | .credSw .. | .cldrSw ..
    | .credDrop .. | .cmstSw .. | .cbatAdd .. | .cbatMin .. | .cbatMax .. | .cbatOr .. | .cbatXchg .. | .cskInit .. | .cskIns ..
    | .cskDel .. | .cskSend .. | .cskXchg .. | .cskPeel .. | .cskFetch .. | .cskRsz .. | .cnop .. | .cfence .. | .csig ..
    | .commandMessage .. | .slotLoad .. | .slotUnload .. | .slotQuery .. | .invoke .. | .schedSet .. | .admitRequest .. | .cancel ..
    | .packRegister .. | .packDrop .. | .invocationStart .. | .iterationDispatch .. | .threadStart .. | .threadEnd ..
    | .copyNodeRetire .. | .nodeCond .. | .nodeWhile .. | .nodeNotify .. | .invocationRetire .. | .schedBoundary ..
    | .packPlacementDone .. | .translationWalk .. | .faultHandlerStart .. | .timedWaitTimeout .. | .watchdogExpire .. | .bankPowerGate ..
    | .loadQueueFill .. | .taggedRequestAtHome .. | .routerAtomic .. | .gangPartArrive .. | .gangPartCommit .. | .fabricRequestReceive ..
    | .retransmitTimeout .. | .replyReceive .. | .packetResidencyDrop .. | .heldReleasePerform .. | .switchPortDownTimeout ..
    | .switchDropNotice .. | .packageReset .. | .linkReady .. | .linkDown .. | .rejoinQuietExpire .. | .rejoinNotice .. | .rejoinAck ..
    | .rejoinAckTimeout .. | .probeFire .. | .probeReturn .. | .switchFailureDeclare .. | .switchFailureNotice .. | .mirrorAck ..
    | .reductionContribution .. | .reductionLoad .. | .reductionRoundTimeout .. | .d2dLinkFail .. | .kvHalvesMatch .. | .kvPageLanded ..
    | .kvTransferTimeout .. | .kvTransferEnd .. | .slbind .. | .funcStore .. | .preempt .. | .stopComplete .. | .freeze ..
    | .ctxopSave .. | .ctxopHold .. | .ctxopRestore .. | .ctxopResume .. | .contextSaveDone .. | .contextRestoreDone ..
    | .epbindDetach .. | .epbindAttach .. | .slfree .. | .fnfree .. | .keyctlLoad .. | .keyctlErase .. | .debugUnlock .. | .relbase ..
    | .reltail .. | .relovf .. | .relhead .. | .rstkbase .. | .spdmMessage .. | .operatorCommand .. | .imageWrite ..
    | .tenantKeyDelivery .. | .switchAttach .. | .switchReadmit .. | .readmitNotice .. | .lockstepMismatch .. | .workerTimeout ..
    | .thermalThrottle .. | .powerThrottle .. | .taggedWaitWithdrawal .. | .patrolScrub .. | .lifecycleChange .. => e == 32

/-! ### Ports of a vector entry (R164) -/

/-- Port-space value of a source or a destination specifier. -/
def srcPort (v n : Nat) : List (Nat × Nat) := if 0x30 ≤ v && v < 0x38 then [(v - 0x30, n)] else []
def dstPort (v n : Nat) : List (Nat × Nat) := if 0x30 ≤ v && v < 0x34 then [(v - 0x30 + 8, n)] else []

def ports3 (d a b : BitVec 6) (n : Nat) : List (Nat × Nat) := srcPort a.toNat n ++ srcPort b.toNat n ++ dstPort d.toNat n
def ports2 (d a : BitVec 6) (n : Nat) : List (Nat × Nat) := srcPort a.toNat n ++ dstPort d.toNat n
def portsCvt (d a : BitVec 6) (P sw tw : Nat) : List (Nat × Nat) := srcPort a.toNat ((P * sw + 7) / 8) ++ dstPort d.toNat ((P * tw + 7) / 8)

/-- The ports that an entry names in the order a, b, third operand, d, with the bytes it needs of each; an input port once. The
third operand of a multiply-add is no port. -/
def vecPorts (P e : Nat) (i : Instr) : List (Nat × Nat) :=
  let n := P * e / 8
  let l := match i with
    | .vaddF32 d a b _ _ _ => ports3 d a b n
    | .vsubF32 d a b _ _ _ => ports3 d a b n
    | .vmulF32 d a b _ _ _ => ports3 d a b n
    | .vfmaF32 d a b _ _ _ => ports3 d a b n
    | .vfmaF32TMultiplier d a b _ _ _ => ports3 d a b n
    | .vminF32 d a b _ _ => ports3 d a b n
    | .vmaxF32 d a b _ _ => ports3 d a b n
    | .vabsF32 d a _ _ => ports2 d a n
    | .vnegF32 d a _ _ => ports2 d a n
    | .vcmpF32 _ a b _ _ _ => srcPort a.toNat n ++ srcPort b.toNat n
    | .vrcpF32 d a _ _ => ports2 d a n
    | .vrsqrtF32 d a _ _ => ports2 d a n
    | .vexp2F32 d a _ _ => ports2 d a n
    | .vlog2F32 d a _ _ => ports2 d a n
    | .vtanhF32 d a _ _ => ports2 d a n
    | .vaddInt d a b _ _ _ => ports3 d a b n
    | .vsubInt d a b _ _ _ => ports3 d a b n
    | .vmulInt d a b _ _ _ => ports3 d a b n
    | .vmulh d a b _ _ _ => ports3 d a b n
    | .vminInt d a b _ _ _ => ports3 d a b n
    | .vmaxInt d a b _ _ _ => ports3 d a b n
    | .vabsInt d a _ _ => ports2 d a n
    | .vand d a b _ _ => ports3 d a b n
    | .vor d a b _ _ => ports3 d a b n
    | .vxor d a b _ _ => ports3 d a b n
    | .vshl d a b _ _ => ports3 d a b n
    | .vshr d a b _ _ _ => ports3 d a b n
    | .vcmpSigned _ a b _ _ _ => srcPort a.toNat n ++ srcPort b.toNat n
    | .vcmpUnsigned _ a b _ _ _ => srcPort a.toNat n ++ srcPort b.toNat n
    | .vsel d a b _ _ => ports3 d a b n
    | .vmov d a _ _ => ports2 d a n
    | .vcvt d a t _ _ _ => portsCvt d a P (floatOf (bits t.toNat 0 3)).width (floatOf (bits t.toNat 3 3)).width
    | .vcvtSat d a t _ _ _ => portsCvt d a P (floatOf (bits t.toNat 0 3)).width (floatOf (bits t.toNat 3 3)).width
    | .vcvtFloatToInt d a t _ _ _ => portsCvt d a P (floatOf (bits t.toNat 0 3)).width (intWidth (bits t.toNat 3 3))
    | .vcvtIntToFloat d a t _ _ _ => portsCvt d a P (intWidth (bits t.toNat 0 3)) (floatOf (bits t.toNat 3 3)).width
    | .vcvtIntToInt d a t _ _ _ => portsCvt d a P (intWidth (bits t.toNat 0 3)) (intWidth (bits t.toNat 3 3))
    | .vbscale d a f _ _ => srcPort a.toNat (imageBytes f.toNat (blocksOf f.toNat P)) ++ dstPort d.toNat n
    | .vquant d a f _ _ => srcPort a.toNat n ++ dstPort d.toNat (imageBytes f.toNat (blocksOf f.toNat P))
    | .vredF32 d a _ _ _ => ports2 d a n
    | .vredInt d a _ _ _ _ => ports2 d a n
    | .vscanF32 d a _ _ _ => ports2 d a n
    | .vscanInt d a _ _ _ _ => ports2 d a n
    | .vperm d a b _ _ => ports3 d a b n
    | .vrot d a _ _ => ports2 d a n
    | .viota d _ _ => dstPort d.toNat n
    | .vsplat d _ _ _ => dstPort d.toNat n
    | .vpart d a b _ _ => srcPort a.toNat n ++ [(b.toNat, n), (d.toNat, n)]
    | _ => []
  l.foldl (fun acc x => if x.1 < 8 && acc.any (·.1 == x.1) then acc else acc ++ [x]) []

/-- The first failure of the port checks, for uses taken c times: the cause and the port-space value. -/
def Core.portFault (c : Core) (uses : List (Nat × Nat)) (times : Nat) : Option (Nat × W64) :=
  uses.findSome? fun x =>
    match c.pushPorts.get? x.1 with
    | none => some (0x86, BitVec.ofNat 64 x.1)
    | some p =>
      let need := (uses.filter (·.1 == x.1)).length * times
      if p.walk.opb < x.2 then some (0x88, BitVec.ofNat 64 x.1)
      else if walkCount p.walk - p.pos < need then some (0x87, BitVec.ofNat 64 x.1)
      else none

/-- Counts uses in the push-side table. -/
def Core.promise (c : Core) (uses : List (Nat × Nat)) (times : Nat) : Core :=
  { c with pushPorts := uses.foldl (fun t x =>
      match t.get? x.1 with
      | none => t
      | some p => Tab.put t x.1 { p with pos := p.pos + times }) c.pushPorts }

/-- The ranges that named ports declare: reads, then writes (R151, R164). -/
def Core.portRanges (c : Core) (uses : List (Nat × Nat)) : List (Nat × Nat) × List (Nat × Nat) :=
  let range (x : Nat × Nat) : Option (Nat × Nat) :=
    match c.pushPorts.get? x.1 with
    | none => none
    | some p => if p.walk.lq.isSome then none else some ((walkRange p.walk).1.toNat, (walkRange p.walk).2.toNat + 1)
  ((uses.filter (·.1 < 8)).filterMap range, (uses.filter (8 ≤ ·.1)).filterMap range)

/-- Whether a port's load-queue claims are still unread: the engine has not taken them all. -/
def Core.portUnread (c : Core) (p : Nat) : Bool :=
  match c.pushPorts.get? p with
  | none => false
  | some x =>
    match x.walk.lq with
    | none => false
    | some q =>
      match c.vec.ports.get? p with
      | some y => !(y.walk.lq == some q && y.first == x.first && walkCount y.walk ≤ y.pos)
      | none => true

/-- What a configuration push makes of its operands: a port, or a cause with its value (R161 to R165). -/
abbrev PortMade := Except (Nat × W64) Port

/-- The checks of R164 on a scratchpad walk's bytes. -/
def walkChecked (p : Nat) (w : Walk) : PortMade :=
  let bad : PortMade := .error (0x85, BitVec.ofNat 64 p)
  let low := (walkRange w).1
  let high := (walkRange w).2
  if low < 0 then bad
  else if low < 0x300000 ∧ (ringRegion : Int) ≤ high then .error (0x82, BitVec.ofNat 64 (max low.toNat ringRegion))
  else if 0x300000 ≤ low then bad
  else .ok { walk := w, pos := 0, first := 0 }

def Core.makePort (c : Core) (p : Nat) (sh capa capb : W64) : PortMade :=
  let e := fmtBits (shFMT sh)
  let opb := shLPAD sh * e / 8
  let bad : PortMade := .error (0x85, BitVec.ofNat 64 p)
  let n := capb.toNat
  if n = 0 || 2 ^ 32 ≤ n || c.portUnread p then bad
  else if capa.fld 63 1 = 1 then
    if capa.fld 2 61 ≠ 0 || 8 ≤ p then bad
    else
      let q := capa.fld 0 2
      let l := c.lq[Fin.ofNat 4 q]
      if l.issued - l.claimed < n then .error (0x89, BitVec.ofNat 64 q)
      else .ok { walk := { opb := opb, elem := e, base := 0, cnt := [n], str := [0], rowb := 0, lq := some q }, pos := 0, first := l.claimed }
  else if capa.fld 22 41 ≠ 0 || capa.fld 0 22 % (e / 8) ≠ 0 then bad
  else walkChecked p { opb := opb, elem := e, base := capa.fld 0 22, cnt := [n, 1, 1, 1], str := [(opb : Int), 0, 0, 0], rowb := 0, lq := none }

/-- A walk from a port descriptor (Table 10.1). -/
def Core.makePortD (c : Core) (p : Nat) (sh : W64) (ws : List W64) : PortMade :=
  let e := fmtBits (shFMT sh)
  let bad : PortMade := .error (0x85, BitVec.ofNat 64 p)
  let w0 := ws.getD 0 0
  let rowb := w0.fld 32 6
  let skew := w0.fld 63 1 = 1
  let cnt := (List.range 4).map fun i => (ws.getD 1 0).fld (16 * i) 16
  let str := (List.range 4).map fun i => (BitVec.ofNat 32 ((ws.getD (2 + i / 2) 0).fld (32 * (i % 2)) 32)).toInt
  let base := w0.fld 0 22
  if w0.fld 38 25 ≠ 0 || w0.fld 22 10 ≠ 0 || (ws.drop 4).any (· ≠ 0) || cnt.any (· == 0) || c.portUnread p then bad
  else if (if skew then rowb = 0 || 48 < rowb else rowb ≠ 0) then bad
  else if base % (e / 8) ≠ 0 || str.any (fun x => x % ((e / 8 : Nat) : Int) ≠ 0) then bad
  else if skew && (base % 64 ≠ 0 || (extremes (cnt.zip str)).1 < 0) then bad
  else walkChecked p { opb := shLPAD sh * e / 8, elem := e, base := base, cnt := cnt, str := str, rowb := rowb, lq := none }

/-! ### Matrix operands (R184, R185) -/

/-- The scratchpad bytes that a matrix word reads, or writes, at CAPA; none for a form that takes no address. -/
def tileSpan (w sh : W64) (i : Instr) : Option (Bool × Nat) :=
  let _ := w
  let f := shFMT sh
  let M := shMPAD sh
  let N := shNPAD sh
  let K := shKPAD sh
  match i with
  | .mld _ _ _ => some (false, imgBytes f (M * K))
  | .mldt _ _ _ => some (false, K * M * fmtBits f / 8)
  | .mwld _ _ _ => some (false, imgBytes f (N * K))
  | .mwldt _ _ _ => some (false, K * N * fmtBits f / 8)
  | .mldacc _ _ => some (false, 4 * M * N)
  | .mescv _ _ => some (false, 4 * N)
  | .mebias _ _ => some (false, 4 * N)
  | .mst _ _ _ _ g => some (true, imgBytes g.toNat (M * N))
  | .mstn _ _ _ _ g => some (true, imgBytes g.toNat (M * N))
  | .msnap _ _ => some (true, snapBytes sh)
  | .mstt _ _ => some (true, imgBytes f (M * K))
  | _ => none

/-- Tile loads: whether skewed, bytes of a scratchpad row, element bytes. -/
def loadRow (sh : W64) : Instr → Option (Bool × Nat × Nat)
  | .mld _ _ k => some (k == 1, shKPAD sh * fmtBits (shFMT sh) / 8, shMPAD sh * shKPAD sh * fmtBits (shFMT sh) / 8)
  | .mldt _ _ k => some (k == 1, shMPAD sh * fmtBits (shFMT sh) / 8, shMPAD sh * shKPAD sh * fmtBits (shFMT sh) / 8)
  | .mwld _ _ k => some (k == 1, shKPAD sh * fmtBits (shFMT sh) / 8, shNPAD sh * shKPAD sh * fmtBits (shFMT sh) / 8)
  | .mwldt _ _ k => some (k == 1, shNPAD sh * fmtBits (shFMT sh) / 8, shNPAD sh * shKPAD sh * fmtBits (shFMT sh) / 8)
  | _ => none

/-- What a matrix push declares and claims. -/
structure TilePlan where
  reads : List (Nat × Nat) := []
  writes : List (Nat × Nat) := []
  claim : Option (Nat × Nat) := none
  deriving DecidableEq, Repr

/-- Formats that a form does not take under its shape (R185, item 4). -/
def Core.tileFormat (c : Core) (sh : W64) (i : Instr) : Option (Nat × W64) :=
  let f := shFMT sh
  let blocked : Option (Nat × W64) := if blockCode f then some (0x38, BitVec.ofNat 64 f) else none
  match i with
  | .mldt _ _ _ => blocked
  | .mwldt _ _ _ => blocked
  | .mtr _ _ _ => blocked
  | .mstt a _ => if c.mat.pushTr[Fin.ofNat 8 a.toNat] then blocked else none
  | .mst _ _ _ _ g => if blockCode g.toNat && shNPAD sh % blockG g.toNat != 0 then some (0x39, BitVec.ofNat 64 (blockG g.toNat)) else none
  | .mstn _ _ _ _ g => if blockCode g.toNat && shNPAD sh % blockG g.toNat != 0 then some (0x39, BitVec.ofNat 64 (blockG g.toNat)) else none
  | _ => none

/-- R185: the plan of a matrix push, or its cause. -/
def Core.tilePlan (c : Core) (sh capa : W64) (i : Instr) : Except (Nat × W64) TilePlan :=
  let fin (p : TilePlan) : Except (Nat × W64) TilePlan :=
    match c.tileFormat sh i with
    | some x => .error x
    | none => .ok p
  let skewFault : Option (Nat × W64) :=
    match loadRow sh i with
    | some (true, row, _) => if row % 64 ≠ 0 then some (0x37, BitVec.ofNat 64 row) else none
    | _ => none
  match tileSpan 0 sh i with
  | none => fin {}
  | some (wr, n) =>
    if capa.fld 63 1 = 0 then
      let a := capa.toNat
      if capa.fld 22 41 ≠ 0 || 0x300000 < a + n then .error (0x36, capa)
      else if a % 64 ≠ 0 then .error (0x35, capa)
      else match skewFault with
        | some x => .error x
        | none => fin (if wr then { writes := [(a, a + n)] } else { reads := [(a, a + n)] })
    else
      match loadRow sh i with
      | none => .error (0x36, capa)
      | some (sk, _, bytes) =>
        let q := capa.fld 0 2
        let l := c.lq[Fin.ofNat 4 q]
        let k := (bytes + 511) / 512
        if capa.fld 2 61 ≠ 0 || blockCode (shFMT sh) || sk || 16 * 512 < bytes then .error (0x3A, capa)
        else if l.issued - l.claimed < k then .error (0x89, BitVec.ofNat 64 q)
        else fin { claim := some (l.claimed, k) }

/-- The tile whose push-side copy of TR an instruction changes, and what it becomes (R182). -/
def Core.trOf (c : Core) (i : Instr) : Option (Fin 8 × Bool) :=
  let set (a : BitVec 3) (v : Bool) : Option (Fin 8 × Bool) := some (Fin.ofNat 8 a.toNat, v)
  match i with
  | .mldt a _ _ => set a true
  | .mwldt a _ _ => set a true
  | .mtr a _ _ => set a true
  | .mld a _ _ => set a false
  | .mwld a _ _ => set a false
  | .mmov a b _ => set a c.mat.pushTr[Fin.ofNat 8 b.toNat]
  | _ => none

/-! ### Copy operands (R203, Tables 12.1 to 12.8) -/

/-- Scratchpad ranges of a copy entry. -/
structure CopyPlan where
  reads : List (Nat × Nat) := []
  writes : List (Nat × Nat) := []
  deriving DecidableEq, Repr

/-- What CAPA names (R203, step 3). -/
inductive Space where
  | none_
  | general
  | window
  deriving DecidableEq, Repr

/-- The limits on a copy form's captures: the captured value that fails, or the ranges and the space that CAPA names. -/
def copyPlan (a b : W64) (i : Instr) : Except W64 (CopyPlan × Space) :=
  let A := a.toNat
  let B := b.toNat
  let ok (reads writes : List (Nat × Nat)) (sp : Space) : Except W64 (CopyPlan × Space) :=
    if (reads ++ writes).any fun r => 0x300000 < r.2 then .error b else .ok ({ reads := reads, writes := writes }, sp)
  let move (x : BitVec 20) (wr : Bool) (sp : Space) : Except W64 (CopyPlan × Space) :=
    let X := fieldAddr x
    if A % 4 ≠ 0 then .error a
    else if B % 4 ≠ 0 || B < 4 || 0x300000 < X + B + 64 then .error b
    else if wr then ok [] [(X, X + B + 64)] sp else ok [(X, X + B + 64)] [] sp
  let rect (x : BitVec 20) (wr : Bool) : Except W64 (CopyPlan × Space) :=
    let X := fieldAddr x
    let rb := rowBytesOf b
    let n := rowsOf b * rb
    if A % 4 ≠ 0 then .error a
    else if rowsOf b = 0 || rb < 4 || rb % 4 ≠ 0 || (skewOf b && (X % 64 ≠ 0 || rb % 64 ≠ 0 || 3072 < rb)) then .error b
    else if wr then ok [] [(X, X + n)] .general else ok [(X, X + n)] [] .general
  let indexed (x : BitVec 20) (wr : Bool) : Except W64 (CopyPlan × Space) :=
    let X := fieldAddr x
    let l := b.fld 0 22
    let n := b.fld 32 20
    if b.fld 22 10 ≠ 0 || b.fld 52 12 ≠ 0 || l % 4 ≠ 0 || n = 0 then .error b
    else if wr then ok [(l, l + 4 * n)] [(X, X + 8 * n)] .general else ok [(l, l + 4 * n), (X, X + 8 * n)] [] .general
  let local8 (x : BitVec 20) : Bool := fieldAddr x % 8 ≠ 0 || B % 8 ≠ 0 || B < 8
  let part (x : BitVec 20) : Except W64 (CopyPlan × Space) :=
    if b.fld 8 8 ≠ 0 then .error b else ok [(fieldAddr x, fieldAddr x + 4 * b.fld 16 16)] [] .window
  let line (n : Nat) : Except W64 (CopyPlan × Space) := if A % n ≠ 0 then .error a else ok [] [] .general
  let batch (x : BitVec 20) : Except W64 (CopyPlan × Space) :=
    if B = 0 || 65535 < B then .error b else ok [(fieldAddr x, fieldAddr x + 16 * B)] [(fieldAddr x, fieldAddr x + 16 * B)] .general
  let keys (ins : Bool) : Except W64 (CopyPlan × Space) :=
    let n := b.fld 32 20
    if A % 64 ≠ 0 then .error a
    else if b.fld 22 10 ≠ 0 || b.fld 52 12 ≠ 0 || n = 0 || 65535 < n then .error b
    else ok [if ins then (0, ringRegion) else (b.fld 0 22, b.fld 0 22 + 8 * n)] [] .general
  match i with
  | .cldHbm _ _ _ _ x => move x true .general
  | .cstHbm _ _ _ x => move x false .general
  | .cldSw _ _ _ _ x => move x true .window
  | .cstSw _ _ _ x => move x false .window
  | .cld2d _ _ _ _ x => rect x true
  | .cst2d _ _ _ x => rect x false
  | .ccpy _ _ _ _ => if A % 64 ≠ 0 then .error a else if B % 64 ≠ 0 then .error b else ok [] [] .general
  | .ccvt _ _ _ _ => if A % 4096 ≠ 0 then .error a else if B % 4096 ≠ 0 then .error b else ok [] [] .general
  | .cgat _ _ _ _ x => indexed x true
  | .csct _ _ _ x => indexed x false
  | .cfill _ _ _ _ => line 64
  | .cfillSp _ _ _ x => if local8 x then .error b else ok [] [(fieldAddr x, fieldAddr x + B)] .none_
  | .ctag _ _ _ x => if a.fld 1 63 ≠ 0 then .error a else if local8 x then .error b else ok [] [(fieldAddr x, fieldAddr x + B)] .none_
  | .cpref _ _ _ _ => ok [] [] .general
  | .cmovSp _ _ _ _ x =>
    if a.fld 22 42 ≠ 0 || A % 4 ≠ 0 then .error a
    else if B % 4 ≠ 0 || B < 4 then .error b
    else ok [(A, A + B)] [(fieldAddr x, fieldAddr x + B)] .none_
  | .cmst _ _ _ x =>
    if a.fld 30 34 ≠ 0 || a.fld 22 2 ≠ 0 || a.fld 0 22 % 4 ≠ 0 then .error a
    else if B % 4 ≠ 0 || B < 4 then .error b
    else ok [(fieldAddr x, fieldAddr x + B)] [(a.fld 0 22, a.fld 0 22 + B)] .none_
  | .ckvSend _ _ _ => line 64
  | .ckvPull _ _ _ _ => line 64
  | .ckvSync _ _ _ => ok [] [] .none_
  | .credInit _ _ _ _ =>
    let n := b.fld 0 16
    if n = 0 || 16384 < n || b.fld 16 32 ≠ 0 || b.fld 48 16 = 0 then .error b else ok [] [] .window
  | .credSw _ _ _ x => part x
  | .cmstSw _ _ _ x => part x
  | .cldrSw _ _ _ _ x =>
    if b.fld 0 16 ≠ 0 then .error b else ok [] [(fieldAddr x, fieldAddr x + 64 + 4 * b.fld 16 16)] .window
  | .credDrop _ _ _ _ => ok [] [] .window
  | .cbatAdd _ _ _ x => batch x
  | .cbatMin _ _ _ x => batch x
  | .cbatMax _ _ _ x => batch x
  | .cbatOr _ _ _ x => batch x
  | .cbatXchg _ _ _ x => batch x
  | .cskInit _ _ _ _ => line 64
  | .cskIns _ _ _ => keys true
  | .cskDel _ _ _ => keys false
  | .cskSend _ _ _ => line 64
  | .cskXchg _ _ _ => line 64
  | .cskPeel _ _ _ => line 64
  | .cskFetch _ _ _ _ => line 64
  | .cskRsz _ _ _ => line 64
  | .csig _ _ _ _ => line 8
  | _ => ok [] [] .none_

/-- Limits, then the space of CAPA: the ranges, or the cause. -/
def copyChecked (a b : W64) (i : Instr) : Except (Nat × W64) CopyPlan :=
  match copyPlan a b i with
  | .error v => .error (0x8A, v)
  | .ok (p, .none_) => .ok p
  | .ok (p, .general) => if inWindow a.toNat then .error (0xB0, a) else .ok p
  | .ok (p, .window) => if inWindow a.toNat then .ok p else .error (0xB1, a)

/-! ### The ring checks (R148, R154) -/

/-- The first byte of a range that lies in the ring region. -/
def ringOverlap (l : List (Nat × Nat)) : Option Nat :=
  l.findSome? fun r => if r.1 < padSize && ringRegion < r.2 && r.1 < r.2 then some (max r.1 ringRegion) else none

/-- The last n entries pushed to a ring, oldest first. -/
def Ring.last (x : Ring) (n : Nat) : List Entry := ((x.queue.reverse ++ x.past).take n).reverse

/-- Port uses of the entries of a repeat's body. -/
def bodyUses (l : List Entry) : List (Nat × Nat) :=
  l.flatMap fun e => match decodeVector e.word with | .ok i => vecPorts (shLPAD e.shape) (fmtBits (shFMT e.shape)) i | .error _ => []

/-- vrep_checks: the body, or the cause. -/
def Core.repBody (c : Core) (n : Nat) (count : W64) : Except (Nat × W64) (List Entry) :=
  let body := c.vring.last n
  if 65535 < count.toNat then .error (0x84, count)
  else if c.vring.pushed < n || body.any (fun e => e.word.fld 26 6 == 0x32) then .error (0x83, BitVec.ofNat 64 n)
  else match c.portFault (bodyUses body) count.toNat with
    | some x => .error x
    | none => .ok body

/-- No entry of a ring is free (R145). -/
def Ring.full (x : Ring) : Bool := 1024 ≤ x.queue.length + min x.kept x.past.length

/-- Puts an entry into a ring. -/
def Ring.push (x : Ring) (e : Entry) : Ring := { x with queue := x.queue ++ [e], wp := x.wp + 1, pushed := x.pushed + 1 }

/-- Writes an entry into a ring of the acting core, and its bytes in the place of what stood there (R142, R143). -/
def State.pushEntry (s : State) (r : Nat) (e : Entry) : State :=
  let s := s.poke none (entryAddr s.cur r (s.ring r).wp) e.bytes
  (s.setRing r ((s.ring r).push e)).wake (.ring s.cur r)

/-- Counts an accepted entry's wait and raise (R148). -/
def Core.countTokens (c : Core) (r : Nat) (e : Entry) : Core :=
  let k := e.waitk.toNat
  let c :=
    if k = 0 then c
    else
      let t := c.token k
      c.setToken k { t with pwait := t.pwait + 1, claims := t.claims ++ [.entry r e.seq] }
  let j := e.raisek.toNat
  if j = 0 then c
  else
    let t := c.token j
    c.setToken j { t with praise := t.praise + 1 }

/-- Claims entries of a load queue. -/
def Core.claimLq (c : Core) (q n : Nat) : Core :=
  let i := Fin.ofNat 4 q
  { c with lq := c.lq.set i { c.lq[i] with claimed := c.lq[i].claimed + n } }

/-- The push-side tables with what a push changes in them. -/
def Core.planned (c : Core) (p : Plan) : Core :=
  let c := match p.port with | some (k, x) => { c with pushPorts := c.pushPorts.put k x } | none => c
  let c := match p.claim with | some (q, n) => c.claimLq q n | none => c
  let c := match p.tr with | some (i, v) => { c with mat := { c.mat with pushTr := c.mat.pushTr.set i v } } | none => c
  c.promise p.uses p.times

/-- A vector push (R109 step 4, R156, R148, R164). -/
def Core.planVector (c : Core) (w : W32) (a b : W64) (desc : List W64) (i : Instr) : Except (Nat × W64) Plan :=
  match c.shapeFor 0 w with
  | .error x => .error x
  | .ok sh =>
    let e := fmtBits (shFMT sh)
    if !widthOk e i then .error (0x09, w.setWidth 64)
    else
      let ent : Entry := { word := w, capa := a, capb := b, shape := sh }
      let port (p : Nat) (m : PortMade) : Except (Nat × W64) Plan :=
        match m with
        | .error x => .error x
        | .ok x =>
          .ok {
            r := 0, port := some (p, x), claim := x.walk.lq.map fun q => (q, walkCount x.walk)
            e := { ent with walk := some x, lqClaim := x.walk.lq.map fun _ => (x.first, walkCount x.walk) } }
      match i with
      | .vport d _ => port d.toNat (c.makePort d.toNat sh a b)
      | .vportd d _ => port d.toNat (c.makePortD d.toNat sh desc)
      | .vrep n =>
        match c.repBody n.toNat a with
        | .error x => .error x
        | .ok body =>
          .ok {
            r := 0, e := { ent with reads := body.flatMap (·.reads), writes := body.flatMap (·.writes) }
            uses := bodyUses body, times := a.toNat }
      | _ =>
        let uses := vecPorts (shLPAD sh) e i
        match c.portFault uses 1 with
        | some x => .error x
        | none =>
          let rs := c.portRanges uses
          .ok { r := 0, e := { ent with reads := rs.1, writes := rs.2 }, uses := uses }

/-- The group that a ganged multiply names (R113). -/
def gangGroup : Instr → Option Nat
  | .mgangOvw _ _ _ _ g h _ _ => some (h.toNat * 8 + g.toNat)
  | .mgangAcc _ _ _ _ g h _ _ => some (h.toNat * 8 + g.toNat)
  | _ => none

/-- A matrix push, or a follow-on's (R185, R192). -/
def State.planMatrix (s : State) (c : Core) (w : W32) (a b : W64) (i : Instr) : Except (Nat × W64) Plan :=
  match c.shapeFor 1 w with
  | .error x => .error x
  | .ok sh =>
    match c.tilePlan sh a i with
    | .error x => .error x
    | .ok p =>
      let members : NSet := match gangGroup i, c.slice with | some g, some sk => (s.slice sk).group g | _, _ => []
      match gangGroup i with
      | some g => if members.has c.slcore then go p sh members else .error (0x3B, BitVec.ofNat 64 g)
      | none => go p sh []
where
  go (p : TilePlan) (sh : W64) (members : NSet) : Except (Nat × W64) Plan :=
    let ids := members.map fun m => (m, match c.slice.bind fun sk => s.sliceCoreKey sk m with | some ck => (s.core ck).thread | none => 0)
    .ok {
      r := 1, tr := c.trOf i, claim := p.claim.map fun x => (a.fld 0 2, x.2)
      e := { word := w, capa := a, capb := b, shape := sh, reads := p.reads, writes := p.writes, lqClaim := p.claim
             gang := { members := members, ids := ids } } }

/-- A copy push with its follow-on (R109 step 3, R203). -/
def State.planCopy (s : State) (c : Core) (w w2 : W32) (a b : W64) (i : Instr) : Except (Nat × W64) Plan :=
  let fo := w.fld 20 1 == 1
  let bad (c : EncCause) : Except (Nat × W64) Plan := .error (c.code, w2.setWidth 64)
  let allowed (op : Nat) : Bool := 0x01 ≤ op && op ≤ 0x06
  let copy (f : Option Entry) (tr : Option (Fin 8 × Bool)) : Except (Nat × W64) Plan :=
    match copyChecked a b i with
    | .error x => .error x
    | .ok p =>
      let group : NSet := match i, c.slice with | .cmst _ _ _ _, some sk => (s.slice sk).group (a.fld 24 6) | _, _ => []
      .ok { r := 2, follow := f, tr := tr, e := { word := w, capa := a, capb := b, reads := p.reads, writes := p.writes, group := group } }
  if !fo then copy none none
  else
    match decodeMatrix w2 with
    | .error x => bad x
    | .ok j =>
      if !allowed (w2.fld 27 5) then bad .followWord
      else
        match s.planMatrix c w2 (BitVec.ofNat 64 (4 * w.fld 0 20)) 0 j with
        | .error x => .error x
        | .ok p => copy (some { p.e with held := true }) p.tr

/-- The descriptor that a vportd push reads from the own scratchpad, where its address is in place, as a load of the access core
(R162, log entry 102). -/
def State.portDesc (s : State) (p : Nat) (a : W64) : Res (Except (Nat × W64) (List W64)) :=
  if a.toNat % 64 ≠ 0 || 0x2E7FC0 ≤ a.toNat then .ok (.error (0x85, BitVec.ofNat 64 p)) s
  else
    let pg := padPage s.cur a.toNat
    if s.onItsWay pg.pa 64 then .stop s
    else (if s.me.rfences.isEmpty then s.loadFrom a pg 64 else s.loadMiss a pg 64).then_ fun bs s => .ok (.ok (wordsOf bs)) s

/-- What is checked of a push before its ring checks: a plan, or a cause with its value. -/
def State.planPush (s : State) (e : BitVec 2) (a b : W64) (w1 w2 : W32) : Res (Except (Nat × W64) Plan) :=
  let c := s.me
  if e = 1 then
    match decodeVector w1 with
    | .error x => .ok (.error (x.code, w1.setWidth 64)) s
    | .ok (.vportd d sh) =>
      match c.shapeFor 0 w1 with
      | .error x => .ok (.error x) s
      | .ok _ => (s.portDesc d.toNat a).then_ fun r s =>
        match r with
        | .error x => .ok (.error x) s
        | .ok ws => .ok (s.me.planVector w1 a b ws (.vportd d sh)) s
    | .ok i => .ok (c.planVector w1 a b [] i) s
  else if e = 2 then
    match decodeMatrix w1 with
    | .error x => .ok (.error (x.code, w1.setWidth 64)) s
    | .ok i => .ok (s.planMatrix c w1 a b i) s
  else
    match decodeCopy w1 with
    | .error x => .ok (.error (x.code, w1.setWidth 64)) s
    | .ok i => .ok (s.planCopy c w1 w2 a b i) s

/-- A plan with the tokens, the tile-start marker and the numbers of its entries (R143, R144). -/
def Plan.marked (p : Plan) (w k : BitVec 6) (t : BitVec 1) (seq : W64) : Plan :=
  { p with
    e := { p.e with waitk := w, raisek := k, tsm := t == 1, seq := seq }
    follow := p.follow.map fun f => { f with tsm := t == 1, seq := seq + 1 } }

/-- Writes the entries of an accepted push, and completes it. -/
def State.commitPush (s : State) (p : Plan) (next : W64) : State :=
  let s := s.setMe { (s.me.planned p).countTokens p.r p.e with seq := s.me.seq + (if p.follow.isSome then 2 else 1), pushHeld := none }
  let s := s.pushEntry p.r p.e
  (match p.follow with | some f => s.pushEntry 1 f | none => s).finishAt next

/-- Enters an accepted push, or stalls where a ring is full, with its checks passed (R145, R301); a stop of the slice takes it there. A
push that stalled enters with the membership that its checks found: that of R24 at the entry's write is not said, and this is the model's
choice (log entry 104). -/
def State.enterPush (s : State) (p : Plan) (next : W64) : State :=
  if (s.ring p.r).full || (p.follow.isSome && (s.ring 1).full) then
    (if s.stopAsked then s.stopCore 2 else s.setMe { s.me with pushHeld := some (p, next) })
  else s.commitPush p next

/-- A load-queue claim counted from where the queue's claims stand now. -/
def Core.claimed (c : Core) (p : Plan) : Plan :=
  match p.claim with
  | none => p
  | some (q, n) =>
    let first := c.lq[Fin.ofNat 4 q].claimed
    let at_ (x : Port) : Port := { x with first := first }
    { p with port := p.port.map fun x => (x.1, at_ x.2), e := { p.e with lqClaim := some (first, n), walk := p.e.walk.map at_ } }

/-- A stalled push tries its ring again: it is neither fetched nor checked another time (R301). A reset of its ring meanwhile took back
the claims of the entries in front of it. -/
def State.retryPush (s : State) (p : Plan) (next : W64) : State := s.enterPush (s.me.claimed p) next

/-- The push of an engine instruction: e is the engine code of the prefix, w and k its tokens, t the tile-start marker, a and b
the captured registers, w1 and w2 the engine word and the follow-on word. -/
def execEnqueuePrefix (e : BitVec 2) (w k : BitVec 6) (t : BitVec 1) (a b : BitVec 5) (w1 w2 : W32) (s : State) : Out :=
  let fo := e == 3 && w1.fld 20 1 == 1
  let next := s.pc + (if e = 0 then 4 else if fo then 12 else 8)
  .next <|
    if e = 0 then s.trap 0x04 (((encode (.enqueuePrefix e w k t a b 0 0)).headD 0).setWidth 64)
    else
      (s.planPush e (s.reg a) (s.reg b) w1 w2).run fun r s =>
        match r with
        | .error (c, v) => s.trap c v
        | .ok p =>
          match ringOverlap (p.e.reads ++ p.e.writes ++ (match p.follow with | some f => f.reads | none => [])) with
          | some x => s.trap 0x82 (BitVec.ofNat 64 x)
          | none =>
            let tok := s.me.token w.toNat
            if w ≠ 0 && tok.value.toNat + tok.praise < tok.pwait + 1 then s.trap 0x80 (w.setWidth 64)
            else s.enterPush (p.marked w k t s.me.seq) next

end Sys2Proof.Machine
end

