-- ==== Sys2Proof/Machine/Fetch.lean ====
section
/-!
DEFINITION. Fetching (R99 to R101), the turn of an access core, and the passing of time and turns among the agents.
-/
namespace Sys2Proof.Machine

/-- A word that is fetched at its home (R101, R279, R305), once there is room among the requests to its node (R281): a refusal traps as an
error response, an uncorrectable error with 0x62 in the own die and with the home's error response elsewhere. -/
def State.fetchHome (s : State) (a : W64) (pg : Page) : Res W32 :=
  let p := s.party s.cur
  if s.portFull pg.pa then .stop s
  else match s.homeRefuses p pg.pa 4 0 pg.enc with
  | some c => .stop ((s.refuseSent p pg.pa c).2.trap 0x60 a)
  | none =>
    match s.fabric s.cur pg.pa with
    | (_, some _, _, s) => .stop (s.trap 0x60 a)
    | (_, none, _, s) =>
      match s.poisonAt pg.pa 4 with
      | some b =>
        match poisonHome s.cur b with
        | some c => .stop ((s.refuse p b c).trap 0x60 a)
        | none => .stop (s.trap 0x62 s.pc)
      | none =>
        let w : W32 := BitVec.ofNat 32 (leNat (s.keyBytes (if pg.enc then s.lineKey pg.pa else none) pg.pa 4))
        let s := (if s.soft.isEmpty then s else s.correct s.cur pg.pa 4).dieCache s.cur pg.pa
        .ok w (s.setMe { s.me with icache := s.me.icache.put pg.pa w })

/-- One fetched word: translated with kind fetch; a cached word that its home would not answer with is used or not by free choice
(R101). A parity error fetches it again. -/
def State.fetchWord (s : State) (a : W64) : Res W32 :=
  match s.translate s.cur a .fetch with
  | .fault f s => .stop (s.stall 0 .fetch f a)
  | .refused _ _ s => .stop (s.trap 0x60 a)
  | .ok pg s =>
    match s.me.icache.get? pg.pa with
    | none => s.fetchHome a pg
    | some old =>
      match s.takeUpset s.cur 9 with
      | (some _, s) => (s.record s.node { s.coreRec s.cur 0x7A 0 with kind := 3, addr := BitVec.ofNat 64 pg.pa }).fetchHome a pg
      | (none, _) =>
        if s.readsAs pg (bytesOfWord old) then .ok old s
        else
          let (stale, s) := s.pickBool
          if stale then .ok old s else s.fetchHome a pg

/-- The words of the instruction at the program counter: its first word and those behind it that it has (R99). -/
def State.fetchInstr (s : State) : Res (W32 × W32 × W32) :=
  match s.fetchWord s.pc with
  | .stop s => .stop s
  | .ok w s =>
    if bits w.toNat 25 7 = 0x40 ∧ bits w.toNat 23 2 ≠ 0 then
      match s.fetchWord (s.pc + 4) with
      | .stop s => .stop s
      | .ok w1 s =>
        if bits w.toNat 23 2 = 3 ∧ bit w1.toNat 20 then
          match s.fetchWord (s.pc + 8) with
          | .stop s => .stop s
          | .ok w2 s => .ok (w, w1, w2) s
        else .ok (w, w1, 0) s
    else .ok (w, 0, 0) s

/-- Whether the acting core fetches: its thread runs, and nothing has stopped it. -/
def State.fetches (s : State) : Bool :=
  let c := s.me
  c.run == .running && c.fault.isNone && c.stop.isNone

/-- A turn of a timed wait that has begun: its instruction is executed again, as it was fetched. -/
def State.waitTurn (s : State) (w : Wait) : Turn :=
  match decodeAccess w.word 0 0 with
  | .ok i => .exec i s
  | .error _ => .idle s

/-- A turn of an access core: it fetches and decodes the instruction at its program counter; an encoding fault traps with
the word that failed (R108, R110). A push that has stalled tries its ring again (R301), and a timed wait that has begun goes on without
being fetched again (R233). The error response of a store that had left the core traps between two instructions. -/
def State.coreTurn (s : State) : Turn :=
  if !s.fetches then .idle s
  else
    match s.me.pushHeld with
    | some (p, next) => .idle (s.retryPush p next)
    | none =>
    match s.me.wait with
    | some w => s.waitTurn w
    | none =>
    match s.me.lateErr with
    | va :: t => .idle (((s.setMe { s.me with lateErr := t }).copyFailed va).trap 0x60 va)
    | [] =>
    match s.fetchInstr with
    | .stop s => .idle s
    | .ok (w, w1, w2) s =>
      match decodeAccess w w1 w2 with
      | .ok i => .exec i s
      | .error c => .idle (s.trap c.code (w.setWidth 64))

/-- Time passes: the next number of cycles that the environment gives, or one. -/
def State.tick (s : State) : State :=
  match s.ticks with
  | [] => { s with clock := s.clock + 1 }
  | n :: t => { s with clock := s.clock + n, ticks := t }

end Sys2Proof.Machine
end

