-- ==== Sys2Proof/Machine/LoadStore.lean ====
section
/-!
DEFINITION. Loads and stores of the access core, acquires and releases, remote loads and pop (R127 to R130), atomics
(R243 to R245) and fences (R246).
-/
namespace Sys2Proof.Machine

/-! ### Plain loads and stores (R127) -/

/-- A load of n bytes at s[a] + imm; conv makes the register's value of the bytes' number. -/
def loadForm (n : Nat) (conv : Nat → W64) (d a : BitVec 5) (g : BitVec 3) (i : BitVec 12) (s : State) : Out :=
  s.guarded g fun s =>
    let va := s.reg a + i.signExtend 64
    if va.toNat % n ≠ 0 then s.trap 0x12 va
    else (s.load va n).run fun bs s => (s.setReg d (conv (leNat bs))).finish

/-- Another node's store that stays on its way (R279, R281): it is posted, and performed when its packet arrives. rel is the
scope of a store-release. -/
def State.postStore (s : State) (va : W64) (pg : Page) (bs : List Byte) (rel : Option Nat) (stamps : List Stamp) : State :=
  let me := s.node
  let dst := pg.pa / 2 ^ 48
  let (seq, s) := s.nextSeq me dst
  let (n, s) := s.nextIndex s.cur 0 dst
  let party := s.party s.cur
  let q : Posted := {
    seq := seq, core := s.cur, thread := s.me.thread, func := party.func, fw := party.fw, release := rel.isSome
    counts := 3 ≤ rel.getD 0, va := va, pa := pg.pa, alt := pg.alt, sent := s.clock, stamps := stamps, size := bs.length
    value := bytesWord bs, index := n, sends := 1, enc := pg.enc, chk := pg.chk }
  let p := s.pkg me
  (s.putPkg me { p with outstanding := p.outstanding.put dst (Tab.getD p.outstanding dst [] ++ [q]) }).later (.event (.fabricRequestReceive me dst seq))

/-- Whether stores of the acting core are on their way: to a node, to any other, or anywhere (R283). -/
def State.postedTo (s : State) (dst : Nat) : Bool := (Tab.getD (s.pkg s.node).outstanding dst []).any fun q => q.core == s.cur
def State.postedElse (s : State) (dst : Nat) : Bool :=
  (s.pkg s.node).outstanding.any fun e => e.1 != dst && e.2.any fun q => q.core == s.cur
def State.postedLeft (s : State) : Bool := (s.pkg s.node).outstanding.any fun e => e.2.any fun q => q.core == s.cur
/-- Whether a store-release of the acting core is on its way (R260). -/
def State.releaseLeft (s : State) : Bool :=
  (s.pkg s.node).outstanding.any fun e => e.2.any fun q => q.core == s.cur && q.release

/-- A release waits for the core's earlier accesses (R128): the data reads of its rlds, and its stores on their way; one to
another node leaves those of its own stream to the count it carries, and at a scope narrower than pod it orders none (R283). -/
def State.releaseWaits (s : State) (dst sc : Nat) : Bool :=
  s.me.rldLeft || (if dst = s.node then s.postedLeft else 3 ≤ sc && s.postedElse dst)

/-- A store of the acting core, to its own package or to another node; rel is the scope of a release. A store to another node may
stay on its way while the core goes on (R279): what its home refuses then comes back later (log entry 14). A release follows the
core's posted stores to its own node with the count that it carries (R283). -/
def State.storeOut (s : State) (va : W64) (bs : List Byte) (rel : Option Nat) : Res Page :=
  match s.dataPage va .write with
  | .stop s => .stop s
  | .ok pg s =>
    let dst := pg.pa / 2 ^ 48
    let n := bs.length
    let own : List Stamp := match rel with
      | some sc => if 1 ≤ sc then [{ ck := s.cur, rc := min (s.me.rc + 1) (2 ^ 40 - 1), scope := sc }] else []
      | none => []
    let stamps := own ++ s.me.fenceStamps s.cur va.toNat n
    if (match rel with | some sc => s.releaseWaits dst sc | none => false) then .stop (s.setMe { s.me with relWait := some va })
    else
      let s := if rel.isSome then s.setMe { s.me with relWait := none } else s
      if dst ≠ s.node ∧ pg.pa < 2 ^ 56 ∧ !s.portBarred s.cur ∧ (s.fates.headD 0 = 3 ∨ (rel.isSome ∧ s.postedTo dst)) then
        let s := if s.fates.headD 0 = 3 then s.takeFate.2 else s
        match (s.homeRefuses (s.party s.cur) pg.pa n 1 pg.enc).filter (s.refusedHere s.node) with
        | some c => .stop (((s.refuse (s.party s.cur) pg.pa c).copyFailed va).trap 0x60 va)
        | none => .ok pg ((s.postStore va pg bs rel stamps).setMe (s.me.cacheStore pg.pa bs stamps))
      else
        match ofAcc va (s.storeAt s.cur pg bs) with
        | .stop s => .stop (s.setMe (s.me.dropLines pg.pa (pg.pa + n)))
        | .ok () s =>
          let s := if dst ≠ s.node ∧ pg.pa < 2 ^ 56 then (s.nextIndex s.cur 0 dst).2 else s
          .ok pg ((s.addStamps pg.pa n stamps).setMe (s.me.cacheStore pg.pa bs stamps))

/-- A store of the low n bytes of s[d] at s[a] + imm. -/
def storeForm (n : Nat) (d a : BitVec 5) (g : BitVec 3) (i : BitVec 12) (s : State) : Out :=
  s.guarded g fun s =>
    let va := s.reg a + i.signExtend 64
    if va.toNat % n ≠ 0 then s.trap 0x12 va
    else (s.storeOut va (leBytes n (s.reg d).toNat) none).run fun _ s => s.finish

def execLdW8 (d a : BitVec 5) (g : BitVec 3) (i : BitVec 12) (s : State) : Out := loadForm 1 (BitVec.ofNat 64) d a g i s
def execLdW16 (d a : BitVec 5) (g : BitVec 3) (i : BitVec 12) (s : State) : Out := loadForm 2 (BitVec.ofNat 64) d a g i s
def execLdW32 (d a : BitVec 5) (g : BitVec 3) (i : BitVec 12) (s : State) : Out := loadForm 4 (BitVec.ofNat 64) d a g i s
def execLdW64 (d a : BitVec 5) (g : BitVec 3) (i : BitVec 12) (s : State) : Out := loadForm 8 (BitVec.ofNat 64) d a g i s
def execLdI8 (d a : BitVec 5) (g : BitVec 3) (i : BitVec 12) (s : State) : Out := loadForm 1 (sext · 8) d a g i s
def execLdI32 (d a : BitVec 5) (g : BitVec 3) (i : BitVec 12) (s : State) : Out := loadForm 4 (sext · 32) d a g i s
def execStW8 (d a : BitVec 5) (g : BitVec 3) (i : BitVec 12) (s : State) : Out := storeForm 1 d a g i s
def execStW16 (d a : BitVec 5) (g : BitVec 3) (i : BitVec 12) (s : State) : Out := storeForm 2 d a g i s
def execStW32 (d a : BitVec 5) (g : BitVec 3) (i : BitVec 12) (s : State) : Out := storeForm 4 d a g i s
def execStW64 (d a : BitVec 5) (g : BitVec 3) (i : BitVec 12) (s : State) : Out := storeForm 8 d a g i s

/-! ### Acquire and release (R128, R268, R271) -/

/-- What of the data cache an acquire of bytes [pa, pa + n) leaves: nothing at die scope or wider (R128). At core scope it drops
the lines of the own scratchpad, as a met wait.tk does (R236), and its own. -/
def Core.acquired (c : Core) (ck scope pa n : Nat) : Core :=
  if 1 ≤ scope then c.dropCache else (c.dropPad ck).dropLines pa (pa + n)

/-- A load that synchronises: it waits for the core's earlier releases (R260), acquires, and is performed at its home. The view it
merges counts for its own check (R267); one that is not performed leaves no trace of it. -/
def State.loadHome (s : State) (va : W64) (n scope : Nat) : Res (List Byte) :=
  match s.dataPage va .read with
  | .stop s => .stop s
  | .ok pg s =>
    if s.releaseLeft then .stop s
    else match ofAcc va ((s.acquireAt s.cur scope pg.pa n).loadAt s.cur pg n) with
      | .ok bs t => .ok bs ((t.setMe (t.me.acquired t.cur scope pg.pa n)).noteRead t.cur va.toNat pg.pa n)
      | .stop t => .stop (t.putCore s.cur { t.core s.cur with view := s.me.view })

def ldAcq (n : Nat) (d a : BitVec 5) (g : BitVec 3) (sc : BitVec 3) (s : State) : Out :=
  s.guarded g fun s =>
    let va := s.reg a
    if va.toNat % n ≠ 0 then s.trap 0x12 va
    else (s.loadHome va n sc.toNat).run fun bs s => (s.setReg d (BitVec.ofNat 64 (leNat bs))).finish

/-- A release: at die scope or wider it counts and takes an image, whose number the location that it writes is stamped with
(R268). -/
def stRel (n : Nat) (a b : BitVec 5) (g : BitVec 3) (sc : BitVec 3) (s : State) : Out :=
  s.guarded g fun s =>
    let va := s.reg a
    if va.toNat % n ≠ 0 then s.trap 0x12 va
    else
      (s.storeOut va (leBytes n (s.reg b).toNat) (some sc.toNat)).run fun _ s =>
        (if 1 ≤ sc.toNat then s.countRelease s.cur else s).finish

def execLdAcqW32 (d a : BitVec 5) (g sc : BitVec 3) (s : State) : Out := ldAcq 4 d a g sc s
def execLdAcqW64 (d a : BitVec 5) (g sc : BitVec 3) (s : State) : Out := ldAcq 8 d a g sc s
def execStRelW32 (a b : BitVec 5) (g sc : BitVec 3) (s : State) : Out := stRel 4 a b g sc s
def execStRelW64 (a b : BitVec 5) (g sc : BitVec 3) (s : State) : Out := stRel 8 a b g sc s

/-! ### Remote loads (R129, R130) -/

/-- Element bytes of a page format (Table 5.4), 0 for raw and for block formats; 4-bit elements count half a byte and
need no alignment beyond the byte. -/
def fmtBytes (f : Nat) : Nat :=
  match f with
  | 0x01 => 2 | 0x02 => 2 | 0x03 => 1 | 0x04 => 1 | 0x05 => 1 | 0x06 => 1
  | 0x10 => 1 | 0x11 => 2 | 0x12 => 4 | 0x13 => 8 | 0x14 => 4 | 0x15 => 4
  | _ => 0

/-- The lines that a range of a page touches, each as its own part. -/
def linesOf (pa len : Nat) : List (Nat × Nat) :=
  ((List.range ((pa + len + 63) / 64 - pa / 64)).map fun i => 64 * (pa / 64 + i)).map fun a => (max a pa, min (a + 64) (pa + len) - max a pa)

/-- What reading the lines of an rld gives: the bytes, a refusal (the home's cause and the first byte refused), or a race. -/
inductive Lines where
  | bytes (bs : List Byte)
  | refused (home pa : Nat)
  | race
  deriving DecidableEq, Repr

/-- The bytes of an rld, line by line (R129). -/
def State.readLines (s : State) (ck : Nat) (pg : Page) : List (Nat × Nat) → Lines × State
  | [] => (.bytes [], s)
  | x :: t =>
    match s.loadAt ck { pg with pa := x.1, alt := pg.alt.map (· + (x.1 - pg.pa)) } x.2 with
    | .ok bs s =>
      match s.readLines ck pg t with
      | (.bytes rest, s) => (.bytes (bs ++ rest), s)
      | r => r
    | .err h a s => (.refused h a, s)
    | .poison a s => (.refused 0x63 a, s)
    | .race _ _ s => (.race, s)

/-- What arrives in the load queue for lines that have been read: the bytes, or an error mark with the input address of the first
byte refused. -/
def Lines.slot (l : Lines) (va pa fmt : Nat) : LqSlot :=
  match l with
  | .bytes bs => .data bs fmt
  | .refused h a => .mark (BitVec.ofNat 64 (va + (a - pa))) h
  | .race => .mark (BitVec.ofNat 64 va) 0

/-- Performs the data read of a remote load (R129): a newer value than a present line's is seen, so the lines go (R257). -/
def State.performRld (s : State) (ck : Nat) (pg : Page) (va len : Nat) : Lines × State :=
  match s.readLines ck pg (linesOf pg.pa len) with
  | (.bytes bs, s) => (.bytes bs, (s.putCore ck ((s.core ck).dropLines pg.pa (pg.pa + len))).noteRead ck va pg.pa len)
  | r => r

/-- rld: the limits, then translation, then a place in the queue; the data comes later (R129). Where the range is checked, the data
read is performed with its check at once, so that its trap is precise (R270, R272). One that waits for a place of the queue is taken by a
pre-emption as a timed wait is: a thread that waits counts as stopped (R317). A page without a stage-2 leaf, a physical address of a firmware
core or the switch window, has no FMT and is taken for raw (log entry 104). -/
def execRld (d : BitVec 2) (a b : BitVec 5) (g : BitVec 3) (s : State) : Out :=
  s.guarded g fun s =>
    let va := s.reg a
    let len := (s.reg b).toNat
    if len = 0 ∨ 512 < len ∨ va.toNat % 4096 + len > 4096 then s.trap 0x12 va
    else
      match s.dataPage va .read len with
      | .stop s => s
      | .ok pg s =>
        if pg.fmt = 0 then s.stall 1 .read { stage := 2, cause := 0x5B, level := 0xF, ipa := pg.ipa, desc := pg.d2 } va
        else if blockCode pg.fmt then s.stall 1 .read { stage := 2, cause := 0x5A, level := 0xF, ipa := pg.ipa, desc := pg.d2 } va
        else if len % fmtBytes pg.fmt ≠ 0 ∨ va.toNat % fmtBytes pg.fmt ≠ 0 then s.trap 0x12 va
        else
          let q := d.toNat
          let l := s.me.lq[q]'d.isLt
          let place (x : LqSlot) (s : State) : State :=
            let l' := { l with issued := l.issued + 1, slots := l.slots.put l.issued x }
            let s := s.setMe { s.me with lq := s.me.lq.set q l' d.isLt }
            (s.later (.event (.loadQueueFill s.node (ckCore s.cur) q l.issued))).finish
          if 16 ≤ l.issued - l.taken then
            if l.taken < l.claimed then (if s.stopAsked then s.stopCore 3 else s) else s.trap 0x1B (BitVec.ofNat 64 q)
          else if s.checked s.cur pg then
            match s.performRld s.cur pg va.toNat len with
            | (.race, t) => t.trap 0x70 va
            | (x, t) => place (.sent (x.slot va.toNat pg.pa pg.fmt)) t
          else place (.pending (BitVec.ofNat 64 pg.pa) va len pg.fmt pg.enc) s

/-- The data of an rld arrives in its load queue (R129). -/
def execLoadQueueFill (node core q idx : Nat) (s : State) : Out :=
  let ck := node * 256 + core
  let n : Fin 4 := Fin.ofNat 4 q
  let put (s : State) (x : LqSlot) : State :=
    let c := s.core ck
    let l := c.lq[n]
    let s := s.putCore ck { c with lq := c.lq.set n { l with slots := l.slots.put idx x } }
    ((((s.wake (.ring ck 0)).wake (.ring ck 1)).wake (.ring ck 2)).wake (.core ck))
  .next <|
    match (s.core ck).lq[n].slots.get? idx with
    | some (.pending pa va len fmt enc) =>
      match s.lostAt node (s.party ck).func va.toNat with
      | some w => put (s.refuseLost (s.party ck) va.toNat w) (.mark va 0xBB)
      | none =>
      let r := s.performRld ck { pa := pa.toNat, left := len, enc := enc } va.toNat len
      put r.2 (r.1.slot va.toNat pa.toNat fmt)
    | some (.sent x) => put s x
    | _ => s

/-- Takes place n out of a load queue. -/
def Core.takeLq (c : Core) (q : Fin 4) (n : Nat) : Core :=
  let l := c.lq[q]
  { c with lq := c.lq.set q { l with taken := l.taken + 1, slots := l.slots.del n } }

/-- Takes the place that the access core's standing claim names, and spends the claim. -/
def Core.spendLq (c : Core) (q : Fin 4) (n : Nat) : Core :=
  let c := c.takeLq q n
  { c with lq := c.lq.set q { c.lq[q] with standing := none } }

/-- pop (R130): the claim stands when it times out, and the next pop of the queue uses it. -/
def execPop (p : BitVec 3) (q : BitVec 7) (t d : BitVec 5) (s : State) : Out :=
  let n : Fin 4 := Fin.ofNat 4 q.toNat
  let l := s.me.lq[n]
  let claim : Option (Nat × LoadQueue) :=
    match l.standing with
    | some k => some (k, l)
    | none =>
      if l.issued ≤ l.claimed then none
      else some (l.claimed, { l with claimed := l.claimed + 1, standing := some l.claimed })
  .next <|
    match claim with
    | none => s.trap 0x1C (BitVec.ofNat 64 n.val)
    | some (k, l) =>
      let s := (s.setMe { s.me with lq := s.me.lq.set n l }).beginWait (.pop p q t d)
      match l.slots.get? k with
      | some (.mark va _) => ((s.setMe (s.me.spendLq n k)).endWait).trap 0x60 va
      | some (.data bs _) => s.timedWait p t true (fun s => (s.setMe (s.me.spendLq n k)).setReg d (bytesWord bs)) id
      | _ => s.timedWait p t false id id

/-! ### Atomics (R243 to R245) -/

/-- An atomic: the old value goes to s[d]; the word's line leaves the data cache. -/
def amo (f : W64 → W64 → W64) (d a b : BitVec 5) (g : BitVec 3) (s : State) : Out :=
  s.guarded g fun s =>
    let va := s.reg a
    let x := s.reg b
    if va.toNat % 8 ≠ 0 then s.trap 0x12 va
    else
      match s.dataPage va .atomic with
      | .stop s => s
      | .ok pg s =>
        -- what the atomic reads, a later fence may acquire; what it writes, an earlier fence has released (R255)
        let seen := (s.noteRead s.cur va.toNat pg.pa 8).me.seen
        match ofAcc va (s.atomicAt s.cur pg (fun old => f old x)) with
        | .stop s => s.setMe (s.me.dropLines pg.pa (pg.pa + 8))
        | .ok old s =>
          let s := s.addStamps pg.pa 8 (s.me.fenceStamps s.cur va.toNat 8)
          ((s.setMe { s.me.dropLines pg.pa (pg.pa + 8) with seen := seen }).setReg d old).finish

def minS (x y : W64) : W64 := if x.slt y then x else y
def maxS (x y : W64) : W64 := if x.slt y then y else x

def execAmoAddW64 (d a b : BitVec 5) (g : BitVec 3) (s : State) : Out := amo (· + ·) d a b g s
def execAmoMinI64 (d a b : BitVec 5) (g : BitVec 3) (s : State) : Out := amo minS d a b g s
def execAmoMaxI64 (d a b : BitVec 5) (g : BitVec 3) (s : State) : Out := amo maxS d a b g s
def execAmoAndW64 (d a b : BitVec 5) (g : BitVec 3) (s : State) : Out := amo (· &&& ·) d a b g s
def execAmoOrW64 (d a b : BitVec 5) (g : BitVec 3) (s : State) : Out := amo (· ||| ·) d a b g s
def execAmoXorW64 (d a b : BitVec 5) (g : BitVec 3) (s : State) : Out := amo (· ^^^ ·) d a b g s
def execAmoXchgW64 (d a b : BitVec 5) (g : BitVec 3) (s : State) : Out := amo (fun _ x => x) d a b g s
/-- The compare value is s[d], read before it is written. -/
def execAmoCasW64 (d a b : BitVec 5) (g : BitVec 3) (s : State) : Out :=
  amo (fun old x => if old = s.reg d then x else old) d a b g s

/-! ### Fences (R246) -/

/-- A fence's two halves (R255), at die scope or wider, for input addresses [lo, hi). -/
def State.fenceHalves (s : State) (sc lo hi : Nat) : State :=
  if 1 ≤ sc then (s.fenceAcquire s.cur sc lo hi).fenceRelease s.cur sc lo hi else s

/-- A fence waits for the core's stores on their way and for the data reads of its rlds; at die scope or wider it drops the data
cache, and is an acquire and a release. At core scope it drops the lines of the own scratchpad, which the core's engines write. -/
def execFence (g sc : BitVec 3) (s : State) : Out :=
  s.guarded g fun s =>
    if s.postedLeft || s.me.rldLeft then s
    else ((s.setMe (if 1 ≤ sc.toNat then s.me.dropCache else s.me.dropPad s.cur)).fenceHalves sc.toNat 0 (2 ^ 64)).finish

/-- An access of the acting core that touches input addresses [lo, hi) is still to be performed: a store on its way, or the data
read of an rld. -/
def State.leftIn (s : State) (lo hi : Nat) : Bool :=
  ((s.pkg s.node).outstanding.any fun e => e.2.any fun q => q.core == s.cur && q.va.toNat < hi && lo < q.va.toNat + q.size) ||
    (List.finRange 4).any fun q => s.me.lq[q].slots.any fun x => match x.2 with
      | .pending _ va len _ _ => va.toNat < hi && lo < va.toNat + len
      | _ => false

/-- fence.r: only accesses that touch its range are ordered, and only lines of the range are dropped: a line that stands in the
data cache now is not used for an input address of the range any more. -/
def execFenceR (a b : BitVec 5) (g sc : BitVec 3) (s : State) : Out :=
  s.guarded g fun s =>
    let lo := (s.reg a).toNat
    let hi := min (lo + (s.reg b).toNat) (2 ^ 48)
    if (s.reg b).toNat = 0 then s.finish
    else if s.leftIn lo hi then s
    else ((s.setMe { s.me with rfences := (lo, hi, s.me.fills) :: s.me.rfences }).fenceHalves sc.toNat lo hi).finish

end Sys2Proof.Machine
end

