-- ==== Sys2Proof/Machine/Sync.lean ====
section
/-!
DEFINITION. Waits on tokens, tagged words and barriers (R233 to R242), the router's atomics as an event (R244), and
switch-memory allocation (R250 to R252).
-/
namespace Sys2Proof.Machine

/-! ### Tokens (R235, R236) -/

/-- sig.tk: a release at core scope, behind every earlier access of the core: the data reads of its rlds, and its stores on their
way. -/
def execSigTk (k : BitVec 7) (s : State) : Out :=
  .next (if s.me.rldLeft || s.postedLeft then s else (s.raiseToken s.cur k.toNat).finish)

/-- Withdraws the access core's claim on a token. -/
def Core.dropClaim (c : Core) (k : Nat) : Core :=
  let t := c.token k
  c.setToken k { t with claims := t.claims.filter (· ≠ .access) }

/-- wait.tk on a claim that stands. -/
def State.tokenWait (s : State) (p : BitVec 3) (k : Nat) (t : BitVec 5) : State :=
  let x := s.me.token k
  s.timedWait p t (x.claims.head? == some .access && x.value != 0)
    (fun s =>
      let c := s.me.dropClaim k
      let x := c.token k
      let c := c.setToken k { x with value := x.value - 1 }
      (s.setMe (c.dropPad s.cur)).wakeClaims s.cur k)
    (fun s => (s.setMe (s.me.dropClaim k)).wakeClaims s.cur k)

def execWaitTk (p : BitVec 3) (k : BitVec 7) (t : BitVec 5) (s : State) : Out :=
  .next <|
    match s.me.wait with
    | some _ => s.tokenWait p k.toNat t
    | none =>
      let x := s.me.token k.toNat
      if x.value.toNat + x.praise < 1 + x.pwait then (s.setPred p true).finish
      else
        let c := s.me.setToken k.toNat { x with claims := x.claims ++ [.access] }
        ((s.setMe c).beginWait (.waitTk p k t)).tokenWait p k.toNat t

/-! ### Tagged words (R237, R238) -/

/-- Takes the answer of a tagged request, or waits on. -/
def State.taggedTurn (s : State) (p : BitVec 3) (va : W64) (t : BitVec 5) (done : W64 → State → State) : State :=
  match s.me.wait.bind (·.reply) with
  | some (.done v) => (((done v s).endWait).setPred p false).finish
  | some (.refused c) => (s.endWait).trap c va
  | some .withdrawn =>
    if s.expired t then (s.endWait.setPred p true).finish else if s.stopAsked then s.endWait.stopCore 3 else s.endWait
  | _ => if s.expired t || s.stopAsked then s.wake (.event (.taggedWaitWithdrawal s.node (ckCore s.cur))) else s

/-- A ldwf.w64 or stwe.w64: its checks, then the request to the word's home. The wait begins with its first turn. It times out once
the word's tag has been looked at (R233); until then the request may be held back by the core's own earlier accesses. -/
def tagged (i : Instr) (fill : Bool) (p : BitVec 3) (a t : BitVec 5) (value : State → W64) (done : W64 → State → State) (s : State) : Out :=
  let va := s.reg a
  .next <|
    if (s.me.wait.bind (·.reply)).isSome then s.taggedTurn p va t done
    else if va.toNat % 8 ≠ 0 then s.trap 0x12 va
    else
      match s.accessPage va (if fill then .write else .read) with
      | .stop s => s
      | .ok pg s =>
        match region pg.pa with
        | .pad _ _ =>
          match s.homeRefuses (s.party s.cur) pg.pa 8 2 pg.enc with
          | some h => (s.refuseRemote (s.party s.cur) pg.pa h 0x97).2.trap 0x60 va
          | none =>
            let s := s.beginWait i
            -- a stwe is a release, behind the core's earlier accesses (R128, R237); a ldwf waits for the core's releases (R260)
            if s.onItsWay pg.pa 8 || s.portFull pg.pa || (if fill then s.me.rldLeft || s.postedLeft else s.releaseLeft) then
              (if s.stopAsked then s.endWait.stopCore 3 else s)
            else
              let (broken, s) := s.takeUpset s.cur 10
              let crowd := (s.tagQ.filter fun q => q.word / 0x80000 == pg.pa / 0x400000).length
              let cause := if broken.isSome then some 0x73 else if 256 ≤ crowd && s.tags.has (pg.pa / 8) == fill then some 0x74 else none
              if let some c := cause then ((s.refuseSent (s.party s.cur) pg.pa c).2.endWait).trap 0x60 va else
              let (performed, failed, seq, s) := s.fabric s.cur pg.pa
              let req : TagReq := { word := pg.pa / 8, core := s.cur, fill := fill, value := value s, va := va.toNat, seq := seq }
              let s := match s.me.wait with
                | some w => s.setMe { s.me with wait := some { w with reply := some .waiting } }
                | none => s
              let s := if performed then { s with tagQ := s.tagQ ++ [req] }.tagServe req.word else s
              if failed.isNone then s.taggedTurn p va t done else ((s.dropTagged s.cur).endWait).trap 0x60 va
        | _ => s.trap 0x94 va

def execLdwfW64 (p : BitVec 3) (a t d : BitVec 5) (s : State) : Out :=
  tagged (.ldwfW64 p a t d) false p a t (fun _ => 0) (fun v s => (s.setMe s.me.dropCache).setReg d v) s

def execStweW64 (p : BitVec 3) (a t d : BitVec 5) (s : State) : Out :=
  tagged (.stweW64 p a t d) true p a t (fun s => s.reg d) (fun _ s => s) s

/-- A core's tagged request reaches its home: it is performed, or waits there. -/
def execTaggedRequestAtHome (node core : Nat) (s : State) : Out :=
  .next <|
    match s.tagQ.find? fun t => t.of (node * 256 + core) with
    | some t => s.tagServe t.word
    | none => s

/-- The withdrawal of a core's tagged request reaches its home: a request still waiting is taken back; one performed already
stays performed, and its core finds the answer (R233). -/
def execTaggedWaitWithdrawal (node core : Nat) (s : State) : Out :=
  .next <|
    match s.tagQ.find? fun t => t.of (node * 256 + core) with
    | some _ => s.answerTagged (node * 256 + core) .withdrawn
    | none => s

/-! ### Groups and barriers (R239 to R242) -/

def State.inMemberSlice (s : State) : Option Nat := if isFirmware s.cur then none else s.me.slice

def execJoin (k : BitVec 7) (s : State) : Out :=
  .next <|
    match s.inMemberSlice with
    | none => s.wordTrap 0x11 (.join k)
    | some sk => (s.putSlice sk ((s.slice sk).joinGroup k.toNat s.me.slcore)).finish

def execLeave (k : BitVec 7) (s : State) : Out :=
  .next <|
    match s.inMemberSlice with
    | none => s.wordTrap 0x11 (.leave k)
    | some sk => (s.putSlice sk ((s.slice sk).leaveGroup k.toNat s.me.slcore)).finish

def Core.bar (c : Core) (b : Nat) : CoreBar := Tab.getD c.bars b {}
def Core.setBar (c : Core) (b : Nat) (x : CoreBar) : Core := { c with bars := Tab.put c.bars b x }

/-- Whether some core of a slice has an arrival in a generation of a barrier that it has not waited for. -/
def State.genWanted (s : State) (sk b gen : Nat) : Bool :=
  s.cores.any fun e => e.2.slice == some sk && (e.2.bar b).pend && (e.2.bar b).tgt.toNat == gen

/-- bar.arrive (R241): a release at package scope, kept for the waits of its generation (R271). -/
def execBarArrive (k : BitVec 7) (s : State) : Out :=
  .next <|
    match s.inMemberSlice with
    | none => s.wordTrap 0x11 (.barArrive k)
    | some sk =>
      let b := k.toNat
      let x := (s.slice sk).bar b
      let c := s.me.bar b
      -- a release, behind the core's earlier accesses
      if s.me.rldLeft || s.postedLeft then s
      else if !((s.slice sk).group (b % 64)).has s.me.slcore then s.trap 0x90 (BitVec.ofNat 64 b)
      else if c.pend && c.tgt == x.gen then s.trap 0x91 (BitVec.ofNat 64 b)
      else
        let s := s.countRelease s.cur
        let s := s.setMe (s.me.setBar b { c with pend := true, tgt := x.gen })
        let rels := (x.rels.filter fun r => s.genWanted sk b r.1) ++ [(x.gen.toNat, s.cur, s.me.rc)]
        let sl := ((s.slice sk).setBar b { x with arr := x.arr.add s.me.slcore, rels := rels }).tryComplete b
        (s.putSlice sk sl).finish

/-- bar.wait (R242). -/
def execBarWait (p : BitVec 3) (k : BitVec 7) (t : BitVec 5) (s : State) : Out :=
  .next <|
    match s.inMemberSlice with
    | none => s.wordTrap 0x11 (.barWait p k t)
    | some sk =>
      let b := k.toNat
      let x := (s.slice sk).bar b
      let c := s.me.bar b
      if c.pend then
        (s.beginWait (.barWait p k t)).timedWait p t (x.gen != c.tgt)
          (fun s =>
            let s := s.setMe (s.me.dropCache.setBar b { c with pend := false })
            (x.rels.filter fun r => r.1 == c.tgt.toNat).foldl (fun s r => s.mergeFrom s.cur r.2.1 r.2.2) s)
          id
      else
        (s.beginWait (.barWait p k t)).timedWait p t (c.gc != 0) (fun s => s.setMe ((s.me.dropPad s.cur).setBar b { c with gc := c.gc - 1 })) id

/-! ### A wait's time-out as an event (R233) -/

/-- The wait that a core's instruction is in times out once its cycles have passed; otherwise nothing happens. -/
def execTimedWaitTimeout (node core : Nat) (s : State) : Out :=
  let ck := node * 256 + core
  let t : State := { s with cur := ck }
  .next <|
    match (s.core ck).wait with
    | none => s
    | some w =>
        let late (r : BitVec 5) (o : Out) : State := if t.expired r then (match o with | .next u => { u with cur := s.cur } | _ => s) else s
        match decodeAccess w.word 0 0 with
        | .ok (.waitTk p k r) => late r (execWaitTk p k r t)
        | .ok (.barWait p k r) => late r (execBarWait p k r t)
        | .ok (.ldwfW64 p a r d) => late r (execLdwfW64 p a r d t)
        | .ok (.stweW64 p a r d) => late r (execStweW64 p a r d t)
        | .ok (.pop p q r d) => late r (execPop p q r d t)
        | _ => s

/-! ### Router atomics as an event (R244) -/

/-- The new value that a form of Table 14.1 gives. -/
def atomicNew (fn : Nat) (old x cmp : W64) : W64 :=
  match fn with
  | 0 => old + x
  | 1 => minS old x
  | 2 => maxS old x
  | 3 => old &&& x
  | 4 => old ||| x
  | 5 => old ^^^ x
  | 6 => x
  | _ => if old = cmp then x else old

/-- The page by which a core knows a physical address: that of a translation it holds of its slice (R69), so that the home checks what
lies on a checked page (R270); without one, a page of neither attribute. -/
def State.physPage (s : State) (ck pa : Nat) : Page :=
  let plain : Page := { pa := pa, left := 8 }
  match (s.core ck).slice with
  | none => plain
  | some sk =>
    match (s.core ck).tlb.find? fun e => let b := leafPa (skNode sk) e e.base; b ≤ pa && pa + 8 ≤ b + e.size with
    | some e => { plain with chk := dCHK e.d1, enc := dENC e.d2, d2 := e.d2 }
    | none => plain

/-- A router performs an atomic of a core at a physical address; an address that cannot be reached is refused (R304), and an ordered
access that breaks the order of its checked line is not performed (R270). -/
def execRouterAtomic (node core fn : Nat) (addr operand cmp : W64) (s : State) : Out :=
  let pg := s.physPage (node * 256 + core) (normPa node addr.toNat)
  .next (if fn < 8 && addr.toNat % 8 = 0 then
    match s.atomicAt (node * 256 + core) pg (fun old => atomicNew fn old operand cmp) with
    | .ok _ s => s
    | .err _ _ s => s
    | .poison _ s => s
    | .race _ _ s => s
  else s)

/-! ### Switch-memory allocation (R250 to R252, R77 to R79, R294) -/

/-- The block of a function's switch allocation state. -/
def satBlock (node func : Nat) : Nat := ctl node (0x400000 + 0x4000 * func)
/-- Words of entry e of a function's table. -/
def State.satWord (s : State) (node func e w : Nat) : W64 := s.word (satBlock node func + 32 * e + 8 * w)
def State.satFree (s : State) (node func e : Nat) : Bool := (s.satWord node func e 0).fld 62 2 == 0
/-- LIMIT and USED of a quota record. -/
def quotaAddr (node func sw : Nat) : Nat := satBlock node func + 0x2100 + 16 * sw

/-- An allocation entry, decoded (Table 5.8). -/
structure SatEntry where
  state : Nat
  place : Nat
  rd : Nat
  wr : Nat
  vbase : Nat
  len : Nat
  swa : Nat
  swb : Nat
  offa : Nat
  offb : Nat
  deriving DecidableEq, Repr

def State.satEntry (s : State) (node func e : Nat) : SatEntry :=
  let w0 := s.satWord node func e 0
  let w2 := s.satWord node func e 2
  { state := w0.fld 62 2, place := w0.fld 60 2, rd := w0.fld 59 1, wr := w0.fld 58 1, vbase := w0.fld 0 48
    len := (s.satWord node func e 1).toNat, swa := w2.fld 37 5, swb := w2.fld 42 5, offa := w2.fld 0 37
    offb := (s.satWord node func e 3).fld 0 37 }

def SatEntry.words (x : SatEntry) : List W64 :=
  [BitVec.ofNat 64 (x.state * 2 ^ 62 + x.place * 2 ^ 60 + x.rd * 2 ^ 59 + x.wr * 2 ^ 58 + x.vbase), BitVec.ofNat 64 x.len,
    BitVec.ofNat 64 (x.swb * 2 ^ 42 + x.swa * 2 ^ 37 + x.offa), BitVec.ofNat 64 x.offb]

/-- Writes entry e of a function's table; what was known of a degraded mirror there goes. -/
def State.putSat (s : State) (node func e : Nat) (ws : List W64) : State :=
  let p := s.pkg node
  let s := if p.firstLost.isEmpty then s else s.putPkg node { p with firstLost := p.firstLost.del (func * 256 + e) }
  s.setBytes (satBlock node func + 32 * e) (ws.flatMap wordBytes)

/-- Bytes charged on a switch by a striped allocation (R79). -/
def stripe (len : Nat) : Nat := (len / 4096 + 17) / 18 * 4096

/-- The switches an entry charges, with the bytes it holds there. -/
def SatEntry.spaces (x : SatEntry) : List (Nat × Nat × Nat) :=
  match x.place with
  | 0 => [(x.swa, x.offa, x.len)]
  | 1 => (List.range 18).map fun sw => (sw, x.offa, stripe x.len)
  | _ => [(x.swa, x.offa, x.len), (x.swb, x.offb, x.len)]

/-- Inserts a range among ranges rising by their first byte. -/
def insertRange : List (Nat × Nat) → Nat × Nat → List (Nat × Nat)
  | [], x => [x]
  | y :: t, x => if x.1 ≤ y.1 then x :: y :: t else y :: insertRange t x

def sortRanges (l : List (Nat × Nat)) : List (Nat × Nat) := l.foldl insertRange []

/-- Gaps between rising ranges, from lo up to top. -/
def gaps (top : Nat) : Nat → List (Nat × Nat) → List (Nat × Nat)
  | lo, [] => [(lo, top)]
  | lo, (a, b) :: t => (lo, min a top) :: gaps top (max lo b) t

def up64K (n : Nat) : Nat := (n + 65535) / 65536 * 65536
/-- How many 64 KiB-aligned places of n bytes a gap has. -/
def placesIn (n : Nat) (g : Nat × Nat) : Nat := if up64K g.1 + n ≤ g.2 then (g.2 - n - up64K g.1) / 65536 + 1 else 0

/-- The k-th place of n bytes in a list of gaps. -/
def placeAt (n : Nat) : List (Nat × Nat) → Nat → Option Nat
  | [], _ => none
  | g :: t, k => if k < placesIn n g then some (up64K g.1 + 65536 * k) else placeAt n t (k - placesIn n g)

/-- A free offset of n bytes on all of the named switches, chosen freely among those there are (R250). -/
def State.pickOffset (s : State) (sws : List Nat) (n : Nat) : Option Nat × State :=
  let taken := sws.flatMap fun sw => (s.switch sw).used.map fun (u : SwSpace) => (u.lo, u.hi)
  let g := gaps (2 ^ 37) 0 (sortRanges taken)
  let total := (g.map (placesIn n)).sum
  if total = 0 then (none, s)
  else
    let (k, s) := s.pickNat
    (placeAt n g (k % total), s)

/-- The lowest 64 KiB-aligned window address at which n bytes overlap no entry that is not free. -/
def State.freeWindow (s : State) (node func n : Nat) : Option Nat :=
  let taken := ((List.range 256).filter fun e => !s.satFree node func e).map fun e =>
    let x := s.satEntry node func e
    (x.vbase, x.vbase + x.len)
  placeAt n (gaps (2 ^ 48) 0xF00000000000 (sortRanges taken)) 0

/-- Whether a request for switch memory is invalid (0xB7). -/
def badRequest (len : Nat) (b : W64) : Bool :=
  let place := b.fld 0 2
  let swa := b.fld 4 5
  let swb := b.fld 9 5
  len == 0 || len % 65536 != 0 || 2 ^ 40 < len || b.fld 14 50 != 0 || place == 3 || 17 < swa || 17 < swb ||
    (place == 1 && swa != 0) || (place != 2 && swb != 0) || (place == 2 && swa == swb) || b.fld 2 2 == 0

/-- Adds to, or takes from, USED of a function on a switch. -/
def State.charge (s : State) (node func sw : Nat) (f : Nat → Nat) : State :=
  let a := quotaAddr node func sw + 8
  s.setWord a (BitVec.ofNat 64 (f (s.word a).toNat))

/-- A package's own requests are refused until every node has acknowledged its rejoin notice (R285). -/
def State.rejoins (s : State) (node : Nat) : Bool := (s.pkg node).quiet || !(s.pkg node).unacked.isEmpty

/-- The request of an allocation or a free to a switch, under the package's next number and with the sends of R282; the switch caches
its reply (R281). Nothing is sent to a switch declared failed (R289); one declared dead is refused (0xA0), and one while the package
rejoins (0xA4), as log entry 95 says. -/
def State.switchOp (s : State) (node sw : Nat) : Sent × State :=
  let dst := 0xA0 + sw
  let refused (c : Nat) : Sent × State :=
    ({ performed := false }, s.record node { cause := c, sev := sevOf c, unit := 6, kind := 3, addr := BitVec.ofNat 64 (swPa sw 0), peer := dst })
  if (s.pkg node).failedSw.has sw then ({ performed := false }, s)
  else if (s.pkg node).dead.has dst || !(dst ∈ s.nodes) then refused 0xA0
  else if s.rejoins node then refused 0xA4
  else
    let (seq, s) := s.nextSeq node dst
    let (r, s) := s.sendTries node dst 4 false
    let s := if r.performed then s.cacheReply dst node seq 0 else s
    (r, if r.answered then s else s.declareDead node dst (swPa sw 0))

/-- 4,096 requests of a package are outstanding to one of a list of switches that it sends to (R281): an allocation or a free waits. -/
def State.switchFull (s : State) (node : Nat) (sws : List Nat) : Bool :=
  sws.any fun sw => !(s.pkg node).failedSw.has sw && s.portFullOf node (swPa sw 0)

/-- Asks a list of switches to take part (status 3 where one does not answer). -/
def State.askSwitches (s : State) (node : Nat) : List Nat → Bool × State
  | [] => (true, s)
  | sw :: t =>
    match s.switchOp node sw with
    | (r, s) => if r.answered then s.askSwitches node t else (false, s)

/-- The function and node of the acting core's allocations. -/
def State.myFunc (s : State) : Nat := (s.party s.cur).func

/-- Takes space on a switch; the bytes of a new allocation read as zero, in the data caches too. -/
def State.takeSpace (s : State) (holder : Nat × Nat × Nat) (x : Nat × Nat × Nat) : State :=
  let w := s.switch x.1
  let s := s.putSwitch x.1 { w with used := { lo := x.2.1, hi := x.2.1 + x.2.2, holders := [holder] } :: w.used }
  let lo := swPa x.1 x.2.1
  let hi := lo + x.2.2
  { s with
    mem := s.mem.zero lo hi
    cores := s.cores.mapVals fun c => c.dropLines lo hi
    poison := s.poison.cut lo hi
    stamps := s.stamps.filter fun e => e.1 < lo || hi ≤ e.1 }

/-- The entry that a request of so many bytes asks for, without its addresses. -/
def wantedEntry (len : Nat) (b : W64) : SatEntry :=
  { state := 1, place := b.fld 0 2, rd := b.fld 2 1, wr := b.fld 3 1, vbase := 0, len := len, swa := b.fld 4 5, swb := b.fld 9 5
    offa := 0, offb := 0 }

/-- An allocation of bytes on a switch would take a function's USED above its LIMIT (status 2). -/
def State.aboveLimit (s : State) (node func : Nat) (c : Nat × Nat × Nat) : Bool :=
  (s.word (quotaAddr node func c.1)).toNat < (s.word (quotaAddr node func c.1 + 8)).toNat + c.2.2

/-- A package reaches a switch for a function's allocations (status 3). -/
def State.switchServes (s : State) (node func sw : Nat) : Bool :=
  !((s.pkg node).failedSw.has sw || (s.pkg node).ready.fld (18 + sw) 1 == 0 || (s.pkgs.any fun q => q.2.readmits.has (sw * 256 + node)) ||
    (match s.sliceOfFunc node func with | some sk => s.fabricBarred sk | none => false))

/-- The status with which an allocation fails before any switch is asked. -/
def State.allocStatus (s : State) (node func : Nat) (x : SatEntry) : Option W64 :=
  if (List.range 256).all fun e => !s.satFree node func e then some 1
  else if x.spaces.any (s.aboveLimit node func) then some 2
  else if x.spaces.any fun c => !s.switchServes node func c.1 then some 3
  else none

/-- The allocation of a valid request that no status forbids: the switches are asked; the status or VBASE. -/
def State.allocate (s : State) (node func : Nat) (x : SatEntry) : W64 × State :=
    let len := x.len
    let free := (List.range 256).filter (s.satFree node func)
    let (answered, s) := s.askSwitches node (x.spaces.map (·.1))
    if !answered then (3, s)
    else
      let (oa, s1) := s.pickOffset (if x.place = 1 then List.range 18 else [x.swa]) (if x.place = 1 then stripe len else len)
      let (ob, s1) := if x.place = 2 then s1.pickOffset [x.swb] len else (some 0, s1)
      match oa, ob, s.freeWindow node func len with
      | none, _, _ => (4, s)
      | _, none, _ => (4, s)
      | _, _, none => (5, s)
      | some oa, some ob, some v =>
        let x := { x with vbase := v, offa := oa, offb := ob }
        let (k, s) := s1.pickNat
        let s := s.putSat node func (free.getD (k % free.length) 0) x.words
        let s := x.spaces.foldl (fun s c => (s.charge node func c.1 (· + c.2.2)).takeSpace (node, func, v) c) s
        (BitVec.ofNat 64 v, s)

/-- swalloc (R250); it waits for room among the requests to its switches (R281). -/
def execSwalloc (d a b : BitVec 5) (g : BitVec 3) (s : State) : Out :=
  s.guarded g fun s =>
    let len := (s.reg a).toNat
    let bb := s.reg b
    let x := wantedEntry len bb
    if badRequest len bb then s.trap 0xB7 (s.reg a)
    else match s.allocStatus s.node s.myFunc x with
      | some v => (s.setReg d v).finish
      | none =>
        if s.switchFull s.node (x.spaces.map (·.1)) then s
        else
          let (v, s) := s.allocate s.node s.myFunc x
          (s.setReg d v).finish

/-- Every cldr.sw that waits on a context within a range of a switch is answered with a STATE. -/
def State.answerWaiters (s : State) (sw lo hi state : Nat) : State :=
  ((s.switch sw).ctxs.filter fun x => lo ≤ x.1 && x.1 < hi).foldl (fun s x =>
    let c := x.2
    let w := s.switch sw
    let missing := (List.range c.m).filter fun i => (c.parts.get? i).isNone
    let w := { w with
      answers := c.waiters.foldl (fun t ck => Tab.put t ck (redAnswer state c.round missing [])) w.answers
      ctxs := w.ctxs.put x.1 { c with waiters := [] } }
    c.waiters.foldl (fun s ck => s.wake (.ring ck 2)) (s.putSwitch sw w)) s

/-- A holder of space on a switch from an offset on still has the entry: one of its function's table that is not free, with its
address and that space. -/
def State.holds (s : State) (h : Nat × Nat × Nat) (sw lo : Nat) : Bool :=
  (List.range 256).any fun e =>
    let x := s.satEntry h.1 h.2.1 e
    !s.satFree h.1 h.2.1 e && x.vbase == h.2.2 && x.spaces.any fun c => c.1 == sw && c.2.1 == lo

/-- The holders of a space without one of them: the entry itself, or the one that it was moved from with its slice, which has its
function and address and holds the space no longer (R325). -/
def State.dropHolder (s : State) (l : List (Nat × Nat × Nat)) (h : Nat × Nat × Nat) (sw lo : Nat) : List (Nat × Nat × Nat) :=
  if l.contains h then l.erase h
  else match l.find? fun k => k.2 == h.2 && !s.holds k sw lo with
    | some k => l.erase k
    | none => l

/-- A holder lets go of the space of an entry on a switch; space that nobody holds is released, and its contexts go. -/
def State.leaveSpace (s : State) (holder : Nat × Nat × Nat) (x : Nat × Nat × Nat) : State :=
  let w := s.switch x.1
  let used := w.used.map fun (u : SwSpace) => if u.lo = x.2.1 then { u with holders := s.dropHolder u.holders holder x.1 x.2.1 } else u
  let gone := used.filter fun (u : SwSpace) => u.holders.isEmpty
  s.putSwitch x.1 { w with
    used := used.filter fun (u : SwSpace) => !u.holders.isEmpty
    ctxs := w.ctxs.filter fun c => !(gone.any fun (u : SwSpace) => u.lo ≤ c.1 && c.1 < u.hi) }

/-- Asks the switch of each space to release it; what comes back are the spaces whose switch did. -/
def State.askEach (s : State) (node : Nat) : List (Nat × Nat × Nat) → List (Nat × Nat × Nat) × State
  | [] => ([], s)
  | c :: t =>
    let (r, s) := s.switchOp node c.1
    let (done, s) := s.askEach node t
    (if r.performed then c :: done else done, s)

/-- Frees entry e of a function's table (R251, R294), with the spaces whose switches release them. -/
def State.freeEntry (s : State) (node func e : Nat) : State :=
  let x := s.satEntry node func e
  let (done, s) := s.askEach node x.spaces
  let m := satBlock node func + 0x2000 + e / 8
  let att := leNat (s.bytes m 1)
  let attached := bit att (e % 8)
  let s := s.putSat node func e [0, 0, 0, 0]
  let s := if attached then s.setBytes m (leBytes 1 (att - 2 ^ (e % 8))) else s
  let s := if x.place = 0 && x.state ≠ 3 then s.answerWaiters x.swa x.offa (x.offa + x.len) 2 else s
  let s := if attached then s else x.spaces.foldl (fun s c => s.charge node func c.1 (· - c.2.2)) s
  done.foldl (fun s c => s.leaveSpace (node, func, x.vbase) c) s

/-- A core acts for a slice, or runs nothing and stands in its quads: its translation cache is the slice's. -/
def State.coreOf (s : State) (sk ck : Nat) (c : Core) : Bool :=
  c.slice == some sk || (c.slice.isNone && ckNode ck == skNode sk && !isFirmware ck && bit (s.sliceQuads sk) (ckCore ck / 4))

/-- An access of a slice that translated through an entry is still to be performed (R251). -/
def State.entryUsed (s : State) (sk : Nat) (x : SatEntry) : Bool :=
  s.cores.any fun c => s.coreOf sk c.1 c.2 && (s.unperformed c.1).any fun va => x.vbase ≤ va && va < x.vbase + x.len

/-- A core's request that its slice's share of the fabric bars is recorded as one that fails on the way (R44, log entry 57). -/
def State.barredTrap (s : State) (sw : Nat) (va : W64) : State :=
  (s.record s.node { s.coreRec s.cur 0xA7 6 with kind := 3, addr := BitVec.ofNat 64 (swPa sw 0), peer := 0xA0 + sw }).trap 0x60 va

/-- swfree (R251). While the package rejoins, its requests to the switches are refused, with the trap of an error response (R285,
R304), and so are those of a slice that the fabric's ports are barred to (R44). It waits for room among the requests to its switches (R281). -/
def execSwfree (d a : BitVec 5) (g : BitVec 3) (s : State) : Out :=
  s.guarded g fun s =>
    let f := s.myFunc
    match (List.range 256).find? fun e => !s.satFree s.node f e && (s.satEntry s.node f e).vbase == (s.reg a).toNat with
    | none => (s.setReg d 6).finish
    | some e =>
      let x := s.satEntry s.node f e
      if (match s.me.slice with | some sk => s.entryUsed sk x | none => false) then s
      else if s.rejoins s.node then (s.switchOp s.node x.swa).2.trap 0x60 (s.reg a)
      else if s.portBarred s.cur then s.barredTrap x.swa (s.reg a)
      else if s.switchFull s.node (x.spaces.map (·.1)) then s
      else ((s.freeEntry s.node f e).setReg d 0).finish

/-- swquota (R252). -/
def execSwquota (d a : BitVec 5) (g : BitVec 3) (s : State) : Out :=
  s.guarded g fun s =>
    let v := (s.reg a).toNat
    let f := s.myFunc
    let give (x y : W64) : State := ((s.setReg d x).setReg (d + 1) y).finish
    if v < 18 then give (s.word (quotaAddr s.node f v)) (s.word (quotaAddr s.node f v + 8))
    else if 0xF00000000000 ≤ v && v < 2 ^ 48 then
      match (List.range 256).find? fun e =>
          let x := s.satEntry s.node f e
          x.state ≠ 0 && x.vbase ≤ v && v < x.vbase + x.len with
      | none => give 0 0
      | some e => give (s.satWord s.node f e 0) (s.satWord s.node f e 1)
    else s.trap 0xB7 (s.reg a)

end Sys2Proof.Machine
end

