-- ==== Sys2Proof/Machine/System.lean ====
section
/-!
DEFINITION. System instructions of the access core: shapes (R49 to R54, R131), accumulator snapshot and tile status (R132,
R133), resume and ring reset (R138, R139), translation invalidation (R140), error injection (R141), the firmware commands of
the inbox (R28) and measurement (R338).
-/
namespace Sys2Proof.Machine

/-! ### Shapes -/

/-- NMAX of the acting core's part (R54). -/
def State.nMax (s : State) : Nat := if (s.pkg s.node).uv720 then 32 else 64

/-- grant of R51: granted and padded extent. -/
def grantOf (x max gran : Nat) : Nat × Nat := if max ≤ x then (max, max) else (x, (x + gran - 1) / gran * gran)

/-- Whether a format code is a matrix or a vector format (Table 4.2). -/
def matrixCode (f : Nat) : Bool := (1 ≤ f && f ≤ 6) || blockCode f
def vectorCode (f : Nat) : Bool := f == 0x10 || f == 0x11 || f == 0x12

/-- Maximum and granule of K by format (Table 4.3). -/
def kLimits (f : Nat) : Nat × Nat :=
  match f with
  | 0x01 => (128, 16)
  | 0x02 => (128, 16)
  | 0x03 => (256, 32)
  | 0x04 => (256, 32)
  | 0x05 => (256, 32)
  | 0x06 => (512, 64)
  | 0x08 => (512, 16)
  | 0x09 => (504, 24)
  | 0x0A => (512, 32)
  | 0x0C => (256, 16)
  | 0x0D => (240, 24)
  | _ => (256, 32)
/-- Maximum and granule of lanes by format. -/
def laneLimits (f : Nat) : Nat × Nat := if f = 0x10 then (512, 64) else if f = 0x11 then (256, 32) else (128, 16)

def State.setShape (s : State) (n : BitVec 3) (v : W64) : State := s.setMe { s.me with sh := s.me.sh.set n.toNat v n.isLt }

/-- setshape.v (R51). -/
def execSetshapeV (d a b : BitVec 5) (g n : BitVec 3) (s : State) : Out :=
  s.guarded g fun s =>
    let f := b.toNat
    let l := (s.reg a).toNat
    if !vectorCode f then s.trap 0x33 (BitVec.ofNat 64 f)
    else if l = 0 then s.trap 0x34 (BitVec.ofNat 64 a.toNat)
    else
      let (lg, lp) := grantOf l (laneLimits f).1 (laneLimits f).2
      (((s.setShape n (BitVec.ofNat 64 (2 ^ 63 + f * 2 ^ 56 + lp * 2 ^ 10 + lg))).setReg d (BitVec.ofNat 64 lg))).finish

/-- setshape.m (R51). -/
def execSetshapeM (d a b : BitVec 5) (g n : BitVec 3) (s : State) : Out :=
  s.guarded g fun s =>
    let f := b.toNat
    let m := (s.reg a).toNat
    let c := (s.reg (a + 1)).toNat
    let k := (s.reg (a + 2)).toNat
    if !matrixCode f then s.trap 0x33 (BitVec.ofNat 64 f)
    else if m = 0 then s.trap 0x34 (BitVec.ofNat 64 a.toNat)
    else if c = 0 then s.trap 0x34 (BitVec.ofNat 64 (a.toNat + 1))
    else if k = 0 then s.trap 0x34 (BitVec.ofNat 64 (a.toNat + 2))
    else
      let (mg, mp) := grantOf m 128 8
      let (ng, np) := grantOf c s.nMax 8
      let (kg, kp) := grantOf k (kLimits f).1 (kLimits f).2
      let v := 2 ^ 63 + 2 ^ 61 + f * 2 ^ 56 + kp * 2 ^ 42 + kg * 2 ^ 32 + np * 2 ^ 24 + ng * 2 ^ 16 + mp * 2 ^ 8 + mg
      ((s.setShape n (BitVec.ofNat 64 v)).setReg d (BitVec.ofNat 64 kg)).finish

/-! ### Accumulator snapshot and tile status -/

/-- asnap (R132): commands on the slot are single steps, so the element and the count are those after the last one. -/
def execAsnap (d a b : BitVec 5) (g n : BitVec 3) (s : State) : Out :=
  s.guarded g fun s =>
    let x := s.me.mat.slots[n.toNat]'n.isLt
    let e := (s.reg a).toNat % 128 * 64 + (s.reg b).toNat % s.nMax
    ((s.setReg d ((Tab.getD x.elems e (0 : W32)).setWidth 64)).setReg (d + 1) x.pass).finish

/-- A set status bit, as a read shows it: from 24 cycles after the drain that set it, it is 1; before, either (R95). -/
def State.tileBit (s : State) (b : Bool) (since : Nat) : Bool × State := if b && s.clock < since + 24 then s.pickBool else (b, s)

/-- tstat (R133). -/
def execTstat (d : BitVec 5) (g n : BitVec 3) (s : State) : Out :=
  s.guarded g fun s =>
    let x := s.me.mat.slots[n.toNat]'n.isLt
    let (nan, s) := s.tileBit x.nan x.nanAt
    let (inf, s) := s.tileBit x.inf x.infAt
    let (ovf, s) := s.tileBit x.ovf x.ovfAt
    (s.setReg d ({ x with nan := nan, inf := inf, ovf := ovf }).status).finish

/-! ### resume and qreset -/

/-- Restarts the unit of a core whose park or stall carries a fault number: its record goes, and the unit goes on. -/
def State.unpark (s : State) (ck unit : Nat) : State :=
  let c := s.core ck
  match unit with
  | 2 => (s.putCore ck (c.setRing 0 { c.vring with park := none })).wake (.ring ck 0)
  | 3 => (s.putCore ck (c.setRing 1 { c.mring with park := none })).wake (.ring ck 1)
  | 4 => (s.putCore ck (c.setRing 2 { c.cring with park := none })).wake (.ring ck 2)
  | 5 => (s.putCore ck { c with stagePark := none }).wake (.event (.threadStart (ckNode ck) (ckCore ck)))
  | _ =>
    -- in a stopped slice the core stays stopped (R317)
    let stopped := match c.slice with | some sk => (s.slice sk).stop != .running | none => false
    (s.putCore ck { c with fault := none, stop := if stopped && c.run == .running then some 4 else c.stop }).wake (.core ck)

/-- The park or stall of a unit (Table 5.7). -/
def Core.faulted (c : Core) (unit : Nat) : Option Park :=
  match unit with
  | 0 => c.fault.bind fun f => if f.2 = 0 then some f.1 else none
  | 1 => c.fault.bind fun f => if f.2 = 1 then some f.1 else none
  | 2 => c.vring.park
  | 3 => c.mring.park
  | 4 => c.cring.park
  | 5 => c.stagePark
  | _ => none

/-- Removes a fault record from its queue. -/
def State.dropFault (s : State) (ck : Nat) (p : Park) : State :=
  let node := ckNode ck
  if p.handle then
    let k := s.pkg node
    s.putPkg node { k with faults := k.faults.filter (·.fnum ≠ p.fnum) }
  else match (s.core ck).slice with
    | some sk =>
      let sl := s.slice sk
      (s.putSlice sk { sl with faults := sl.faults.filter (·.fnum ≠ p.fnum), late := sl.late.filter (·.fnum ≠ p.fnum) }).refillFaults sk
    | none => s

/-- resume of a unit of a core by the Handle, or by a handler, which may take the faults of its own slice's queue only. -/
def State.resumeUnit (s : State) (ck unit : Nat) (asHandle : Bool) : Bool × State :=
  match (s.core ck).faulted unit with
  | some p =>
    if p.cause ∈ [0x6C, 0xE1, 0xE2] || (p.handle && !asHandle) then (false, s)
    else (true, (s.dropFault ck p).unpark ck unit)
  | none => (false, s)

/-- The core that a field of s[a] names for resume and qreset: a slice core number in a handler, a physical number for the
Handle. -/
def State.namedCore (s : State) (n : Nat) : Option Nat :=
  if s.inHandler then s.me.slice.bind fun sk => s.sliceCoreKey sk n
  else if isHandle s.cur && n < 144 then some (s.node * 256 + n)
  else none

/-- resume (R138). -/
def execResume (d a : BitVec 5) (g : BitVec 3) (s : State) : Out :=
  s.guarded g fun s =>
    let v := (s.reg a).toNat
    if !isFirmware s.cur then s.wordTrap 0x11 (.resume d a g)
    else
      let (ok, t) :=
        if v / 65536 ≠ 0 || v % 256 / 8 ≠ 0 then (false, s)
        else match s.namedCore (v / 256) with
          | some ck => s.resumeUnit ck (v % 8) (!s.inHandler)
          | none => (false, s)
      (t.setReg d (if ok then 1 else 0)).finish

/-- Resets the rings of a mask. -/
def State.resetMask (s : State) (ck m : Nat) : State :=
  [0, 1, 2].foldl (fun s r => if bit m r then s.resetRing ck r else s) s

/-- qreset (R139). -/
def execQreset (d a : BitVec 5) (g : BitVec 3) (s : State) : Out :=
  s.guarded g fun s =>
    let v := (s.reg a).toNat
    let m := v % 8
    if !isFirmware s.cur then
      if v / 256 % 256 ≠ 0 then s.wordTrap 0x11 (.qreset d a g)
      else ((s.resetMask s.cur m).setReg d (BitVec.ofNat 64 m)).finish
    else match s.namedCore (v / 256 % 256) with
      | some ck => ((s.resetMask ck m).setReg d (BitVec.ofNat 64 m)).finish
      | none => (s.setReg d 0).finish

/-! ### tinv (R140) -/

/-- Drops the cached translations of a slice's cores (and of its handler) that a test names, and the die walk caches. -/
def State.dropTlb (s : State) (sk : Nat) (f : TlbEntry → Bool) : State :=
  let s := { s with cores := s.cores.map fun (x : Nat × Core) => if s.coreOf sk x.1 x.2 then (x.1, { x.2 with tlb := x.2.tlb.filter fun e => !f e }) else x }
  let p := s.pkg (skNode sk)
  s.putPkg (skNode sk) { p with walkCache := [] }

/-- The slices whose stage-1 translations a stage-1 form names: the acting core's own, or every slice for the Handle. -/
def State.tinvSlices (s : State) : List Nat :=
  match s.me.slice with
  | some sk => [sk]
  | none => (List.range 36).map (skOf s.node)

/-- An allocation entry that covers an address of the switch window, as the translation that an access took from it. -/
def State.windowEntry (s : State) (sk va : Nat) : List TlbEntry :=
  if va < 0xF00000000000 then []
  else match s.swEntry sk va with
    | some a => [{ base := (s.word a).fld 0 48, size := (s.word (a + 8)).toNat, d1 := 0, z1 := 0, d2 := 0, z2 := 0, at2 := 0, ipa := 0 }]
    | none => []

/-- The context address of a core's cldr.sw that waits at its switch for a round (R219). -/
def State.redWaiting (s : State) (ck : Nat) : List Nat :=
  if s.switches.any fun w => w.2.ctxs.any fun c => c.2.waiters.has ck then [((s.core ck).cring.queue.headD {}).capa.toNat] else []

/-- Whether an access that used a cached translation of a slice which a test names has still to be performed, a key-value transfer and
a cldr.sw that waits at its switch among them (R140, R215). -/
def State.usedLeft (s : State) (sk : Nat) (f : TlbEntry → Bool) : Bool :=
  (s.cores.any fun x => s.coreOf sk x.1 x.2 && (s.unperformed x.1 ++ s.redWaiting x.1).any fun va =>
    (x.2.tlb ++ x.2.tlbOld ++ s.windowEntry sk va).any fun e => f e && e.covers va) ||
  s.transfers.any fun h => s.coreOf sk h.core (s.core h.core) && h.used.any f

/-- A stage-1 form. It stalls until the accesses that used the translations are performed. -/
def tinv1 (i : Instr) (f : State → TlbEntry → Bool) (g : BitVec 3) (s : State) : Out :=
  s.guarded g fun s =>
    if isFirmware s.cur && !s.inHandler && !isHandle s.cur then s.wordTrap 0x11 i
    else if s.tinvSlices.any fun sk => s.usedLeft sk (f s) then s
    else (s.tinvSlices.foldl (fun t sk => t.dropTlb sk (f s)) s).finish

/-- A stage-2 form, for the Handle alone; sl names the slice. A number above 35 names none, and there is nothing to invalidate (log entry
104). -/
def tinv2 (i : Instr) (f : State → TlbEntry → Bool) (sl : BitVec 5) (g : BitVec 3) (s : State) : Out :=
  s.guarded g fun s =>
    if !isHandle s.cur then s.wordTrap 0x11 i
    else if 36 ≤ (s.reg sl).toNat then s.finish
    else if s.usedLeft (skOf s.node (s.reg sl).toNat) (f s) then s
    else (s.dropTlb (skOf s.node (s.reg sl).toNat) (f s)).finish

/-- Whether a range of input addresses, or of intermediate addresses, meets a cached page. -/
def TlbEntry.meets1 (e : TlbEntry) (lo len : Nat) : Bool := e.base < lo + len && lo < e.base + e.size
def TlbEntry.meets2 (e : TlbEntry) (lo len : Nat) : Bool :=
  e.ipa - e.ipa % e.z2 < lo + len && lo < e.ipa - e.ipa % e.z2 + e.z2

def execTinvPg1 (a : BitVec 5) (g : BitVec 3) (s : State) : Out :=
  tinv1 (.tinvPg1 a g) (fun s e => e.meets1 (s.reg a).toNat 1) g s
def execTinvRg1 (a b : BitVec 5) (g : BitVec 3) (s : State) : Out :=
  tinv1 (.tinvRg1 a b g) (fun s e => e.meets1 (s.reg a).toNat (s.reg b).toNat) g s
def execTinvAll1 (g : BitVec 3) (s : State) : Out := tinv1 (.tinvAll1 g) (fun _ _ => true) g s
def execTinvPg2 (a b : BitVec 5) (g : BitVec 3) (s : State) : Out :=
  tinv2 (.tinvPg2 a b g) (fun s e => e.meets2 (s.reg a).toNat 1) b g s
def execTinvRg2 (a b : BitVec 5) (g : BitVec 3) (s : State) : Out :=
  tinv2 (.tinvRg2 a b g) (fun s e => e.meets2 (s.reg a).toNat 65536) b g s
def execTinvAll2 (b : BitVec 5) (g : BitVec 3) (s : State) : Out := tinv2 (.tinvAll2 b g) (fun _ _ => true) b g s

/-! ### einj (R141) -/

/-- EINJEN[0] of the acting core (Table 8.5). -/
def State.einjen (s : State) : Bool :=
  match s.me.slice with
  | some sk => (s.bindWord sk 7).fld 24 1 == 1
  | none => false

/-- A command pushed earlier that writes a slot has not completed: operations 0x05 to 0x11, and ganged parts. -/
def Core.slotBusy (c : Core) (n : Nat) : Bool :=
  let hits (w : W32) : Bool := 0x05 ≤ w.fld 27 5 && w.fld 27 5 ≤ 0x11 && w.fld 18 3 == n
  (c.mring.queue.any fun e => !e.finished && hits e.word) || c.mat.parts.any fun p => hits p.word

/-- The record of an injection: SEV 0 for every kind (R313). -/
def State.injected (s : State) (addr : Nat) (kind : Nat) : State :=
  s.record s.node { s.coreRec s.cur 0xE8 1 with sev := 0, kind := kind, addr := BitVec.ofNat 64 addr }

def execEinj (a b : BitVec 5) (g : BitVec 3) (s : State) : Out :=
  s.guarded g fun s =>
    let v := (s.reg a).toNat
    let w := (s.reg b).toNat
    let no : State := s.trap 0x1A (s.reg a)
    if !s.einjen then no
    else match v % 16 with
      | 0 =>
        let n := bits v 4 3
        let m := bits v 8 8
        let c := bits v 16 6
        let k := bits v 24 6
        if v ≠ n * 2 ^ 4 + m * 2 ^ 8 + c * 2 ^ 16 + k * 2 ^ 24 || 127 < m || s.nMax ≤ c || 31 < k || w ≠ 0 then no
        else if s.me.slotBusy n then s
        else
          let i : Fin 8 := Fin.ofNat 8 n
          let x := s.me.mat.slots[i]
          let e := m * 64 + c
          let x := { x with elems := Tab.put x.elems e ((Tab.getD x.elems e 0) ^^^ BitVec.ofNat 32 (2 ^ k)) }
          ((s.setMe { s.me with mat := { s.me.mat with slots := s.me.mat.slots.set i x } }).injected n 0).finish
      | 1 =>
        if v ≠ 1 + bits v 24 6 * 2 ^ 24 || w % 8 ≠ 0 || padSize ≤ w then no
        else (({ s with soft := s.soft.put (padBase s.cur + w) (bits v 24 6) }).injected (padBase s.cur + w) 3).finish
      | 2 =>
        if v ≠ 2 || w % 8 ≠ 0 || padSize ≤ w then no
        else (({ s with poison := s.poison.add (padBase s.cur + w) }).injected (padBase s.cur + w) 3).finish
      | 3 =>
        if v ≠ 3 then no
        else match s.dataPage (s.reg b) .write with
          | .stop s => s
          | .ok pg s =>
            -- a line of the slice's own HBM
            if pg.pa / 2 ^ 48 ≠ s.node then no else
            match s.homeRefuses (s.party s.cur) pg.pa 1 1 pg.enc with
            | some c => (s.refuse (s.party s.cur) pg.pa c).trap 0x60 (s.reg b)
            | none =>
              match region pg.pa with
              | .hbm _ _ => (({ s with poison := s.poison.add (pg.pa / 64 * 64) }).injected (pg.pa / 64 * 64) 3).finish
              | _ => no
      | _ => no

end Sys2Proof.Machine
end

