-- ==== Sys2Proof/Machine/Bind.lean ====
section
/-!
DEFINITION. What the firmware complex does to a package's slices: binding (R43, R329), teardown (R333), release of switch
holdings (R334), endpoints (R328), keys (R340), debug unlock (R342), the record ring's CSRs (R310, R311), and measurement
(R338). Each operation of a CSR is also an event of the same name.
-/
namespace Sys2Proof.Machine

/-- Keeps a STATUS in [63:56] of a package's CSR beside the written fields. -/
def State.setStatus (s : State) (node n status : Nat) (v : W64) : State :=
  s.setPcsr node n (BitVec.ofNat 64 (status * 2 ^ 56 + v.toNat % 2 ^ 56))

/-! ### Zeroing -/

/-- Zeroes a range of physical addresses, with every mark that stands beside its bytes. -/
def State.wipe (s : State) (lo hi : Nat) : State :=
  { s with
    mem := s.mem.zero lo hi
    poison := s.poison.cut lo hi
    soft := s.soft.filter fun e => e.1 < lo || hi ≤ e.1
    tags := s.tags.cut (lo / 8) (hi / 8)
    lines := s.lines.filter fun e => e.1 * 64 < lo || hi ≤ e.1 * 64
    stamps := s.stamps.filter fun e => e.1 < lo || hi ≤ e.1
    enc := s.enc.filter fun e => e.1 * 64 < lo || hi ≤ e.1 * 64 }

/-- A core without a thread and with nothing kept: what binding, a hold and teardown leave. -/
def Core.blank (c : Core) : Core := { ({} : Core) with upsets := c.upsets, thread := c.thread }

/-- The same for a hold, which keeps what race detection counts: binding alone zeroes it (R268, R324). -/
def Core.heldBlank (c : Core) : Core := { c.blank with rc := c.rc, view := c.view, images := c.images }

/-- Zeroes a slice's cores with their scratchpads; what a core keeps is given. -/
def State.wipeCores (s : State) (node : Nat) (cores : List Nat) (keep : Core → Core := Core.blank) : State :=
  cores.foldl (fun s n =>
    let ck := node * 256 + n
    (s.wipe (padBase ck) (padBase ck + padSize)).putCore ck (keep (s.core ck))) s

def State.wipeChans (s : State) (node mask : Nat) : State :=
  ((List.range 256).filter (bit mask)).foldl (fun s c => s.wipe (node * 2 ^ 48 + c * 2 ^ 31) (node * 2 ^ 48 + (c + 1) * 2 ^ 31)) s

/-! ### Binding -/

/-- The shares of the bound slices of a package, and of one slice. -/
def State.shares (s : State) (node lo : Nat) : Nat :=
  (((List.range 36).map (skOf node)).filter fun sk => (s.slice sk).bound).foldl (fun t sk => t + (s.bindWord sk 5).fld lo 8) 0

/-- The outcome code of a write of SLBIND (R43). No code covers a FUNC that another slice has, or one of 37 to 63: the slice is bound with it
(log entry 45). -/
def State.bindCode (s : State) (node : Nat) (v : W64) : Nat :=
  let sk := skOf node (v.fld 0 6)
  let w0 := s.bindWord sk 0
  let w5 := s.bindWord sk 5
  let quads := s.sliceQuads sk
  let chans := s.sliceChans sk
  if 35 < v.toNat then 5
  else if (s.slice sk).bound then 4
  else if w0.fld 52 6 ≠ 0 || w0.fld 0 16 ≠ 0 || w5.fld 0 46 ≠ 0 || (s.bindWord sk 7).fld 25 39 ≠ 0 || quads = 0 || chans = 0 ||
      64 < w5.fld 56 8 || 64 < w5.fld 48 8 then 1
  else if (s.findSlice node fun o => s.sliceQuads o &&& quads != 0 || s.sliceChans o &&& chans != 0).isSome then 2
  else if 64 < s.shares node 56 + w5.fld 56 8 || 64 < s.shares node 48 + w5.fld 48 8 then 3
  else 0

/-- A slice of another package stands stopped with its image saved on this one: a migration to this package is under way (R325). -/
def State.migratesTo (s : State) (node : Nat) : Bool :=
  s.slices.any fun e => skNode e.1 != node && e.2.kept && match e.2.saved with
    | some base => normPa (skNode e.1) base / 2 ^ 48 == node
    | none => false

/-- The record of a migration that fails at its target, or at the source's detach (R325, steps 4 and 5). -/
def State.targetNotReady (s : State) (node : Nat) : State := s.record node (handleRec 0xD8 (BitVec.ofNat 64 node))

/-- SLBIND. A refused one of a migration's target is recorded (R325). -/
def State.slbindWrite (s : State) (node : Nat) (v : W64) : State :=
  let code := s.bindCode node v
  let n := v.fld 0 6
  let s := s.setPcsr node 0x102 (BitVec.ofNat 64 (code * 2 ^ 56 + n))
  if code ≠ 0 then (if s.migratesTo node then s.targetNotReady node else s)
  else
    let sk := skOf node n
    let s := (s.wipeCores node (s.sliceCores sk)).wipeChans node (s.sliceChans sk)
    let p := s.pkg node
    let f := s.sliceFunc sk
    let s := if f = 0 then s else s.putPkg node (p.dropInbox f)
    -- YLIMIT is 0 after binding (R248)
    let w := ctl node (0x10000 + 64 * n + 56)
    let s := s.setWord w (BitVec.ofNat 64 ((s.word w).fld 24 40 * 2 ^ 24))
    s.putSlice sk { bound := true, fresh := true }

def execSlbind (node : Nat) (v : W64) (s : State) : Out := .next (s.slbindWrite node v)

/-- A store of FUNC to word 0 of a binding record. -/
def execFuncStore (node xs func : Nat) (s : State) : Out :=
  let w := s.bindWord (skOf node xs) 0
  .next (if xs < 36 then s.controlPut node (0x10000 + 64 * xs) (wordBytes (W64.withField w (BitVec.ofNat 64 (func % 64 * 2 ^ 58)) 58 6)) else s)

/-! ### Switch holdings -/

/-- A core has a thread that is not stopped under R317: asked says that a stop of its slice has been requested. A thread that is
parked, or past its end, then counts as stopped. -/
def Core.goesOn (c : Core) (asked : Bool) : Bool :=
  match c.run with
  | .running => !asked || (c.stop.isNone && c.fault.isNone)
  | .ended => !asked
  | _ => false

/-- A thread of a slice runs and is not stopped (R317). -/
def State.sliceRuns (s : State) (sk : Nat) : Bool :=
  (s.slice sk).stop != .stopped && (s.slice sk).stop != .held &&
    (s.sliceCores sk).any fun n => (s.core (skNode sk * 256 + n)).goesOn ((s.slice sk).stop != .running)

/-- FNFREE still waits for accesses that translated through an entry that it is to free (R251, R334), or for room among the requests to a
switch (R281). -/
def State.fnfreeWaits (s : State) (node : Nat) (v : W64) : Bool :=
  let sk := skOf node (v.fld 0 6)
  let f := s.sliceFunc sk
  v.fld 0 6 ≤ 35 && (s.slice sk).bound && !s.sliceRuns sk && f ≠ 0 &&
    (List.range 256).any fun e => !s.satFree node f e && (s.entryUsed sk (s.satEntry node f e) || s.switchFull node ((s.satEntry node f e).spaces.map (·.1)))

/-- FNFREE (R334), where nothing waits. -/
def State.fnfreeWrite (s : State) (node : Nat) (v : W64) : State :=
  let sk := skOf node (v.fld 0 6)
  let out (st : Nat) (s : State) : State := s.setStatus node 0x108 st (BitVec.ofNat 64 (v.fld 0 6))
  if 35 < v.fld 0 6 || !(s.slice sk).bound then out 2 s
  else if s.sliceRuns sk then out 3 s
  else
    let f := s.sliceFunc sk
    if f = 0 then out 0 s
    else
    let s := ((List.range 256).filter fun e => !s.satFree node f e).foldl (fun s e => s.freeEntry node f e) s
    out 0 ((List.range 18).foldl (fun s sw => s.setWord (quotaAddr node f sw) 0) s)

def execFnfree (node : Nat) (v : W64) (s : State) : Out :=
  .next (if s.fnfreeWaits node v then s.wake (.event (.fnfree node v)) else s.fnfreeWrite node v)

/-! ### Teardown (R333) -/

/-- A completion of a slice's function. A slice with FUNC 0 belongs to none, and sends none (R329). -/
def State.tell (s : State) (sk ep seq kind status : Nat) (tag detail : W64) : State :=
  if s.sliceFunc sk = 0 then s else s.complete (skNode sk) (s.sliceFunc sk) ep seq kind status tag detail

def ReqState.final : ReqState → Bool
  | .done => true
  | .cancelled => true
  | .failed => true
  | _ => false

/-- Ends every delivered command, invocation and request of a slice with status FAULT and a cause (R333, R335, log entry 98). Each invocation
whose end is told to the host has its record too (0xDC of Table 20.12), but not where the function's endpoint is gone, as the one record of
package 5 in Table 22.10 shows. -/
def State.endWork (s : State) (sk cause : Nat) : State :=
  let sl := s.slice sk
  let d : W64 := BitVec.ofNat 64 cause
  let cmds : List (Nat × InboxEntry) := if s.sliceFunc sk = 0 then [] else (Tab.getD (s.pkg (skNode sk)).inboxes (s.sliceFunc sk) {}).entries
  let s := (cmds.filter fun e => e.2.delivered).foldl (fun s e => s.tell sk e.2.ep e.2.seq 1 0x0F e.2.tag d) s
  let s := (sl.active ++ sl.waiting).foldl (fun s v =>
    let s := if s.sliceFunc sk = 0 || !s.hasEndpoint (skNode sk) (s.sliceFunc sk) then s else
      s.record (skNode sk) { cause := 0xDC, sev := sevOf 0xDC, func := s.sliceFunc sk, slice := skNum sk, unit := 12, addr := BitVec.ofNat 64 v.slot }
    match v.asker with
    | .host seq tag ep => s.tell sk ep seq 4 0x0F tag d
    | .batch _ => s) s
  sl.reqs.foldl (fun s e => if e.2.state.final then s else s.tell sk e.2.ep e.2.seq 3 0x0F e.2.tag d) s

/-- Tagged requests that wait at a slice's scratchpads are answered with an error response (0x78). -/
def State.refuseWaiters (s : State) (sk : Nat) : State :=
  let mine := (s.sliceCores sk).map fun n => padBase (skNode sk * 256 + n) / 0x400000
  (s.tagQ.filter fun t => (8 * t.word / 0x400000) ∈ mine).foldl (fun s t =>
    if t.gone then { s with tagQ := s.tagQ.filter (· ≠ t) }
    else if (s.core t.core).slice = some sk then s
    else (s.refuse (s.party t.core) (8 * t.word) 0x78).answerTagged t.core (.refused 0x60)) s

/-- Worker cores that run the resident fault handler of a slice end with it, and keep none of its translations (R75, R333). -/
def State.dropHandlers (s : State) (sk : Nat) : State :=
  ((List.range 8).map fun i => skNode sk * 256 + 145 + i).foldl (fun s w =>
    if (s.core w).slice = some sk then ((s.resetRings w).dropTagged w).putCore w { (s.core w).afterThread with tlb := [], tlbOld := [] } else s) s

/-- SLFREE, steps 1 to 4 (R333): the slice takes no further command, its threads end, its work in hand ends, and remote waiters are
answered. -/
def State.slfreeBegin (s : State) (node n : Nat) : State :=
  let sk := skOf node n
  let cores := s.sliceCores sk
  let asked := (s.slice sk).stop != .running
  let halted := (s.slice sk).stop == .stopped || (s.slice sk).stop == .held
  let s := cores.foldl (fun s m =>
    let ck := node * 256 + m
    let s :=
      if !halted && (s.core ck).goesOn asked then s.record node { s.coreRec ck 0xDB 1 with addr := BitVec.ofNat 64 m } else s
    ((s.resetRings ck).dropTagged ck).putCore ck (s.core ck).afterThread) s
  let s := ((s.dropHandlers sk).endWork sk 0xDB).refuseWaiters sk
  let func := s.sliceFunc sk
  let p := s.pkg node
  let mine := match p.stopping with | some x => x.1 == n | none => false
  let s := s.putPkg node { (if func = 0 then p else p.dropInbox func) with
    faults := p.faults.filter fun f => !(f.core % 256 ∈ cores)
    stopping := if mine then none else p.stopping }
  let s := if mine then s.setPcsr node 0x104 ((s.pcsr node 0x104) &&& BitVec.ofNat 64 (2 ^ 63 - 1)) else s
  s.putSlice sk { s.slice sk with
    stop := .ending, fresh := false, kept := false, handler := none, faults := [], late := [], active := [], waiting := [], reqs := [], scheds := [] }

/-- Stores of a slice's threads, or of its handler, are on their way: accesses that used its translations are not performed yet (R140,
R333 step 5). -/
def State.slfreeWaits (s : State) (node n : Nat) : Bool :=
  let sk := skOf node n
  (s.slice sk).stop == .ending && (s.pkg node).outstanding.any fun e => e.2.any fun q =>
    if isFirmware q.core then !q.fw && q.func == s.sliceFunc sk else ckCore q.core ∈ s.sliceCores sk

/-- SLFREE, steps 5 to 7 (R333). -/
def State.slfreeEnd (s : State) (node n : Nat) : State :=
  let sk := skOf node n
  let cores := s.sliceCores sk
  let chans := s.sliceChans sk
  let func := s.sliceFunc sk
  let s := (s.dropTlb sk fun _ => true).wipeCores node cores
  let s := s.wipeChans node chans
  let s := if func = 0 then s else
    ((List.range 256).foldl (fun s e => s.putSat node func e [0, 0, 0, 0]) s).setBytes (satBlock node func + 0x2000) (List.replicate 32 0)
  let s := s.setBytes (ctl node (0x10000 + 64 * n)) (List.replicate 64 0)
  let s := s.putPkg node { s.pkg node with keys := (s.pkg node).keys.del n }
  let s := { s with slices := s.slices.del sk }
  if func = 0 then s else s.kvPeerLost node func

/-- What a write of SLFREE begins: nothing for a slice that is not bound, or that is being torn down already. -/
def State.slfreeStart (s : State) (node : Nat) (v : W64) : State :=
  let sl := s.slice (skOf node (v.fld 0 6))
  if 35 < v.fld 0 6 || !sl.bound || sl.stop == .ending then s else s.slfreeBegin node (v.fld 0 6)

/-- SLFREE (R329, R333), where nothing is waited for. -/
def State.slfreeWrite (s : State) (node : Nat) (v : W64) : State :=
  let n := v.fld 0 6
  let out (st : Nat) (s : State) : State := s.setStatus node 0x107 st (BitVec.ofNat 64 n)
  if 35 < n || !(s.slice (skOf node n)).bound then out 2 s
  else out 0 ((s.slfreeStart node v).slfreeEnd node n)

/-- A turn of a teardown that no core waits for: it stays until what the slice's accesses have under way is performed. -/
def State.slfreeTurn (s : State) (node : Nat) (v : W64) : State :=
  let s := s.slfreeStart node v
  if s.slfreeWaits node (v.fld 0 6) then s.wake (.teardown node v) else s.slfreeWrite node v

/-- SLFREE as an event. -/
def execSlfree (node : Nat) (v : W64) (s : State) : Out := .next (s.slfreeTurn node v)

/-! ### Endpoints (R328) -/

/-- The inbox of a function as a save writes it: an entry in hand returns with REPRISE (R29). -/
def Inbox.saved (b : Inbox) : Inbox :=
  { b with entries := b.entries.mapVals fun e => if e.inhand then { e with inhand := false, reprise := true } else e }

def State.inbox (s : State) (node func : Nat) : Inbox := Tab.getD (s.pkg node).inboxes func {}
def State.setInbox (s : State) (node func : Nat) (b : Inbox) : State :=
  let p := s.pkg node
  s.putPkg node { p with inboxes := p.inboxes.put func b }

/-- Stores bytes line by line as the device's own write; a flag says that every line was acknowledged. -/
def State.saveBytes (s : State) (node a : Nat) (bs : List Byte) : Bool × State :=
  ((List.range ((bs.length + 63) / 64)).foldl (fun (r : Bool × State) i =>
    if !r.1 then r
    else
      let pa := normPa node (a + 64 * i)
      match r.2.storeAt (node * 256 + 144) { pa := pa, left := 64 } ((bs.drop (64 * i)).take 64) with
      | .ok () s => (true, s)
      | .err _ _ s => (false, s)
      | .poison _ s => (false, s)
      | .race _ _ s => (false, s)) (true, s))

def State.saveWords (s : State) (node a : Nat) (ws : List W64) : Bool × State := s.saveBytes node a (ws.flatMap wordBytes)

/-- The inbox section of a slice image: its length stands in word 2 of the image's header, the section at 4 MiB (log entry 21). The flag says
that every store was acknowledged. -/
def State.saveInbox (s : State) (node base : Nat) (b : Inbox) : Bool × State :=
  let bs := Codec.inbox.bytes b.saved
  match s.saveWords node (base + 16) [BitVec.ofNat 64 (bs.length / 8)] with
  | (true, s) => s.saveBytes node (base + 0x400000) bs
  | r => r

/-- EPBIND, OP 1: the inbox section of the last save is written again, as the inbox stands now, and the endpoint is detached. A failed
store of it is a failed copy of the migration (R325), and so is the refusal of a detach while the function's slice is kept for one. -/
def State.detach (s : State) (node : Nat) (v : W64) : State :=
  let func := v.fld 48 6
  let ep := v.fld 0 48
  let out (st : Nat) (s : State) : State := s.setStatus node 0x106 st v
  let slice := (s.sliceOfFunc node func).map s.slice
  if func = 0 || 36 < func || s.funcAt node ep ≠ some func then out 2 (if (slice.map (·.kept)).getD false then s.targetNotReady node else s)
  else
    let (ok, s) := match slice.bind (·.saved) with
      | some base => s.saveInbox node base (s.inbox node func)
      | none => (true, s)
    if !ok then out 2 (s.record node { handleRec 0xD9 (BitVec.ofNat 64 (((slice.bind (·.saved)).getD 0) + 0x400000)) with kind := 3 })
    else
      let p := s.pkg node
      out 0 (s.putPkg node (if (p.endpoints.get? ep).isSome then { p with endpoints := p.endpoints.del ep } else { p with ownGone := p.ownGone.add func }))

/-- EPBIND, OP 2. A function whose slice is newly bound, as a migration's target is, has no endpoint before it is given one: its own stands
in the way only of a slice that has run (log entry 37). A refused attach is recorded: the target of a migration is not ready (R325). -/
def State.attachEp (s : State) (node : Nat) (v : W64) : State :=
  let func := v.fld 48 6
  let ep := v.fld 0 48
  let out (st : Nat) (s : State) : State := s.setStatus node 0x106 st v
  match if func = 0 || 36 < func then none else s.sliceOfFunc node func with
  | none => out 2 (s.targetNotReady node)
  | some sk =>
    if s.boundByEp node func || (s.hasEndpoint node func && !(s.slice sk).fresh) || (s.funcAt node ep).isSome then out 2 (s.targetNotReady node)
    else
      let p := s.pkg node
      let s := s.putPkg node { p with endpoints := p.endpoints.put ep func }
      out 0 (s.putSlice sk { (s.slice sk) with await := true })

/-- EPBIND (R328). -/
def State.epbindWrite (s : State) (node : Nat) (v : W64) : State :=
  match v.fld 54 2 with
  | 1 => s.detach node v
  | 2 => s.attachEp node v
  | _ => s.setStatus node 0x106 ((s.pcsr node 0x106).fld 56 8) v

def execEpbindDetach (node : Nat) (v : W64) (s : State) : Out := .next (if v.fld 54 2 = 1 then s.epbindWrite node v else s)
def execEpbindAttach (node : Nat) (v : W64) (s : State) : Out := .next (if v.fld 54 2 = 2 then s.epbindWrite node v else s)

/-- BOOTSTAT: DONE in [0], FAIL in [15:8]. -/
def State.bootStat (s : State) (node : Nat) : W64 := s.pcsr node 0x183 ^^^ 0xFF00

/-- The boot of a package has failed: it answers the image write alone (R337). -/
def State.bootFailed (s : State) (node : Nat) : Bool := !(s.pkg node).booted && (s.bootStat node).fld 8 8 ≠ 0xFF

/-! ### Keys (R340) and debug unlock (R342) -/

/-- What the Handle reads at a physical address; none for an error response or an uncorrectable error. -/
def State.handleRead (s : State) (node a n : Nat) : Option (List Byte) × State :=
  let pa := normPa node a
  match s.loadAt (node * 256 + 144) { pa := pa, left := n } n with
  | .ok bs s => (some bs, s)
  | .err _ _ s => (none, s)
  | .poison _ s => (none, s)
  | .race _ _ s => (none, s)

/-- No key is loaded into a slot: it is above 36 or holds a key, or the package is RETURNED (R340, R341). -/
def State.keyBarred (s : State) (node slot : Nat) : Bool :=
  36 < slot || ((s.pkg node).keys.get? slot).isSome || (s.pcsr node 0x180).fld 0 2 == 3

/-- The end of a key load through KEYCTL (R340); none where the key could not be read. Says whether the slot took it. -/
def State.keyLoad (s : State) (node slot : Nat) (key : Option (BitVec 512)) : Bool × State :=
  let out (st : Nat) (s : State) : State := s.setStatus node 0x186 st (BitVec.ofNat 64 (64 + slot % 64))
  let refuse : Bool × State := (false, out 2 (s.record node { cause := 0xF7, sev := 2, core := 0xFE, unit := 12, addr := BitVec.ofNat 64 slot }))
  match key with
  | none => refuse
  | some k =>
    if s.keyBarred node slot || k.fld 0 256 = k.fld 256 256 then refuse
    else
      let p := s.pkg node
      (true, out 0 (s.putPkg node { p with keys := p.keys.put slot k }))

/-- KEYCTL. -/
def State.keyctlWrite (s : State) (node : Nat) (v : W64) : State :=
  let slot := v.fld 0 6
  let op := v.fld 6 2
  let p := s.pkg node
  if op = 1 then
    if s.keyBarred node slot then (s.keyLoad node slot none).2
    else
      let (bs, s) := s.handleRead node (s.pcsr node 0x187).toNat 64
      (s.keyLoad node slot (bs.map fun bs => BitVec.ofNat 512 (leNat bs))).2
  else if op = 2 then (s.putPkg node { p with keys := p.keys.del slot }).setStatus node 0x186 0 (BitVec.ofNat 64 (v.fld 0 8))
  else s.setStatus node 0x186 ((s.pcsr node 0x186).fld 56 8) (BitVec.ofNat 64 (v.fld 0 8))

def execKeyctlLoad (node : Nat) (v : W64) (s : State) : Out := .next (if v.fld 6 2 = 1 then s.keyctlWrite node v else s)
def execKeyctlErase (node : Nat) (v : W64) (s : State) : Out := .next (if v.fld 6 2 = 2 then s.keyctlWrite node v else s)

/-- A 64-byte value as bytes. -/
def bytes64 (v : BitVec 512) : List Byte := leBytes 64 v.toNat

/-- Extends a measurement register (R337, R338). -/
def State.extendMr (s : State) (node : Nat) (r : Fin 16) (bs : List Byte) : State :=
  let p := s.pkg node
  s.putPkg node { p with mr := p.mr.set r (Config.sha512 (bytes64 p.mr[r] ++ bs)) }

/-- A new nonce (R342). -/
def State.drawNonce (s : State) (node : Nat) : State :=
  let (v, s) := s.pickW64
  s.setPcsr node 0x188 v

/-- Writes the lifecycle fuse rows, from which LIFECYCLE then reads (R341). -/
def State.setFuse (s : State) (node st : Nat) : State :=
  (s.putPkg node { s.pkg node with fuse := st }).setPcsr node 0x180 (BitVec.ofNat 64 st)

/-- Moves LIFECYCLE, with its record (R341). -/
def State.setLifecycle (s : State) (node st : Nat) : State :=
  (s.setFuse node st).record node (handleRec 0xF5 (BitVec.ofNat 64 st))

/-- DBGCTL. -/
def State.dbgctlWrite (s : State) (node : Nat) (v : W64) : State :=
  let addr := v.fld 0 48
  let word (bs : List Byte) (o : Nat) : W64 := bytesWord (bs.drop o)
  let life := (s.pcsr node 0x180).fld 0 2
  let bound := ((List.range 36).map (skOf node)).any fun sk => (s.slice sk).bound
  let out (st : Nat) (s : State) : State := (s.drawNonce node).setStatus node 0x189 st (BitVec.ofNat 64 addr)
  let refuse (s : State) : State := out 2 (s.record node (handleRec 0xF3 0))
  let (t1, s) := s.handleRead node addr 64
  let (t2, s) := s.handleRead node (addr + 64) 64
  match t1, t2 with
  | some bs, some sig =>
    if bound || !Config.ed25519 Config.debugKey bs (BitVec.ofNat 512 (leNat sig)) ||
        leNat ((bs.drop 8).take 16) ≠ (Config.devId node).toNat || word bs 0x20 ≠ s.pcsr node 0x188 ||
        (word bs 0x18).toNat ≠ life || !(life = 1 || life = 2) then refuse s
    else
      let p := s.pkg node
      let s := s.putPkg node { p with keys := [] }
      let s := s.setFuse node 2
      let s := s.extendMr node 15 (bytes64 (Config.sha512 (bs ++ sig)))
      let s := s.putPkg node { s.pkg node with debugOpen := true }
      out 0 ((s.record node (handleRec 0xF4 0)).record node (handleRec 0xF5 2))
  | _, _ => refuse s

def execDebugUnlock (node : Nat) (v : W64) (s : State) : Out := .next (s.dbgctlWrite node v)

/-! ### The record ring's CSRs (R310, R311) -/

def State.relbaseWrite (s : State) (node : Nat) (v : W64) : State :=
  let s := s.setPcsr node 0x110 (BitVec.ofNat 64 (v.fld 12 44 * 2 ^ 12 + v.fld 0 5))
  let s := (s.setPcsr node 0x111 0).setPcsr node 0x112 0
  s.setPcsr node 0x113 (BitVec.ofNat 64 ((s.pcsr node 0x113).fld 0 1))

/-- A TAIL at or beyond 2^SIZE is ignored. -/
def State.reltailWrite (s : State) (node : Nat) (v : W64) : State :=
  let t := v.fld 0 20
  if 2 ^ (s.pcsr node 0x110).fld 0 5 ≤ t then s else s.setPcsr node 0x112 (BitVec.ofNat 64 t)

def State.relovfWrite (s : State) (node : Nat) (v : W64) : State :=
  let o := s.pcsr node 0x113
  s.setPcsr node 0x113 (BitVec.ofNat 64 (o.fld 16 32 * 2 ^ 16 + (if v.fld 0 1 = 1 then 0 else o.fld 0 1)))

/-- RELHEAD, read with an acquire at package scope. -/
def State.relheadRead (s : State) (ck : Nat) : W64 × State :=
  let c := s.core ck
  (s.pcsr (ckNode ck) 0x111, s.putCore ck c.dropCache)

def execRelbase (node : Nat) (v : W64) (s : State) : Out := .next (s.relbaseWrite node v)
def execReltail (node : Nat) (v : W64) (s : State) : Out := .next (s.reltailWrite node v)
def execRelovf (node : Nat) (v : W64) (s : State) : Out := .next (s.relovfWrite node v)

/-- A read of RELHEAD by a core of the firmware complex into s[d]. -/
def execRelhead (node core : Nat) (d : BitVec 5) (s : State) : Out :=
  let ck := node * 256 + core
  .next (if isFirmware ck then
    let (v, s) := s.relheadRead ck
    s.putCore ck ((s.core ck).setReg d v)
  else s)

/-- RSTKBASE (R124): also sets RSTKPTR. -/
def Core.setRstkBase (c : Core) (v : W64) : Core :=
  let b : W64 := BitVec.ofNat 64 (v.fld 3 19 * 8)
  { c with rstkBase := b, rstkPtr := b }

def execRstkbase (node core : Nat) (v : W64) (s : State) : Out :=
  let ck := node * 256 + core
  .next (s.putCore ck ((s.core ck).setRstkBase v))

/-! ### attest (R338) -/

def execAttest (d a b : BitVec 5) (g : BitVec 3) (s : State) : Out :=
  s.guarded g fun s =>
    let r := (s.reg a).toNat
    let va := s.reg b
    if !isHandle s.cur then s.wordTrap 0x11 (.attest d a b g)
    else if va.toNat % 64 ≠ 0 then s.trap 0x12 va
    else if r < 4 ∨ 14 < r then (s.setReg d 0).finish
    else
      match ofAcc va (s.loadAt s.cur { pa := normPa s.node va.toNat, left := 64 } 64) with
      | .stop s => s
      | .ok bs s =>
        let s := s.setMe (s.me.dropLines (normPa s.node va.toNat) (normPa s.node va.toNat + 64))
        (((s.extendMr s.node (Fin.ofNat 16 r) bs).record s.node (handleRec 0xF2 (BitVec.ofNat 64 r))).setReg d 1).finish

end Sys2Proof.Machine
end

