-- ==== Sys2Proof/Machine/Slots.lean ====
section
/-!
DEFINITION. What the Weaver reads: slot descriptors (R10), node, edge and loop-nest records (R14 to R22), the checks of a
slot load (R12), and the Weaver's own accesses at input addresses.
-/
namespace Sys2Proof.Machine

/-! ### Slots -/

def Slice.model (sl : Slice) (slot : Nat) : ModelSlot := Tab.getD sl.slots slot {}
def ModelSlot.word (m : ModelSlot) (w : Nat) : W64 := m.words.getD w 0
def ModelSlot.nodes (m : ModelSlot) : Nat := (m.word 0).fld 32 12
def ModelSlot.edges (m : ModelSlot) : Nat := (m.word 0).fld 21 11
def ModelSlot.root (m : ModelSlot) : Nat := (m.word 0).fld 44 12
def ModelSlot.image (m : ModelSlot) : Nat := (m.word 1).toNat
def ModelSlot.ilen (m : ModelSlot) : Nat := (m.word 2).fld 32 32
def ModelSlot.hentry (m : ModelSlot) : Nat := (m.word 2).fld 0 32
def ModelSlot.work (m : ModelSlot) : Nat := (m.word 3).toNat
def ModelSlot.etab (m : ModelSlot) : Nat := (m.word 4).toNat
def ModelSlot.condBase (m : ModelSlot) : Nat := (m.word 5).toNat

def SlotState.code : SlotState → Nat
  | .empty => 0
  | .loading => 1
  | .resident => 2
  | .unloading => 3

/-- A list of words at an intermediate address. -/
def State.ipaWords (s : State) (sk ipa n : Nat) : List W64 := (List.range n).map fun i => s.ipaWord sk (ipa + 8 * i)

/-! ### Node and edge records (Tables 2.3, 2.4) -/

/-- A node record. -/
structure NodeRec where
  w : List W64
def NodeRec.word (n : NodeRec) (i : Nat) : W64 := n.w.getD i 0
def NodeRec.kind (n : NodeRec) : Nat := (n.word 0).fld 56 8
def NodeRec.stream (n : NodeRec) : Bool := (n.word 0).fld 48 1 == 1
def NodeRec.next (n : NodeRec) : Nat := (n.word 0).fld 36 12
def NodeRec.alt (n : NodeRec) : Nat := (n.word 0).fld 24 12
def NodeRec.cw (n : NodeRec) : Nat := (n.word 0).fld 16 8
def NodeRec.edge (n : NodeRec) (i : Nat) : Nat := (n.word 1).fld (52 - 12 * i) 12
def NodeRec.opa (n : NodeRec) : W64 := n.word 2
def NodeRec.opb (n : NodeRec) : W64 := n.word 3
/-- "None" in a node or edge field. -/
def noIdx : Nat := 0xFFF

def State.nodeRec (s : State) (sk : Nat) (m : ModelSlot) (n : Nat) : NodeRec := { w := s.ipaWords sk (m.work + 32 * n) 4 }
/-- CAP, PROD, CONS, and whether the reserved bits are zero. -/
def State.edgeRec (s : State) (sk : Nat) (m : ModelSlot) (e : Nat) : Nat × Nat × Nat × Bool :=
  let w := s.ipaWord sk (m.etab + 16 * e)
  (w.fld 48 16, w.fld 36 12, w.fld 24 12, w.fld 0 24 == 0 && s.ipaWord sk (m.etab + 16 * e + 8) == 0)

/-- The successors of a node. -/
def NodeRec.succs (n : NodeRec) : List Nat := [n.next, n.alt].filter (· ≠ noIdx)

/-- Whether a node record alone meets R14 and R15. -/
def NodeRec.ok (n : NodeRec) (nodes edges : Nat) : Bool :=
  let noEdges := n.edge 0 == noIdx && n.edge 1 == noIdx && n.edge 2 == noIdx
  let idxOk (x lim : Nat) : Bool := x == noIdx || x < lim
  (n.word 0).fld 49 7 == 0 && (n.word 0).fld 0 16 == 0 && (n.word 1).fld 0 28 == 0 &&
  idxOk n.next nodes && idxOk n.alt nodes && idxOk (n.edge 0) edges && idxOk (n.edge 1) edges && idxOk (n.edge 2) edges &&
  match n.kind with
  | 1 => n.alt == noIdx && n.cw == 0 && n.opa.toNat % 32 == 0 && n.opb == 0
  | 2 => n.alt == noIdx && n.cw == 0 && !n.stream && noEdges && n.opa.fld 48 8 == 0
  | 3 => !n.stream && noEdges && n.opb.fld 3 61 == 0 && n.opb.fld 0 3 ≤ 5
  | 4 => !n.stream && noEdges && n.opa == 0 && n.opb.fld 32 32 == 0
  | 5 => n.alt == noIdx && n.cw == 0 && !n.stream && noEdges && n.opb.fld 8 56 == 0
  | 6 => n.next == noIdx && n.alt == noIdx && n.cw == 0 && !n.stream && noEdges && n.opa == 0 && n.opb == 0
  | _ => false

/-- Grows a set of nodes by what a relation adds, a number of times. -/
def grow (f : Nat → List Nat) : Nat → NSet → NSet
  | 0, t => t
  | n + 1, t =>
    let u := t.foldl (fun u x => (f x).foldl NSet.add u) t
    if u.length = t.length then t else grow f n u

/-- Takes away, a number of times, the nodes whose successors are all gone: what is left contains a cycle. -/
def peelOff (succs : Nat → List Nat) : Nat → NSet → NSet
  | 0, t => t
  | n + 1, t =>
    let u := t.filter fun x => (succs x).any t.has
    if u.length = t.length then t else peelOff succs n u

/-- The streaming chain of a node, within fuel (R16). -/
def chain (rec : Nat → NodeRec) (n : Nat) : Nat → List Nat
  | 0 => []
  | k + 1 =>
    let r := rec n
    if r.stream && r.next != noIdx then r.next :: chain rec r.next k else []

/-- R14 and R16 over a whole graph. -/
def State.graphOk (s : State) (sk : Nat) (m : ModelSlot) : Bool :=
  let N := m.nodes
  let E := m.edges
  let rec_ := s.nodeRec sk m
  let succs (n : Nat) : List Nat := (rec_ n).succs
  let reach := grow succs N [m.root]
  let noWhile (n : Nat) : List Nat := (succs n).filter fun x => (rec_ x).kind ≠ 4
  let loops := peelOff noWhile N (reach.filter fun n => (rec_ n).kind ≠ 4)
  let ends := grow (fun x => reach.filter fun n => x ∈ succs n) N (reach.filter fun n => (rec_ n).kind == 6)
  ((List.range N).all fun n => (rec_ n).ok N E) && loops.isEmpty && reach.all ends.has &&
  (List.range E).all fun e =>
    let (cap, prod, cons, ok) := s.edgeRec sk m e
    ok && 1 ≤ cap && cap ≤ 4096 && prod < N && cons < N && (rec_ prod).kind == 1 && (rec_ cons).kind == 1 &&
      ((rec_ prod).edge 1 == e || (rec_ prod).edge 2 == e) && (rec_ cons).edge 0 == e && cons ∈ chain rec_ prod N

/-! ### Loop-nest records (Tables 2.5, 2.6) -/

/-- A loop-nest record: its twenty words. -/
structure NestRec where
  w : List W64
def NestRec.word (r : NestRec) (i : Nat) : W64 := r.w.getD i 0
def NestRec.entry (r : NestRec) : Nat := (r.word 0).fld 32 32
def NestRec.cores (r : NestRec) : Nat := (r.word 0).fld 24 8
def NestRec.levels (r : NestRec) : Nat := (r.word 0).fld 21 3
/-- Level at nesting position p, outermost first. -/
def NestRec.levelAt (r : NestRec) (p : Nat) : Nat := (r.word 0).fld (18 - 2 * p) 2
def NestRec.dir (r : NestRec) (n : Nat) : Nat := (r.word 0).fld (4 + 2 * n) 2
def NestRec.bound (r : NestRec) (n : Nat) : Nat := (r.word 1).fld (16 * n) 16
def State.nestRec (s : State) (sk a : Nat) : NestRec := { w := s.ipaWords sk a 20 }

/-- An input-tile declaration. -/
structure TileDecl where
  valid : Bool
  bx : Nat
  skew : Bool
  dest : Nat
  const : Nat
  coef : List Int
  rows : Nat
  rowBytes : Nat
  pitch : Nat

def NestRec.decl (r : NestRec) (d : Nat) : TileDecl :=
  let w (i : Nat) : W64 := r.word (4 + 4 * d + i)
  let c (i lo : Nat) : Int := (BitVec.ofNat 32 ((w i).fld lo 32)).toInt
  { valid := (w 0).fld 59 1 == 1, bx := (w 0).fld 60 4, skew := (w 0).fld 58 1 == 1, dest := (w 0).fld 32 22, const := (w 0).fld 0 32
    coef := [c 1 0, c 1 32, c 2 0, c 2 32], rows := (w 3).fld 48 16, rowBytes := (w 3).fld 32 16, pitch := (w 3).fld 0 32 }

/-- R22 on one declaration. -/
def NestRec.declOk (r : NestRec) (d : Nat) : Bool :=
  let t := r.decl d
  if !t.valid then (List.range 4).all fun i => r.word (4 + 4 * d + i) == 0
  else
    (r.word (4 + 4 * d)).fld 54 4 == 0 && 1 ≤ t.rows && 1 ≤ t.rowBytes && 1 ≤ t.pitch && t.dest % 64 == 0 &&
      t.dest + t.rows * t.rowBytes ≤ padSize && (!t.skew || (t.rowBytes % 64 == 0 && t.rowBytes ≤ 3072))

/-- R20. -/
def NestRec.ok (r : NestRec) (ilen : Nat) : Bool :=
  let L := r.levels
  let used := List.range L
  let unused := (List.range 4).filter (L ≤ ·)
  let span (d : Nat) : Nat × Nat := ((r.decl d).dest, (r.decl d).dest + (r.decl d).rows * (r.decl d).rowBytes)
  let valid := (List.range 4).filter fun d => (r.decl d).valid
  (r.word 0).fld 20 1 == 0 && (r.word 0).fld 0 4 == 0 && r.word 2 == 0 && r.word 3 == 0 && 1 ≤ L && L ≤ 4 &&
  (used.all fun n => r.bound n != 0 && r.dir n != 3) && (unused.all fun n => r.bound n == 0 && r.dir n == 0) &&
  (used.all fun n => (used.map r.levelAt).contains n) && (unused.all fun p => r.levelAt p == 0) &&
  r.entry % 4 == 0 && r.entry < ilen && ((List.range 4).all r.declOk) &&
  valid.all fun d => valid.all fun e => e ≤ d || (span d).2 ≤ (span e).1 || (span e).2 ≤ (span d).1

/-- How many iterations a record without an input edge has. -/
def NestRec.total (r : NestRec) : Nat := (List.range r.levels).foldl (fun t n => t * r.bound n) 1

/-- Level indices of iteration k (R21), level 0 to level 3. -/
def NestRec.indices (r : NestRec) (k : Nat) : List Nat :=
  let L := r.levels
  let inner (p : Nat) : Nat := ((List.range L).filter (p < ·)).foldl (fun t q => t * r.bound (r.levelAt q)) 1
  let at_ (p : Nat) : Nat × Nat :=
    let n := r.levelAt p
    let b := r.bound n
    let i := k / inner p % b
    let pass := k / (inner p * b)
    (n, if r.dir n = 1 || (r.dir n = 2 && pass % 2 = 1) then b - 1 - i else i)
  let l := (List.range L).map at_
  (List.range 4).map fun n => ((l.find? (·.1 == n)).map (·.2)).getD 0

/-- The offset of a declaration's tile, and of its last byte (R22). -/
def TileDecl.range (d : TileDecl) (idx : List Nat) : Int × Int :=
  let off := (List.zip d.coef idx).foldl (fun (t : Int) x => t + x.1 * (x.2 : Int)) (d.const : Int)
  (off, off + ((d.rows - 1) * d.pitch + d.rowBytes - 1 : Nat))

/-! ### A slot load (R12) -/

/-- Loop-nest records that a slot names. -/
def State.slotRecords (s : State) (sk : Nat) (m : ModelSlot) : List Nat :=
  if isGraph m then ((List.range m.nodes).filter fun n => (s.nodeRec sk m n).kind == 1).map fun n => (s.nodeRec sk m n).opa.toNat
  else [m.work]

/-- Whether the page of an intermediate address is present in stage 2, and, if this is asked, lies within the slice (R65). The
permissions of its leaf do not matter (log entry 84), nor do bits of the address above its 48 (log entry 87). -/
def State.pagePresent (s : State) (sk ipa : Nat) (inside : Bool) : Bool :=
  match s.walk2 false (skNode sk) 0 ipa [0, 1, 2, 3] (s.s2root sk) with
  | .ok l _ => !inside || !s.outsideSlice sk (normPa (skNode sk) (dADDR 2 l.d + ipa % l.size)) l.size
  | _ => false

/-- The first page of a range, taken in 64 KiB steps, that is absent, or outside the slice. -/
def State.absentIn (s : State) (sk a : Nat) (inside : Bool) : Nat → Option Nat
  | 0 => none
  | n + 1 => if s.pagePresent sk a inside then s.absentIn sk (a + 65536) inside n else some a

def State.absentRange (s : State) (sk a len : Nat) (inside : Bool) : Option Nat :=
  if len = 0 then none else s.absentIn sk (a / 65536 * 65536) inside ((a + len + 65535) / 65536 - a / 65536)

/-- The pinned pages in the order of R12: the first that is absent, or outside the slice. Loop-nest records go by ascending
address. The edge table of a descriptor with GRAPH = 0 is not looked at, whatever its EDGES (log entry 86). -/
def State.absentPage (s : State) (sk : Nat) (m : ModelSlot) (inside : Bool) : Option Nat :=
  let table := if isGraph m then [(m.work, 32 * m.nodes), (m.etab, 16 * m.edges)] else []
  let fixed := [(m.image, m.ilen), ((m.word 6).toNat, (m.word 7).toNat)] ++ table ++ [(m.condBase, 2048)]
  match fixed.findSome? fun r => s.absentRange sk r.1 r.2 inside with
  | some a => some a
  | none => ((s.slotRecords sk m).foldl NSet.add []).findSome? fun a => s.absentRange sk a 160 inside

/-- The first failed check of a load, with the page of check 6. -/
def State.loadCheck (s : State) (sk slot : Nat) (m : ModelSlot) : Option (Nat × Nat) :=
  let w0 := m.word 0
  let graph := isGraph m
  if w0.fld 56 4 ≠ 0 || w0.fld 0 21 ≠ 0 then some (1, 0)
  else if w0.fld 60 1 = 1 && (slot ≠ 0 || m.ilen ≤ m.hentry) then some (2, 0)
  else if m.image % 65536 ≠ 0 || m.hentry % 4 ≠ 0 || m.work % (if graph then 4096 else 32) ≠ 0 || m.edges > 1024 ||
      (m.edges ≠ 0 && m.etab % 16 ≠ 0) || m.condBase % 2048 ≠ 0 || (m.word 6).toNat % 65536 ≠ 0 ||
      (if graph then m.nodes == 0 || m.nodes ≤ m.root else m.nodes ≠ 0 || m.root ≠ 0) then some (3, 0)
  else match s.absentPage sk m true with
    | some a => some (6, a)
    | none =>
      if !((s.slotRecords sk m).all fun a => (s.nestRec sk a).ok m.ilen) then some (4, 0)
      else if graph && !s.graphOk sk m then some (5, 0)
      else none

/-! ### The Weaver's accesses -/

/-- 4,096 requests of a package are outstanding to some node (R281): the Weaver and the request scheduler wait before they access memory. -/
def State.borderFull (s : State) (node : Nat) : Bool := s.nodes.any fun d => d != node && decide (4096 ≤ s.inFlight node d)

/-- The key under which the Weaver and the request scheduler of a package act. -/
def weaverKey (node : Nat) : Nat := node * 256 + 153

/-- Does something as the Weaver in a slice's translations. -/
def State.asWeaver {α : Type} (s : State) (sk : Nat) (f : State → α × State) : α × State :=
  let ck := weaverKey (skNode sk)
  let (v, t) := f (s.putCore ck { slice := some sk })
  (v, { t with cores := t.cores.del ck })

/-- Why an access of the Weaver failed: the cause, and the input address. -/
abbrev WFault := Nat × Nat

/-- One access that lies in one line. -/
def State.weaverOne {α : Type} (s : State) (sk va : Nat) (k : Kind) (f : State → Page → Acc α) : Except WFault α × State :=
  match s.translateIn (weaverKey (skNode sk)) sk (BitVec.ofNat 64 va) k with
  | .fault x s => (.error (x.cause, va), s)
  | .refused _ _ s => (.error (0x60, va), s)
  | .ok pg s =>
    match f s pg with
    | .ok v s => (.ok v, s)
    | .err _ _ s => (.error (0x60, va), s)
    | .poison _ s => (.error (0x61, va), s)
    | .race c _ s => (.error (c, va), s)

/-- Parts of a range that lie in one 64-byte line each: address and length. -/
def lineParts (va n : Nat) : List (Nat × Nat) :=
  ((List.range ((va + n + 63) / 64 - va / 64)).map fun i => 64 * (va / 64 + i)).map fun a => (max a va, min (a + 64) (va + n) - max a va)

def State.weaverReads (s : State) (sk : Nat) : List (Nat × Nat) → Except WFault (List Byte) × State
  | [] => (.ok [], s)
  | (a, n) :: t =>
    match s.weaverOne sk a .read (fun s pg => s.loadAt (weaverKey (skNode sk)) pg n) with
    | (.error e, s) => (.error e, s)
    | (.ok bs, s) =>
      match s.weaverReads sk t with
      | (.error e, s) => (.error e, s)
      | (.ok cs, s) => (.ok (bs ++ cs), s)

def State.weaverWrites (s : State) (sk : Nat) : List (Nat × Nat) → List Byte → Except WFault Unit × State
  | [], _ => (.ok (), s)
  | (a, n) :: t, bs =>
    match s.weaverOne sk a .write (fun s pg => s.storeAt (weaverKey (skNode sk)) pg (bs.take n)) with
    | (.error e, s) => (.error e, s)
    | (.ok (), s) => s.weaverWrites sk t (bs.drop n)

/-- Reads bytes at an input address of a slice. -/
def State.weaverLoad (s : State) (sk va n : Nat) : Except WFault (List Byte) × State :=
  if n = 0 then (.ok [], s) else s.asWeaver sk fun s => s.weaverReads sk (lineParts va n)

/-- Writes bytes at an input address of a slice. -/
def State.weaverStore (s : State) (sk va : Nat) (bs : List Byte) : Except WFault Unit × State :=
  if bs.isEmpty then (.ok (), s) else s.asWeaver sk fun s => s.weaverWrites sk (lineParts va bs.length) bs

end Sys2Proof.Machine
end

