-- ==== Sys2Proof/Machine/Inbox.lean ====
section
/-!
DEFINITION. The command inbox (R25 to R29), the commands of Table 3.2 with the statuses of Table 3.4 (R10 to R12, R30 to R40),
and take.ib and commit.ib.
-/
namespace Sys2Proof.Machine

/-! ### Requests and invocations -/

/-- The request completion of R35: KIND 3; the request leaves the table. -/
def State.endReqWith (s : State) (sk id status : Nat) (detail : W64) : State :=
  let sl := s.slice sk
  match sl.reqs.get? id with
  | none => s
  | some r => (s.putSlice sk { sl with reqs := sl.reqs.del id }).tell sk r.ep r.seq 3 status r.tag detail

/-- Tokens generated in [31:0], prompt tokens processed in [63:32]. -/
def Request.counts (r : Request) : W64 := BitVec.ofNat 64 (r.processed % 2 ^ 32 * 2 ^ 32 + r.generated % 2 ^ 32)

def State.endReq (s : State) (sk id status : Nat) : State :=
  match (s.slice sk).reqs.get? id with
  | none => s
  | some r => s.endReqWith sk id status r.counts

/-- Ends every request of a slot with a status. -/
def State.endReqs (s : State) (sk slot status : Nat) : State :=
  ((s.slice sk).reqs.filter fun e => e.2.slot == slot).foldl (fun s e => s.endReq sk e.1 status) s

/-- Invocations of a slot that are active or waiting. -/
def Slice.busySlot (sl : Slice) (slot : Nat) : Bool := (sl.active.any (·.slot == slot)) || sl.waiting.any (·.slot == slot)

/-- An unloading slot without active or waiting invocations becomes empty (Table 2.2). -/
def State.tryEmpty (s : State) (sk slot : Nat) : State :=
  let sl := s.slice sk
  if (sl.model slot).state == .unloading && !sl.busySlot slot then s.putSlice sk { sl with slots := sl.slots.del slot } else s

/-- Puts an accepted invocation behind those of its slot (R31). -/
def State.enqueue (s : State) (sk : Nat) (v : Invocation) : State :=
  let sl := s.slice sk
  (s.putSlice sk { sl with waiting := sl.waiting ++ [v], fresh := false }).wake (.event (.invocationStart (skNode sk) (skNum sk) v.slot))

/-! ### The form of payloads (R27) -/

/-- Words that a command defines, and whether the fields within them are legal. R39 names no status for a PACK_REGISTER whose placement or
page count is out of range; BADFORM is the model's choice (log entry 47), as for SCHED_SET and ADMIT. -/
def formOf (op : Nat) (p : List W64) : Nat × Bool :=
  let w (i : Nat) : W64 := p.getD i 0
  match op with
  | 0x01 => (9, (w 0).fld 8 56 == 0)
  | 0x02 => (1, (w 0).fld 8 56 == 0)
  | 0x03 => (1, (w 0).fld 8 56 == 0)
  | 0x10 => (1 + 2 * (w 0).fld 51 5, (w 0).fld 0 51 == 0 && (w 0).fld 51 5 ≤ 16)
  | 0x20 => (2 + 2 * (w 0).fld 37 4, (w 0).fld 41 23 == 0 && (w 0).fld 8 16 != 0 && 1 ≤ (w 0).fld 24 13 && (w 0).fld 24 13 ≤ 4096 &&
      (w 1).toNat % 64 == 0)
  | 0x21 => (5, (w 0).fld 0 29 == 0 && (w 1).fld 0 32 != 0 && (w 1).fld 32 32 != 0)
  | 0x22 => (1, (w 0).fld 12 52 == 0)
  | 0x30 => (3, (w 0).fld 12 20 == 0 && (w 0).fld 10 2 != 3 && (w 2).fld 32 32 == 0 && 1 ≤ (w 2).fld 0 32 && (w 2).fld 0 32 ≤ 65536)
  | 0x31 => (1, (w 0).fld 10 54 == 0)
  | _ => (0, true)

def formOk (op : Nat) (p : List W64) : Bool :=
  let (n, ok) := formOf op p
  n ≤ p.length && ok && (p.drop n).all (· == 0)

/-- Base and length pairs from a word on. -/
def pairsFrom (p : List W64) (i n : Nat) : List (W64 × W64) := (List.range n).map fun k => (p.getD (i + 2 * k) 0, p.getD (i + 2 * k + 1) 0)

/-- What a command comes to: a status, its DETAIL, and the state. -/
structure Done where
  status : Nat
  detail : W64 := 0
  state : State
  /-- the command is not done: it is carried on later, and nothing is committed yet -/
  again : Bool := false

/-! ### INVOKE, ADMIT, CANCEL -/

/-- Check 2 of Table 3.3. -/
def State.sliceReady (s : State) (sk : Nat) : Bool :=
  let r := (s.pkg (skNode sk)).ready
  ((List.range 8).all fun k => (s.sliceChans sk) / 2 ^ (32 * k) % 2 ^ 32 == 0 || r.fld k 1 == 1) &&
  (List.range 4).all fun d => (s.sliceQuads sk) / 2 ^ (9 * d) % 2 ^ 9 == 0 || r.fld (40 + d) 1 == 1

def Slice.scheduled (sl : Slice) (slot : Nat) : Bool := match sl.scheds.get? slot with | some x => !x.removed | none => false

/-- INVOKE (R30, R31). -/
def State.invokeCmd (s : State) (sk : Nat) (e : InboxEntry) : Done :=
  let w := e.payload.headD 0
  let slot := w.fld 56 8
  let sl := s.slice sk
  let m := sl.model slot
  if !formOk 0x10 e.payload then { status := 2, state := s }
  else if !s.sliceReady sk then { status := 3, state := s }
  else if m.state != .resident then { status := 4, state := s }
  else match s.absentPage sk m false with
    | some a => { status := 4, detail := BitVec.ofNat 64 a, state := s }
    | none =>
      if sl.scheduled slot then { status := 5, state := s }
      else if 16 ≤ (sl.waiting.filter (·.slot == slot)).length then { status := 6, state := s }
      else
        let v : Invocation := {
          slot := slot, asker := .host e.seq e.tag e.ep, bx := pairsFrom e.payload 1 (w.fld 51 5), order := 0 }
        { status := 0, state := s.enqueue sk v }

/-- ADMIT (R34, R40). The placement of a pack that is not in this package's HBM needs the fabric (R44, R345). -/
def State.admitCmd (s : State) (sk : Nat) (e : InboxEntry) : Done :=
  let w (i : Nat) : W64 := e.payload.getD i 0
  let id := (w 0).fld 52 12
  let slot := (w 0).fld 44 8
  let use := (w 0).fld 29 1 == 1
  let pk := (w 0).fld 30 10
  let sl := s.slice sk
  if !formOk 0x21 e.payload then { status := 2, state := s }
  else if (sl.reqs.get? id).isSome then { status := 0x0A, state := s }
  else if !sl.scheduled slot then { status := 5, state := s }
  else
    let pack := if use then sl.packs.get? pk else none
    if use && pack.isNone then { status := 0x0C, state := s }
    else if (match pack with | some p => p.place ≠ 0 && (s.fabricBarred sk || (s.pkg (skNode sk)).ready.fld 18 18 == 0) | none => false) then { status := 3, state := s }
    else
      let r : Request := {
        slot := slot, prio := (w 0).fld 40 4, pack := if use then some pk else none, prompt := (w 1).fld 0 32, maxNew := (w 1).fld 32 32
        inbuf := w 2, outbuf := w 3, kvlist := w 4, state := if use then .fetch else .ready, order := sl.admitted, processed := 0
        generated := 0, pos0 := (pack.map (·.tokens)).getD 0, cancel := false, seq := e.seq, tag := e.tag, ep := e.ep
        packInfo := pack.map fun p => (p.place, p.list, p.pages) }
      let s := s.putSlice sk { sl with reqs := sl.reqs.put id r, admitted := sl.admitted + 1 }
      { status := 0
        state := if use then s.wake (.event (.packPlacementDone (skNode sk) (skNum sk) id)) else s.wake (.event (.schedBoundary (skNode sk) (skNum sk) slot)) }

/-- CANCEL (R38): the state after the command, and whether the request ends at once. -/
def State.cancelCmd (s : State) (sk : Nat) (e : InboxEntry) : Done :=
  let id := (e.payload.headD 0).fld 0 12
  let sl := s.slice sk
  if !formOk 0x22 e.payload then { status := 2, state := s }
  else match sl.reqs.get? id with
    | none => { status := 0x0B, state := s }
    | some r =>
      match r.state with
      | .running =>
        let s := s.putSlice sk { sl with reqs := sl.reqs.put id { r with cancel := true } }
        { status := 0, state := s.wake (.event (.schedBoundary (skNode sk) (skNum sk) r.slot)) }
      | _ => { status := 0, state := s.endReq sk id 0x0E }

/-! ### Firmware commands -/

/-- SLOT_LOAD (R11, R12). The first part stores the descriptor, and the slot is loading; the second runs the checks, and the slot
is resident or empty again. Commands of a function run one at a time (R27), so a slot that is loading is this command's. -/
def State.slotLoadCmd (s : State) (sk : Nat) (e : InboxEntry) : Done :=
  let slot := (e.payload.headD 0).fld 0 8
  let sl := s.slice sk
  let m := sl.model slot
  if !formOk 0x01 e.payload then { status := 2, state := s }
  else match m.state with
    | .empty =>
      let ws := (e.payload.drop 1).take 8
      let m : ModelSlot := { words := BitVec.ofNat 64 ((ws.headD 0).fld 0 62) :: ws.tail, state := .loading, pinned := true }
      { status := 0, state := s.putSlice sk { sl with slots := sl.slots.put slot m }, again := true }
    | .loading =>
      match s.loadCheck sk slot m with
      | some (n, a) =>
        { status := 8, detail := BitVec.ofNat 64 ((if n = 6 then a / 65536 * 65536 else 0) + n)
          state := s.putSlice sk { sl with slots := sl.slots.del slot } }
      | none =>
        let s := s.putSlice sk { sl with slots := sl.slots.put slot { m with state := .resident } }
        { status := 0, state := if slot = 0 then s.askHandler sk else s }
    | _ => { status := 7, state := s }

/-- SLOT_UNLOAD (R11, R38). -/
def State.slotUnloadCmd (s : State) (sk : Nat) (e : InboxEntry) : Done :=
  let slot := (e.payload.headD 0).fld 0 8
  let sl := s.slice sk
  let m := sl.model slot
  if !formOk 0x02 e.payload then { status := 2, state := s }
  else if m.state != .resident then { status := 7, state := s }
  else
    let s := s.putSlice sk { sl with slots := sl.slots.put slot { m with state := .unloading } }
    let s :=
      match sl.scheds.get? slot with
      | none => s
      | some x =>
        if sl.reqs.any fun r => r.2.slot == slot && r.2.state == ReqState.running then
          (s.putSlice sk { s.slice sk with scheds := sl.scheds.put slot { x with removed := true } }).wake
            (.event (.schedBoundary (skNode sk) (skNum sk) slot))
        else (s.putSlice sk { s.slice sk with scheds := sl.scheds.del slot }).endReqs sk slot 0x11
    { status := 0, state := s.tryEmpty sk slot }

/-- SLOT_QUERY (R11). -/
def State.slotQueryCmd (s : State) (sk : Nat) (e : InboxEntry) : Done :=
  if !formOk 0x03 e.payload then { status := 2, state := s }
  else { status := 0, detail := BitVec.ofNat 64 ((s.slice sk).model ((e.payload.headD 0).fld 0 8)).state.code, state := s }

/-- SCHED_SET (R33). A slot that was unloaded and loaded again is first taken off the scheduler by the boundary that is due. -/
def State.schedSetCmd (s : State) (sk : Nat) (e : InboxEntry) : Done :=
  let w := e.payload.headD 0
  let slot := w.fld 0 8
  let sl := s.slice sk
  let table := e.payload.getD 1 0
  let bufs := pairsFrom e.payload 2 (w.fld 37 4)
  let budget := w.fld 8 16
  let batch := w.fld 24 13
  if !formOk 0x20 e.payload then { status := 2, state := s }
  else if (sl.model slot).state != .resident then { status := 7, state := s }
  else match sl.scheds.get? slot with
    | some x =>
      if x.removed then { status := 0, state := s.wake (.event (.schedBoundary (skNode sk) (skNum sk) slot)), again := true }
      else { status := 0, state := s.putSlice sk { sl with scheds := sl.scheds.put slot { x with next := some (budget, batch, table, bufs) } } }
    | none =>
      if 8 ≤ (sl.scheds.filter fun x => !x.2.removed).length then { status := 9, state := s }
      else { status := 0, state := s.putSlice sk { sl with scheds := sl.scheds.put slot { budget := budget, maxBatch := batch, table := table, bufs := bufs } } }

/-- PACK_REGISTER and PACK_DROP (R39). -/
def State.packRegisterCmd (s : State) (sk : Nat) (e : InboxEntry) : Done :=
  let w (i : Nat) : W64 := e.payload.getD i 0
  let sl := s.slice sk
  if !formOk 0x30 e.payload then { status := 2, state := s }
  else
    let p : Pack := { place := (w 0).fld 10 2, tokens := (w 0).fld 32 32, list := w 1, pages := (w 2).fld 0 32 }
    { status := 0, state := s.putSlice sk { sl with packs := sl.packs.put ((w 0).fld 0 10) p } }

/-- PACK_DROP (R39); of an id that is not registered it answers OK (log entry 89). -/
def State.packDropCmd (s : State) (sk : Nat) (e : InboxEntry) : Done :=
  let sl := s.slice sk
  if !formOk 0x31 e.payload then { status := 2, state := s }
  else { status := 0, state := s.putSlice sk { sl with packs := sl.packs.del ((e.payload.headD 0).fld 0 10) } }

/-! ### The inbox -/

def firmwareOp (op : Nat) : Bool := op ∈ [0x01, 0x02, 0x03, 0x20, 0x30, 0x31]
def hardwareOp (op : Nat) : Bool := op ∈ [0x10, 0x21, 0x22]

/-- Difference modulo 2^32. -/
def seqDiff (a b : Nat) : Nat := (a + 2 ^ 32 - b % 2 ^ 32) % 2 ^ 32

/-- Delivers the stored commands that come next in sequence (R26). -/
def Inbox.deliver (b : Inbox) : Nat → Inbox
  | 0 => b
  | n + 1 =>
    match b.entries.get? (b.next % 256) with
    | some e =>
      if e.seq = b.next && !e.delivered then
        ({ b with entries := b.entries.put (b.next % 256) { e with delivered := true }, next := (b.next + 1) % 2 ^ 32 } : Inbox).deliver n
      else b
    | none => b

/-- The oldest delivered command that is not committed: the eligible one (R27). -/
def Inbox.eligible (b : Inbox) : Option (Nat × InboxEntry) :=
  (b.entries.filter fun e => e.2.delivered).foldl (fun best e =>
    match best with
    | none => some e
    | some x => if seqDiff b.next x.2.seq < seqDiff b.next e.2.seq then some e else some x) none

def Inbox.remove (b : Inbox) (i : Nat) : Inbox := { b with entries := b.entries.del i }

/-- Commits an entry: its KIND 1 completion is sent and it is freed. -/
def State.commitEntry (s : State) (node func i : Nat) (e : InboxEntry) (status : Nat) (detail : W64) : State :=
  let s := s.complete node func e.ep e.seq 1 status e.tag detail
  let s := s.setInbox node func ((s.inbox node func).remove i)
  let p := s.pkg node
  s.putPkg node { p with taken := p.taken.filter fun t => t.2.2 ≠ func * 256 + i }

/-- The slice of a function is held (R324), or stopped and saved (R326): its inbox delivers nothing. -/
def State.inboxHeld (s : State) (node func : Nat) : Bool :=
  match s.sliceOfFunc node func with
  | some sk => (s.slice sk).stop == .held || (s.slice sk).kept
  | none => false

/-- A command of the hardware class. -/
def State.hardwareCmd (s : State) (sk : Nat) (e : InboxEntry) : Done :=
  if e.op = 0x10 then s.invokeCmd sk e else if e.op = 0x21 then s.admitCmd sk e else s.cancelCmd sk e

/-- What the inbox itself answers to an eligible command; none for a command that firmware takes. -/
def State.inboxAnswer (s : State) (node func : Nat) (e : InboxEntry) : Option Done :=
  if !e.wellFormed then some { status := 2, state := s }
  else if func = 0 || !(firmwareOp e.op || hardwareOp e.op) then some { status := 1, state := s }
  else if hardwareOp e.op then (s.sliceOfFunc node func).map fun sk => s.hardwareCmd sk e
  else none

/-- Executes eligible commands, one at a time, until one waits for firmware. -/
def State.serve (s : State) (node func : Nat) : Nat → State
  | 0 => s
  | n + 1 =>
    match (s.inbox node func).eligible with
    | none => s
    | some (i, e) =>
      match s.inboxAnswer node func e with
      | some d => (d.state.commitEntry node func i e d.status d.detail).serve node func n
      | none => s

/-- Delivers and serves what a function's inbox holds, unless its slice is held. -/
def State.runInbox (s : State) (node func : Nat) : State :=
  if s.inboxHeld node func then s
  else (s.setInbox node func ((s.inbox node func).deliver 256)).serve node func 512

/-- The entry's bytes in the control region (R28). -/
def entryPlace (node func i : Nat) : Nat := ctl node (0x1000000 + (func * 256 + i) * 512)
def State.entryBytes (s : State) (node func i : Nat) (e : InboxEntry) : State :=
  s.setBytes (entryPlace node func i) ((e.hdr :: e.tag :: e.payload.take 62).flatMap wordBytes)

/-- R26 for a message with a usable sequence number. -/
def State.arrive (s : State) (node func : Nat) (e : InboxEntry) : State :=
  let b := s.inbox node func
  let d := seqDiff e.seq b.next
  if d < 256 then
    match b.entries.get? (e.seq % 256) with
    | some _ => s
    | none =>
      let s := s.entryBytes node func (e.seq % 256) e
      (s.setInbox node func { b with entries := b.entries.put (e.seq % 256) e }).runInbox node func
  else if 2 ^ 31 ≤ d then
    match b.sent.find? (·.1 == e.seq) with
    | some m => { s with out := s.out ++ [m.2] }
    | none => s
  else s

/-- A message for a function that takes none here (R27, R326). -/
def State.dropMessage (s : State) (node func : Nat) : State :=
  s.record node { cause := 0xF9, sev := sevOf 0xF9, func := func, unit := 14, addr := BitVec.ofNat 64 func }

/-- COMMAND_MESSAGE (R25, R26, R326, R333): ep is the endpoint that received the message, host the one that sent it, bytes its length. -/
def execCommandMessage (node func ep host seq op len resv bytes : Nat) (tag : BitVec 64) (payload : List (BitVec 64)) (s : State) : Out :=
  let hdr : W64 := BitVec.ofNat 64 (seq % 2 ^ 32 * 2 ^ 32 + op % 256 * 2 ^ 24 + len % 256 * 2 ^ 16 + resv % 65536)
  let e : InboxEntry := {
    seq := seq % 2 ^ 32, op := op % 256, tag := tag, ep := host, hdr := hdr, payload := payload.take 62
    wellFormed := len % 256 ≤ 62 && len % 256 * 8 + 16 == bytes && resv % 65536 == 0 && payload.length == len % 256 }
  .next (
    if bytes < 16 || 36 < func || s.bootFailed node then s
    else if func = 0 then s.arrive node func e
    else
      match s.sliceOfFunc node func with
      | none => s.dropMessage node func
      | some sk =>
        if (s.slice sk).stop == .ending || s.funcAt node ep ≠ some func then s.dropMessage node func
        else if (s.slice sk).await then s
        else s.arrive node func e)

/-! ### Commands as events -/

/-- Carries out the eligible command of an entry, if it is of this operation, and commits it; one that is not done goes on with the
next event of its kind. -/
def State.fwCommand (s : State) (node func idx op : Nat) (f : State → Nat → InboxEntry → Done) : State :=
  match (s.inbox node func).eligible, s.sliceOfFunc node func with
  | some (i, e), some sk =>
    if i = idx && e.op = op && e.wellFormed && !s.inboxHeld node func then
      let d := f s sk e
      if d.again then d.state
      else (d.state.commitEntry node func i e d.status d.detail).runInbox node func
    else s
  | _, _ => s

def execSlotLoad (node func idx : Nat) (s : State) : Out := .next (s.fwCommand node func idx 0x01 State.slotLoadCmd)
def execSlotUnload (node func idx : Nat) (s : State) : Out := .next (s.fwCommand node func idx 0x02 State.slotUnloadCmd)
def execSlotQuery (node func idx : Nat) (s : State) : Out := .next (s.fwCommand node func idx 0x03 State.slotQueryCmd)
def execInvoke (node func idx : Nat) (s : State) : Out := .next (s.fwCommand node func idx 0x10 State.invokeCmd)
def execSchedSet (node func idx : Nat) (s : State) : Out := .next (s.fwCommand node func idx 0x20 State.schedSetCmd)
def execAdmitRequest (node func idx : Nat) (s : State) : Out := .next (s.fwCommand node func idx 0x21 State.admitCmd)
def execCancel (node func idx : Nat) (s : State) : Out := .next (s.fwCommand node func idx 0x22 State.cancelCmd)
def execPackRegister (node func idx : Nat) (s : State) : Out := .next (s.fwCommand node func idx 0x30 State.packRegisterCmd)
def execPackDrop (node func idx : Nat) (s : State) : Out := .next (s.fwCommand node func idx 0x31 State.packDropCmd)

/-! ### take.ib and commit.ib (R28) -/

/-- take.ib: the word it answers, and the state in which the entry is in hand. -/
def State.takeEntry (s : State) (node f : Nat) : W64 × State :=
  let b := s.inbox node f
  match b.eligible with
  | some (i, e) =>
    if 36 < f || !firmwareOp e.op || !e.wellFormed || f = 0 || e.inhand then (0, s)
    else
      let s := s.setInbox node f { b with entries := b.entries.put i { e with inhand := true } }
      let p := s.pkg node
      let s := if isHandle s.cur then s else s.putPkg node { p with taken := p.taken ++ [(ckCore s.cur, s.clock, f * 256 + i)] }
      (BitVec.ofNat 64 (2 ^ 63 + (if e.reprise then 2 ^ 62 else 0) + e.seq * 65536 + f * 256 + e.seq % 256), s)
  | none => (0, s)

def execTakeIb (d a : BitVec 5) (g : BitVec 3) (s : State) : Out :=
  s.guarded g fun s =>
    if !s.asFirmware then s.wordTrap 0x11 (.takeIb d a g)
    else
      let (v, s) := s.takeEntry s.node ((s.reg a).fld 0 6)
      (s.setReg d v).finish

/-- commit.ib. -/
def State.commitHand (s : State) (node f i : Nat) (v : W64) : Bool × State :=
  match (s.inbox node f).entries.get? i with
  | some e =>
    if 36 < f || !e.inhand then (false, s)
    else (true, (s.commitEntry node f i e (v.fld 0 8) (BitVec.ofNat 64 (v.toNat / 256))).runInbox node f)
  | none => (false, s)

def execCommitIb (d a b : BitVec 5) (g : BitVec 3) (s : State) : Out :=
  s.guarded g fun s =>
    if !s.asFirmware then s.wordTrap 0x11 (.commitIb d a b g)
    else
      let (ok, s) := s.commitHand s.node ((s.reg a).fld 8 6) ((s.reg a).fld 0 8) (s.reg b)
      (s.setReg d (if ok then 1 else 0)).finish

end Sys2Proof.Machine
end

