-- ==== Sys2Proof/Machine/Sched.lean ====
section
/-!
DEFINITION. The request scheduler (R33 to R38) and the placement of context packs (R39, R40).
-/
namespace Sys2Proof.Machine

/-! ### Context packs -/

/-- Copies the pages that two lists of addresses name, page by page; a page has 64 KiB, and the entries of the lists are input addresses of
the slice, of 8 bytes each (PRESUMED, log entry 20). -/
def State.copyPages (s : State) (sk : Nat) (list kvlist : Nat) : Nat → Nat → Except WFault Unit × State
  | _, 0 => (.ok (), s)
  | i, n + 1 =>
    match s.weaverLoad sk (list + 8 * i) 8 with
    | (.error e, s) => (.error e, s)
    | (.ok a, s) =>
      match s.weaverLoad sk (kvlist + 8 * i) 8 with
      | (.error e, s) => (.error e, s)
      | (.ok b, s) =>
        match s.weaverLoad sk (leNat a) 65536 with
        | (.error e, s) => (.error e, s)
        | (.ok bs, s) =>
          match s.weaverStore sk (leNat b) bs with
          | (.error e, s) => (.error e, s)
          | (.ok (), s) => s.copyPages sk list kvlist (i + 1) n

/-- The placement of a request's pack (R40). The lists stand at input addresses of the slice, and so do the pages that they name (PRESUMED, log
entry 20). -/
def State.placePack (s : State) (sk : Nat) (r : Request) : Except WFault Unit × State :=
  match r.packInfo with
  | none => (.ok (), s)
  | some (place, list, pages) =>
    if place = 0 then
      match s.weaverLoad sk list.toNat (8 * pages) with
      | (.error e, s) => (.error e, s)
      | (.ok bs, s) => s.weaverStore sk r.kvlist.toNat bs
    else s.copyPages sk list.toNat r.kvlist.toNat 0 pages

/-- PACK_PLACEMENT_DONE. -/
def execPackPlacementDone (node slice req : Nat) (s : State) : Out :=
  let sk := skOf node slice
  .next (match (s.slice sk).reqs.get? req with
    | none => s
    | some r =>
      if r.state != .fetch || (s.slice sk).stop != .running then s
      else if s.borderFull node then s.wake (.event (.packPlacementDone node slice req))
      else match s.placePack sk r with
        | (.error e, s) => s.endReqWith sk req 0x0D (BitVec.ofNat 64 e.2)
        | (.ok (), s) =>
          let sl := s.slice sk
          (s.putSlice sk { sl with reqs := sl.reqs.put req { r with state := .ready } }).wake (.event (.schedBoundary node slice r.slot)))

/-! ### The iteration boundary -/

/-- R37 on one request: its counts, and the status with which it ends, if it does. -/
def Request.apply (r : Request) (ntok result emit : Nat) : Request × Option Nat :=
  let e := min emit ntok
  let processed := if r.processed < r.prompt then r.processed + (ntok - e) else r.processed
  let gain := if r.prompt ≤ processed then e else 0
  let room := r.maxNew - r.generated
  let q := { r with processed := processed, generated := r.generated + min gain room }
  (q,
    if ntok < emit || room < gain then some 0x10
    else if result = 1 || q.generated = q.maxNew then some 0x00
    else if result = 0 then none
    else some 0x10)

/-- Applies the results of one batch entry, read with an acquire at package scope. -/
def State.applyEntry (s : State) (sk table j id ntok : Nat) : State :=
  match (s.slice sk).reqs.get? id with
  | none => s
  | some r =>
    match s.weaverLoad sk (table + 64 + 64 * j + 40) 8 with
    | (.error e, s) => s.endReqWith sk id 0x0F (BitVec.ofNat 64 e.1)
    | (.ok bs, s) =>
      let w := bytesWord bs
      let (q, st) := r.apply ntok (w.fld 0 8) (w.fld 32 32)
      let sl := s.slice sk
      let s := s.putSlice sk { sl with reqs := sl.reqs.put id q }
      match st with
      | some c => s.endReq sk id c
      | none => s

/-- Applies the batch that retired. -/
def State.applyBatch (s : State) (sk slot : Nat) (x : Sched) : State :=
  match x.retired with
  | none => s
  | some (ids, fault) =>
    let s := s.putSlice sk { s.slice sk with scheds := (s.slice sk).scheds.put slot { x with retired := none } }
    (ids.zipIdx).foldl (fun s e =>
      match fault with
      | some c => s.endReqWith sk e.1.1 0x0F (BitVec.ofNat 64 c)
      | none => s.applyEntry sk x.table.toNat e.2 e.1.1 e.1.2) s

/-- Inserts by a key, behind equal keys. -/
def insertBy {α : Type} (key : α → Nat) (x : α) : List α → List α
  | [] => [x]
  | y :: t => if key x < key y then x :: y :: t else y :: insertBy key x t
def sortBy {α : Type} (key : α → Nat) (l : List α) : List α := l.foldl (fun t x => insertBy key x t) []

/-- Takes tokens for requests in order, until the budget or the room of the batch is exhausted. -/
def fillBatch : List (Nat × Request) → Nat → Nat → List (Nat × Request × Nat)
  | [], _, _ => []
  | (id, r) :: t, budget, room =>
    if budget = 0 || room = 0 then []
    else
      let n := if r.prompt ≤ r.processed then 1 else min (r.prompt - r.processed) budget
      (id, r, n) :: fillBatch t (budget - n) (room - 1)

/-- The batch of a slot (R36 step 2). -/
def Slice.batch (sl : Slice) (slot : Nat) (x : Sched) : List (Nat × Request × Nat) :=
  let live := sl.reqs.filter fun e => e.2.slot == slot && (e.2.state == ReqState.running || e.2.state == ReqState.ready)
  let old := live.filter fun e => e.2.state == ReqState.running && e.2.prompt ≤ e.2.processed
  let rest := live.filter fun e => !(e.2.state == ReqState.running && e.2.prompt ≤ e.2.processed)
  fillBatch (sortBy (fun e => e.2.order) old ++ sortBy (fun e => e.2.prio * 2 ^ 64 + e.2.order) rest) x.budget x.maxBatch

/-- The words of a batch table (Table 3.7). -/
def batchTable (iter : Nat) (b : List (Nat × Request × Nat)) : List W64 :=
  [BitVec.ofNat 64 (b.length * 2 ^ 48 + iter % 2 ^ 32), 0, 0, 0, 0, 0, 0, 0] ++ b.flatMap fun (id, r, n) =>
    [BitVec.ofNat 64 (id * 2 ^ 52), BitVec.ofNat 64 (n * 2 ^ 32 + (r.pos0 + r.processed + r.generated) % 2 ^ 32), r.inbuf, r.outbuf,
      r.kvlist, 0, 0, 0]

/-- Forms a batch, writes its table and invokes the slot (R36 steps 2 to 4). -/
def State.startBatch (s : State) (sk slot : Nat) (x : Sched) : State :=
  let b := (s.slice sk).batch slot x
  if b.isEmpty then s
  else match s.weaverStore sk x.table.toNat ((batchTable x.iter b).flatMap wordBytes) with
    | (.error e, s) =>
      (b.foldl (fun s r => s.endReqWith sk r.1 0x0F (BitVec.ofNat 64 e.1)) s).wake (.event (.schedBoundary (skNode sk) (skNum sk) slot))
    | (.ok (), s) =>
      let sl := s.slice sk
      let reqs := b.foldl (fun t e => Tab.put t e.1 { e.2.1 with state := .running }) sl.reqs
      let s := s.putSlice sk { sl with reqs := reqs, scheds := sl.scheds.put slot { x with iter := x.iter + 1 } }
      s.enqueue sk {
        slot := slot, asker := .batch (b.map fun e => (e.1, e.2.2))
        bx := (x.table, BitVec.ofNat 64 (64 + 64 * b.length)) :: x.bufs, order := 0 }

/-- Parameters that a later SCHED_SET gave take effect (R33). -/
def Sched.renew (x : Sched) : Sched :=
  match x.next with
  | none => x
  | some (budget, batch, table, bufs) => { x with budget := budget, maxBatch := batch, table := table, bufs := bufs, next := none }

/-- An iteration boundary of a scheduled slot (R36, R38). -/
def State.boundary (s : State) (sk slot : Nat) : State :=
  match (s.slice sk).scheds.get? slot with
  | none => s
  | some x =>
    if (s.slice sk).busySlot slot || (s.slice sk).stop != .running then s
    else if s.borderFull (skNode sk) then s.wake (.event (.schedBoundary (skNode sk) (skNum sk) slot))
    else
      let s := s.applyBatch sk slot x
      let s := ((s.slice sk).reqs.filter fun e => e.2.slot == slot && e.2.cancel).foldl (fun s e => s.endReq sk e.1 0x0E) s
      if x.removed then
        let s := s.endReqs sk slot 0x11
        (s.putSlice sk { s.slice sk with scheds := (s.slice sk).scheds.del slot }).tryEmpty sk slot
      else
        let y := ({ x with retired := none } : Sched).renew
        (s.putSlice sk { s.slice sk with scheds := (s.slice sk).scheds.put slot y }).startBatch sk slot y

/-- SCHED_BOUNDARY. -/
def execSchedBoundary (node slice slot : Nat) (s : State) : Out := .next (s.boundary (skOf node slice) slot)

end Sys2Proof.Machine
end

