-- ==== Sys2Proof/Machine/Weaver.lean ====
section
/-!
DEFINITION. The Weaver: invocations (R31, R331), task graphs (R13 to R19), iterations and their staging (R21, R22, R46 to
R48), the ends of threads (R330), the resident fault handler (R75), the watchdog (R249). Every event tests whether its
condition holds, and changes nothing where it does not.
-/
namespace Sys2Proof.Machine

/-! ### Graphs -/

/-- An invocation of a slot with the records that it runs. A slot without a graph runs one record, kept as node 0. -/
structure Work where
  m : ModelSlot
  v : Invocation

def State.work (s : State) (sk slot : Nat) : Option Work :=
  ((s.slice sk).inv slot).map fun v => { m := (s.slice sk).model slot, v := v }

/-- The node record of a node; a single loop-nest record acts as a KERNEL node. -/
def State.recOf (s : State) (sk : Nat) (m : ModelSlot) (n : Nat) : NodeRec :=
  if isGraph m then s.nodeRec sk m n else { w := [BitVec.ofNat 64 (2 ^ 56 + 0xFFFFFF * 2 ^ 24), BitVec.ofNat 64 (2 ^ 64 - 2 ^ 28), m.word 3, 0] }

def NodeRec.inEdge (r : NodeRec) : Option Nat := if r.edge 0 = noIdx then none else some (r.edge 0)
def NodeRec.outs (r : NodeRec) : List Nat := [r.edge 1, r.edge 2].filter (· ≠ noIdx)

def Invocation.node (v : Invocation) (n : Nat) : NodeRun := Tab.getD v.nodes n {}
def Invocation.setNode (v : Invocation) (n : Nat) (x : NodeRun) : Invocation := { v with nodes := v.nodes.put n x }
def Invocation.edge (v : Invocation) (e : Nat) : EdgeRun := Tab.getD v.edges e {}
def Invocation.setEdge (v : Invocation) (e : Nat) (x : EdgeRun) : Invocation := { v with edges := v.edges.put e x }

/-- Whether a node belongs to the body of a WHILE node: reached from its NEXT without passing it, and leading back to it. -/
def State.inBody (s : State) (sk : Nat) (m : ModelSlot) (w n : Nat) : Bool :=
  let succs (x : Nat) : List Nat := if x = w then [] else (s.recOf sk m x).succs
  (grow succs m.nodes [(s.recOf sk m w).next]).has n && (grow succs m.nodes [n]).has w

/-- Activates a node (R17), reached from another; a KERNEL with STREAM activates its NEXT in the same step. A WHILE reached
from outside its body starts at trip 0 (R15). -/
def State.activate (s : State) (sk : Nat) (m : ModelSlot) (v : Invocation) (from_ : Option Nat) (n : Nat) : Nat → Invocation
  | 0 => v
  | fuel + 1 =>
    let r := s.recOf sk m n
    let v := { v with nodes := v.nodes.put n { started := r.kind ≤ 2, order := v.acts }, acts := v.acts + 1 }
    let v :=
      if r.kind = 4 then
        match from_ with
        | some f => if s.inBody sk m n f then v else { v with trips := v.trips.put n 0 }
        | none => { v with trips := v.trips.put n 0 }
      else v
    if r.kind = 1 && r.stream && r.next ≠ noIdx then s.activate sk m v (some n) r.next fuel else v

/-- Every node activated earlier has retired. -/
def Invocation.earlierDone (v : Invocation) (n : Nat) : Bool := v.nodes.all fun e => e.2.retired || (v.node n).order ≤ e.2.order

/-- Retires a node and activates a successor. A branch that picks no successor (0xFFF) activates nothing: the spec gives no effect there,
and this is the model's choice (log entry 104). -/
def State.retireNode (s : State) (sk : Nat) (m : ModelSlot) (v : Invocation) (n next : Nat) : Invocation :=
  let v := v.setNode n { v.node n with retired := true }
  if next = noIdx then v else s.activate sk m v (some n) next (m.nodes + 1)

/-- Whether a KERNEL node has retired all its iterations (R17). -/
def State.kernelDone (s : State) (sk : Nat) (m : ModelSlot) (v : Invocation) (n : Nat) : Bool :=
  let r := s.recOf sk m n
  let x := v.node n
  match r.inEdge with
  | none => x.live == 0 && x.next == (s.nestRec sk r.opa.toNat).total
  | some e => x.live == 0 && (v.edge e).entries.isEmpty && (v.node (s.edgeRec sk m e).2.1).retired

/-- Retires the KERNEL nodes that are done. -/
def State.retireKernels (s : State) (sk : Nat) (m : ModelSlot) (v : Invocation) : Nat → Invocation
  | 0 => v
  | fuel + 1 =>
    match v.nodes.find? fun e => !e.2.retired && (s.recOf sk m e.1).kind == 1 && s.kernelDone sk m v e.1 with
    | none => v
    | some (n, _) =>
      let r := s.recOf sk m n
      s.retireKernels sk m (s.retireNode sk m v n (if r.stream then noIdx else r.next)) fuel

def Invocation.liveCount (v : Invocation) : Nat := v.nodes.foldl (fun t e => t + e.2.live) 0

/-- The event of a node that is due to act, if one is. -/
def State.dueOf (s : State) (sk : Nat) (m : ModelSlot) (v : Invocation) : Option Instr :=
  let node := skNode sk
  let sl := skNum sk
  if v.fault.isSome then if v.liveCount = 0 then some (.invocationRetire node sl v.slot) else none
  else if !isGraph m then if (v.node 0).retired then some (.invocationRetire node sl v.slot) else none
  else
    v.nodes.findSome? fun e =>
      if e.2.retired then none
      else match (s.recOf sk m e.1).kind with
        | 2 => some (.copyNodeRetire node sl v.slot e.1)
        | 3 => if v.earlierDone e.1 then some (.nodeCond node sl v.slot e.1) else none
        | 4 => if v.earlierDone e.1 then some (.nodeWhile node sl v.slot e.1) else none
        | 5 => if v.earlierDone e.1 then some (.nodeNotify node sl v.slot e.1) else none
        | 6 => if v.earlierDone e.1 then some (.invocationRetire node sl v.slot) else none
        | _ => none

/-- Advances the active invocations of a slice: nodes retire, and the nodes that are due get their events. -/
def State.advance (s : State) (sk : Nat) : State :=
  (s.slice sk).active.foldl (fun s v0 =>
    let m := (s.slice sk).model v0.slot
    let v := if v0.fault.isSome then v0 else s.retireKernels sk m v0 (v0.nodes.length + m.nodes + 1)
    let s := s.putSlice sk ((s.slice sk).setInv v)
    match s.dueOf sk m v with
    | some i => s.wake (.event i)
    | none => s) s

/-- What follows an invocation: it is written back, the slice advances and dispatches. -/
def State.follow (s : State) (sk : Nat) (v : Invocation) : State :=
  ((s.putSlice sk ((s.slice sk).setInv v)).advance sk).wake (.event (.iterationDispatch (skNode sk) (skNum sk)))

/-- The active invocation of a slot in which node n is due: activated, not retired, of this kind, nothing earlier open. -/
def State.dueNode (s : State) (sk slot n kind : Nat) : Option (Work × NodeRec) :=
  match s.work sk slot with
  | none => none
  | some w =>
    let r := s.recOf sk w.m n
    match w.v.nodes.get? n with
    | some x =>
      if !x.retired && r.kind == kind && (kind == 2 || w.v.earlierDone n) && w.v.fault.isNone && isGraph w.m && (s.slice sk).stop == .running
      then some (w, r) else none
    | none => none

/-! ### Starting and ending an invocation -/

/-- INVOCATION_START (R31): the oldest waiting invocation of the slot starts, if none of the slot is active and a relocation
set is free. -/
def execInvocationStart (node slice slot : Nat) (s : State) : Out :=
  let sk := skOf node slice
  let sl := s.slice sk
  .next (match sl.waiting.find? (·.slot == slot) with
    | none => s
    | some w =>
      if (sl.active.any (·.slot == slot)) || 16 ≤ sl.active.length || sl.stop != .running then s
      else
        let m := sl.model slot
        let edges : Tab EdgeRun := if isGraph m then (List.range m.edges).map fun e => (e, { free := (s.edgeRec sk m e).1 }) else []
        let v : Invocation := { w with order := sl.started, edges := edges, nodes := [], trips := [], acts := 0, done := 0, fault := none }
        let v := s.activate sk m v none (if isGraph m then m.root else 0) (m.nodes + 1)
        let gone := sl.waiting.findIdx (·.slot == slot)
        (s.putSlice sk { sl with
          waiting := sl.waiting.eraseIdx gone, started := sl.started + 1, active := sl.active ++ [v] }).follow sk v)

/-- What starts or ends once an invocation has left its slot (R331 step 4). -/
def State.afterInvocation (s : State) (sk : Nat) (v : Invocation) : State :=
  let node := skNode sk
  let n := skNum sk
  let s := s.tryEmpty sk v.slot
  let s := (s.slice sk).waiting.foldl (fun s w => s.wake (.event (.invocationStart node n w.slot))) s
  match v.asker, (s.slice sk).scheds.get? v.slot with
  | .batch ids, some x =>
    let fault := v.fault.map fun d => d.fld 0 8
    (s.putSlice sk { s.slice sk with scheds := (s.slice sk).scheds.put v.slot { x with retired := some (ids, fault) } }).wake
      (.event (.schedBoundary node n v.slot))
  | _, _ => if (s.slice sk).scheduled v.slot then s.wake (.event (.schedBoundary node n v.slot)) else s

/-- Stores of a function's threads are still on their way to other nodes: what the completions of its work cover is not performed
yet (R331, R332, log entry 99). -/
def State.storesLeft (s : State) (sk : Nat) : Bool :=
  (s.pkg (skNode sk)).outstanding.any fun e => e.2.any fun q => !q.fw && q.func == s.sliceFunc sk

/-- INVOCATION_RETIRE (R331, R303). It waits for the writes that its completion covers (R331 step 2, R332): that of a fault covers none, but
those of a batch's requests do. -/
def execInvocationRetire (node slice slot : Nat) (s : State) : Out :=
  let sk := skOf node slice
  .next (match s.work sk slot with
    | none => s
    | some w =>
      let v := w.v
      let ends : Bool :=
        match v.fault with
        | some _ => v.liveCount == 0
        | none =>
          if isGraph w.m then v.nodes.any fun e => !e.2.retired && (s.recOf sk w.m e.1).kind == 6 && v.earlierDone e.1
          else (v.node 0).retired
      if !ends || (s.slice sk).stop != .running then s
      else if (v.fault.isNone || (match v.asker with | .batch _ => true | _ => false)) && s.storesLeft sk then s.wake (.event (.invocationRetire node slice slot))
      else
        let sl := s.slice sk
        let s := s.putSlice sk { sl with active := sl.active.filter (·.slot ≠ slot) }
        let s := match v.asker with
          | .host seq tag ep =>
            match v.fault with
            | some d => s.tell sk ep seq 4 0x0F tag d
            | none => s.tell sk ep seq 4 0 tag (BitVec.ofNat 64 (v.done % 2 ^ 32))
          | .batch _ => s
        (s.afterInvocation sk v).wake (.event (.iterationDispatch node slice)))

/-! ### COPY, COND, WHILE, NOTIFY -/

/-- What the acquire of a COPY node's first read observes: the releases of the aligned 8-byte word that it begins in, as far as
they are effective at package scope (R15, R255). -/
def State.weaverStamps (s : State) (sk va len : Nat) : List Stamp :=
  if len = 0 then []
  else match (s.asWeaver sk fun s => (s.translateIn (weaverKey (skNode sk)) sk (BitVec.ofNat 64 va) .read, s)).1 with
    | .ok pg _ => (s.stampsOf pg.pa (wordRest pg.pa len)).filter fun t => effective t.scope t.ck 2 (weaverKey (skNode sk)) pg.pa
    | _ => []

/-- The release after a COPY node's last write: the aligned 8-byte word of its last byte, up to that byte, hands on what the
node's acquire observed (R15, R255). -/
def State.weaverRelease (s : State) (sk va len : Nat) (l : List Stamp) : State :=
  if len = 0 then s
  else match (s.asWeaver sk fun s => (s.translateIn (weaverKey (skNode sk)) sk (BitVec.ofNat 64 (va + len - 1)) .write, s)).1 with
    | .ok pg _ => s.addStamps (pg.pa / 8 * 8) (pg.pa % 8 + 1) (l.map fun t => { t with scope := 2 })
    | _ => s

/-- The formats of a range's pages as far as they can be translated: offset, bytes, FMT, within fuel pages. -/
def State.weaverFmts (s : State) (sk va : Nat) (k : Kind) (off : Nat) : Nat → Nat → List (Nat × Nat × Nat)
  | 0, _ => []
  | fuel + 1, n =>
    if n = 0 then []
    else match s.translateIn (weaverKey (skNode sk)) sk (BitVec.ofNat 64 (va + off)) k with
      | .ok pg s => (off, min n pg.left, pg.fmt) :: s.weaverFmts sk va k (off + min n pg.left) fuel (n - pg.left)
      | _ => []

/-- The first target address whose page's format and its source's differ, neither being raw (R67). -/
def State.weaverClash (s : State) (sk src dst len : Nat) : Option Nat :=
  (s.asWeaver sk fun s =>
    let a := s.weaverFmts sk src .read 0 (segFuel len) len
    let b := s.weaverFmts sk dst .write 0 (segFuel len) len
    ((b.find? fun g => a.any fun h => g.1 < h.1 + h.2.1 && h.1 < g.1 + g.2.1 && g.2.2 ≠ h.2.2 && g.2.2 ≠ 0 && h.2.2 ≠ 0).map (dst + ·.1), s)).1

/-- COPY_NODE_RETIRE: the copy between two buffers (R15), which reads its whole source before it writes a byte. -/
def execCopyNodeRetire (node slice slot n : Nat) (s : State) : Out :=
  let sk := skOf node slice
  .next (match s.dueNode sk slot n 2 with
    | none => s
    | some (w, r) =>
      if s.borderFull node then s.wake (.event (.copyNodeRetire node slice slot n)) else
      let buf (i : Nat) : W64 × W64 := w.v.bx.getD i (0, 0)
      let src := buf (r.opa.fld 60 4)
      let dst := buf (r.opa.fld 56 4)
      let len := r.opa.fld 0 48
      let so := r.opb.fld 32 32
      let do_ := r.opb.fld 0 32
      let fail (s : State) (cause : Nat) (addr : W64) : State :=
        let rc : Rec := { cause := cause, sev := 4, func := s.sliceFunc sk, slice := slice, unit := 11, kind := 1, addr := addr }
        ((s.record node rc).invFault sk slot (BitVec.ofNat 64 cause)).advance sk
      if src.2.toNat < so + len || dst.2.toNat < do_ + len then
        let rc : Rec := { cause := 0x6B, sev := 4, func := s.sliceFunc sk, slice := slice, unit := 11, addr := BitVec.ofNat 64 n }
        ((s.record node rc).invFault sk slot 0x6B).advance sk
      else match s.weaverClash sk (src.1.toNat + so) (dst.1.toNat + do_) len with
      | some a => fail s 0x5A (BitVec.ofNat 64 a)
      | none => match s.weaverLoad sk (src.1.toNat + so) len with
        | (.error e, s) => fail s e.1 (BitVec.ofNat 64 e.2)
        | (.ok bs, s) =>
          let relay := s.weaverStamps sk (src.1.toNat + so) len
          match s.weaverStore sk (dst.1.toNat + do_) bs with
          | (.error e, s) => fail s e.1 (BitVec.ofNat 64 e.2)
          | (.ok (), s) => (s.weaverRelease sk (dst.1.toNat + do_) len relay).follow sk (s.retireNode sk w.m w.v n r.next))

/-- The condition word of a COND or WHILE node, read with an acquire at package scope (R18). -/
def State.condWord (s : State) (sk : Nat) (m : ModelSlot) (cw : Nat) : W64 := s.ipaWord sk (m.condBase + 8 * cw)

/-- The tests of a COND node (Table 2.4). -/
def condTest (t : Nat) (x y : W64) : Bool :=
  match t with
  | 0 => x == y
  | 1 => x != y
  | 2 => x.slt y
  | 3 => !x.slt y
  | 4 => x.ult y
  | _ => !x.ult y

/-- NODE_COND. -/
def execNodeCond (node slice slot n : Nat) (s : State) : Out :=
  let sk := skOf node slice
  .next (match s.dueNode sk slot n 3 with
    | none => s
    | some (w, r) =>
      s.follow sk (s.retireNode sk w.m w.v n (if condTest (r.opb.fld 0 3) (s.condWord sk w.m r.cw) r.opa then r.next else r.alt)))

/-- NODE_WHILE. -/
def execNodeWhile (node slice slot n : Nat) (s : State) : Out :=
  let sk := skOf node slice
  .next (match s.dueNode sk slot n 4 with
    | none => s
    | some (w, r) =>
      let trips := Tab.getD w.v.trips n 0
      let limit := r.opb.fld 0 32
      if s.condWord sk w.m r.cw = 0 then s.follow sk (s.retireNode sk w.m w.v n r.alt)
      else if limit ≠ 0 && limit ≤ trips then
        let rc : Rec := { cause := 0x8C, sev := 4, func := s.sliceFunc sk, slice := slice, unit := 11, addr := BitVec.ofNat 64 n }
        ((s.record node rc).invFault sk slot 0x8C).advance sk
      else
        let v := { w.v with trips := w.v.trips.put n (trips + 1) }
        s.follow sk (s.retireNode sk w.m v n r.next))

/-- NODE_NOTIFY. -/
def execNodeNotify (node slice slot n : Nat) (s : State) : Out :=
  let sk := skOf node slice
  .next (match s.dueNode sk slot n 5 with
    | none => s
    | some (w, r) =>
      if s.storesLeft sk then s.wake (.event (.nodeNotify node slice slot n))
      else
      let s := match w.v.asker with
        | .host seq _ ep => s.tell sk ep seq 2 (r.opb.fld 0 8) r.opa 0
        | .batch _ => s
      s.follow sk (s.retireNode sk w.m w.v n r.next))

/-! ### Dispatch (R46, R47) -/

/-- The lowest-numbered free core of a slice, of those in service (R308): its slice number. -/
def State.freeCore (s : State) (sk : Nat) : Option Nat :=
  (List.range (s.sliceCores sk).length).find? fun i =>
    match s.sliceCoreKey sk i with
    | some ck => (s.core ck).run == .idle && !(s.pkg (ckNode ck)).withdrawn.has (ckCore ck)
    | none => false

/-- Nodes of active invocations with an iteration that can be dispatched, in round-robin order of their records: the order of
their invocation, and the node. The CORES limit is counted for each node (log entry 88). -/
def State.dispatchable (s : State) (sk : Nat) : List (Nat × Nat) :=
  (s.slice sk).active.flatMap fun v =>
    if v.fault.isSome then []
    else
      let m := (s.slice sk).model v.slot
      (v.nodes.filter fun e =>
        let r := s.recOf sk m e.1
        r.kind == 1 && !e.2.retired &&
          let k := s.nestRec sk r.opa.toNat
          let n := (s.sliceCores sk).length
          let lim := if k.cores = 0 || n < k.cores then n else k.cores
          (e.2.live < lim) &&
            (match r.inEdge with
              | none => e.2.next < k.total
              | some i => !(v.edge i).entries.isEmpty) &&
            r.outs.all fun o => 0 < (v.edge o).free).map fun e => (v.order, e.1)

/-- The next record to serve after the one served last. -/
def nextServed (last : Option (Nat × Nat)) (l : List (Nat × Nat)) : Option (Nat × Nat) :=
  match last.bind fun last => l.find? fun x => last.1 < x.1 || (last.1 == x.1 && last.2 < x.2) with
  | some x => some x
  | none => l.head?

/-- A record of the Weaver that ends an invocation. -/
def State.weaverEnds (s : State) (sk slot cause : Nat) (addr : W64) : State :=
  let rc : Rec := { cause := cause, sev := 4, func := s.sliceFunc sk, slice := skNum sk, unit := 11, addr := addr }
  ((s.record (skNode sk) rc).invFault sk slot (BitVec.ofNat 64 cause)).advance sk

/-- The indices that an edge's entry carries (R19). -/
def entryIndex (w : W64) : List Nat := (List.range 4).map fun i => w.fld (16 * i) 16

/-- Hands one iteration of a node to a core. -/
def State.dispatchTo (s : State) (sk : Nat) (v : Invocation) (n i ck : Nat) : State :=
  let m := (s.slice sk).model v.slot
  let r := s.recOf sk m n
  let k := s.nestRec sk r.opa.toNat
  let x := v.node n
  let (idx, v) : List Nat × Invocation :=
    match r.inEdge with
    | none => (k.indices x.next, v.setNode n { x with next := x.next + 1 })
    | some e =>
      let g := v.edge e
      (entryIndex (g.entries.headD 0), v.setEdge e { g with entries := g.entries.tail })
  let outside : Bool := r.inEdge.isSome && (List.range 4).any fun l => max 1 (k.bound l) ≤ idx.getD l 0
  let decls := (List.range 4).filter fun d => (k.decl d).valid
  let len (d : Nat) : Nat := (v.bx.getD (k.decl d).bx (0, 0)).2.toNat
  let bad := decls.find? fun d => let (lo, hi) := (k.decl d).range idx; lo < 0 || (len d : Int) ≤ hi
  if outside then (s.putSlice sk ((s.slice sk).setInv v)).weaverEnds sk v.slot 0x8B (BitVec.ofNat 64 (r.inEdge.getD 0))
  else match bad with
    | some d => (s.putSlice sk ((s.slice sk).setInv v)).weaverEnds sk v.slot 0x6A (BitVec.ofInt 64 ((k.decl d).range idx).1)
    | none =>
      let v := r.outs.foldl (fun (v : Invocation) o => v.setEdge o { v.edge o with free := (v.edge o).free - 1 }) v
      let v := v.setNode n { v.node n with live := (v.node n).live + 1 }
      let s := s.putSlice sk { (s.slice sk).setInv v with served := some (v.order, n) }
      let s := s.mergeInto ck (s.packageView (skNode sk))
      let c := s.core ck
      let stage := decls.flatMap fun d => (List.range (k.decl d).rows).map fun j => (d, j)
      (s.putCore ck { c with
        run := .staging, slice := some sk, slcore := i, slot := v.slot, node := n, index := idx, thread := c.thread + 1
        icache := [], dcache := [], rfences := [], stage := stage, stageAt := none, stagePark := none }).wake (.event (.threadStart (ckNode ck) (ckCore ck)))

/-- ITERATION_DISPATCH: the Weaver advances its graphs and dispatches one iteration. -/
def execIterationDispatch (node slice : Nat) (s : State) : Out :=
  let sk := skOf node slice
  .next (if (s.slice sk).stop != .running || !(s.slice sk).bound then s
    else
      let s := s.advance sk
      match nextServed (s.slice sk).served (s.dispatchable sk), s.freeCore sk with
      | some (order, n), some i =>
        match (s.slice sk).active.find? (·.order == order), s.sliceCoreKey sk i with
        | some v, some ck => (s.dispatchTo sk v n i ck).wake (.event (.iterationDispatch node slice))
        | _, _ => s
      | _, _ => s)

/-! ### Threads -/

/-- What of one row of the declared tiles of the acting core lies in the page at off bytes: it is translated and copied, in the format of
the row's first page (R22, R47, R48, R67); the bytes landed, and the format. -/
def State.stagePart (s : State) (sk d j off : Nat) (fmt : Option Nat) : Res (Nat × Nat) :=
  let c := s.me
  let v := (s.slice sk).inv c.slot
  let m := (s.slice sk).model c.slot
  let t := (s.nestRec sk (s.recOf sk m c.node).opa.toNat).decl d
  let base := ((v.bind fun v => v.bx[t.bx]?).getD (0, 0)).1
  let va := ((base.toNat : Int) + (t.range c.index).1 + (j * t.pitch : Nat)).toNat
  let n := t.rowBytes
  let place (o : Nat) : Nat := rectPlace t.skew n t.dest (j * n + o)
  if inWindow (va + off) then .stop (s.park 3 0xB0 (BitVec.ofNat 64 (va + off)) 0)
  else match s.engPage 3 (va + off) .read with
  | .stop s => .stop s
  | .ok pg s =>
    let f := fmt.getD pg.fmt
    let len := min (n - off) pg.left
    let part : List Seg := [{ va := va + off, len := len, pg := pg }]
    let done (r : Res Unit) : Res (Nat × Nat) := r.then_ fun _ s => .ok (off + len, f) s
    if pg.fmt ≠ f then .stop (s.badFmt 3 .read (va + off) pg 0x5A)
    else if !blockCode f then done (s.moveIn 3 part place va)
    else if va % 4096 ≠ 0 || n % 4096 ≠ 0 then .stop (s.badFmt 3 .read va pg 0x66)
    else
      match State.gather 3 (allLines part) s with
      | .stop s => .stop s
      | .ok bs s =>
        let fr := pieces 4096 (len / 4096) bs
        let i := off / 4096
        let total := n / 4096 * frameElems f
        let gap := if off + len = n then (List.range (up64 total - total)).map fun k => (total + k, (0 : Byte)) else []
        let els := (fr.flatMap (List.take (frameElems f))).zipIdx.map fun x => (i * frameElems f + x.2, x.1)
        let scs := (fr.flatMap fun x => (x.drop (frameElems f)).take (frameBlocks f)).zipIdx.map fun x => (up64 total + i * frameBlocks f + x.2, x.1)
        let all := els ++ gap ++ scs
        done (s.padWrite 3 (all.map fun x => place x.1) (all.map (·.2)))

/-- Bytes of a row of a declaration. -/
def State.stageBytes (s : State) (sk d : Nat) : Nat :=
  let m := (s.slice sk).model s.me.slot
  ((s.nestRec sk (s.recOf sk m s.me.node).opa.toNat).decl d).rowBytes

/-- The thread of the acting core starts (R23, R47); its banks wake (R309). -/
def State.startThread (s : State) (sk : Nat) : State :=
  let c := s.me
  let m := (s.slice sk).model c.slot
  let k := s.nestRec sk (s.recOf sk m c.node).opa.toNat
  let bx := (((s.slice sk).inv c.slot).map (·.bx)).getD []
  let c := { c with
    run := .running, pc := BitVec.ofNat 64 (m.image + k.entry), watchdog := s.ylimit sk, vec := { c.vec with gated := [] }
    bx := Vector.ofFn fun i => bx.getD i.val (0, 0) }
  let c := (List.range 4).foldl (fun (c : Core) l => c.setReg (BitVec.ofNat 5 (20 + l)) (BitVec.ofNat 64 (c.index.getD l 0))) c
  (s.setMe c).wake (.core s.cur)

/-- THREAD_START: stages what of the next row lies in one page, or starts the thread once everything has landed. A copy that was stopped
goes on with the page that it stopped at (R48). -/
def execThreadStart (node core : Nat) (s : State) : Out :=
  let s := { s with cur := node * 256 + core }
  let c := s.me
  .next (match c.run, c.slice with
    | .staging, some sk =>
      if c.stagePark.isSome then s
      else match c.stage with
        | [] => if (s.slice sk).stop == .stopped || (s.slice sk).stop == .held then s else s.startThread sk
        | (d, j) :: t =>
          match s.stagePart sk d j ((c.stageAt.map (·.1)).getD 0) (c.stageAt.map (·.2)) with
          | .stop s => s
          | .ok (n, f) s =>
            (s.setMe (if s.stageBytes sk d ≤ n then { s.me with stage := t, stageAt := none } else { s.me with stageAt := some (n, f) })).wake
              (.event (.threadStart node core))
    | _, _ => s)

/-- THREAD_END (R330). -/
def execThreadEnd (node core : Nat) (s : State) : Out :=
  let ck := node * 256 + core
  .next (if (s.core ck).run == .ended && s.drained ck then
    if (s.core ck).handling.isSome then s.handlerEnds ck none else s.threadEnds ck
  else s)

/-- WATCHDOG_EXPIRE (R249). -/
def execWatchdogExpire (node core : Nat) (s : State) : Out :=
  let ck := node * 256 + core
  let c := s.core ck
  .next (if c.run == .running && c.slice.isSome && c.watchdog == 0 then (s.count node 0xD0).endOf ck 0xD0 c.pc 0 0xD0 else s)

/-- FAULT_HANDLER_START (R75). -/
def execFaultHandlerStart (node slice worker : Nat) (s : State) : Out :=
  let sk := skOf node slice
  let sl := s.slice sk
  let ck := node * 256 + worker
  .next (match sl.faults with
    | [] => s
    | f :: _ =>
      if sl.handler.isSome || !s.hasHandler sk || sl.stop == .held then s
      else if worker < 145 || 152 < worker || (s.core ck).run != .idle then s.askHandler sk
      else
        let m := sl.model 0
        let c : Core := s.core ck
        let c := { c.afterThread with
          icache := [], dcache := [], serves := (f.core, (s.core f.core).thread, (s.core f.core).slot)
          run := .running, pc := BitVec.ofNat 64 (m.image + m.hentry), slice := some sk, handling := some (sk, f.fnum)
          watchdog := s.ylimit sk, thread := c.thread + 1 }
        let c := (c.setReg 20 (f.words.getD 1 0)).setReg 21 (BitVec.ofNat 64 f.fnum)
        ((s.putSlice sk { sl with handler := some (ck, f.fnum) }).putCore ck c).wake (.core ck))

/-- TRANSLATION_WALK (R63): a walk for a unit of a core, whose translation is cached, with D set by a write. A fault is
delivered by the access that needs the translation. -/
def execTranslationWalk (node core unit kind : Nat) (va : BitVec 64) (s : State) : Out :=
  let _ := unit
  let ck := node * 256 + core
  let k : Kind := if kind = 0 then .read else if kind = 1 then .write else if kind = 2 then .atomic else .fetch
  .next (match s.translate ck va k with
    | .ok _ s => s
    | .fault _ s => s
    | .refused _ _ s => s)

end Sys2Proof.Machine
end

