-- ==== Sys2Proof/Machine/Preempt.lean ====
section
/-!
DEFINITION. Pre-emption and migration: the stop of a slice (R316, R317) and the freeze (R318), save (R319 to R321), restore
(R322, R323), resume in place and hold (R324).
-/
namespace Sys2Proof.Machine

/-! ### Running a slice again -/

/-- Wakes everything of a slice that a stop may have held. A slice with FUNC 0 runs nothing: it stays stopped (R329). -/
def State.runSlice (s : State) (sk : Nat) : State :=
  let node := skNode sk
  let n := skNum sk
  let y := s.ylimit sk
  if s.sliceFunc sk = 0 then s
  else
  let s := s.putSlice sk { s.slice sk with stop := .running, kept := false }
  let s := (s.sliceCores sk).foldl (fun s m =>
    let ck := node * 256 + m
    let c := s.core ck
    let s := s.putCore ck { c with stop := none, wait := none, pushHeld := none, watchdog := if c.run == .running || c.run == .ended then y else c.watchdog }
    let s := if c.run == .running then s.wake (.core ck) else s
    let s := if c.run == .staging then s.wake (.event (.threadStart node m)) else s
    let s := ((s.wake (.ring ck 0)).wake (.ring ck 1)).wake (.ring ck 2)
    s.checkDrained ck) s
  let sl := s.slice sk
  let s := sl.waiting.foldl (fun s v => s.wake (.event (.invocationStart node n v.slot))) s
  let s := sl.scheds.foldl (fun s x => s.wake (.event (.schedBoundary node n x.1))) s
  let s := (sl.reqs.filter fun r => r.2.state == ReqState.fetch).foldl (fun s r => s.wake (.event (.packPlacementDone node n r.1))) s
  let s := (s.wake (.event (.iterationDispatch node n))).askHandler sk
  s.runInbox node (s.sliceFunc sk)

/-! ### PREEMPT (R316) -/

def preemptReq : Nat := 2 ^ 63
def preemptFroze : Nat := 2 ^ 62
/-- NOFRZ, SLICE and DEADLINE as written. -/
def preemptFields (v : W64) : Nat := v.fld 61 1 * 2 ^ 61 + v.fld 32 6 * 2 ^ 32 + v.fld 0 32

/-- A write of PREEMPT. A write while a stop is in progress is ignored, and so is a request for an unbound slice. -/
def State.preemptWrite (s : State) (node : Nat) (v : W64) : State :=
  let n := v.fld 32 6
  let sk := skOf node n
  let req := v.fld 63 1 == 1
  if (s.pkg node).stopping.isSome || (req && !(s.slice sk).bound) then s
  else if !req then s.setPcsr node 0x104 (BitVec.ofNat 64 ((s.pcsr node 0x104).fld 62 1 * preemptFroze + preemptFields v))
  else
    let s := s.setPcsr node 0x104 (BitVec.ofNat 64 (preemptReq + preemptFields v))
    let s := s.putPkg node { s.pkg node with stopping := some (n, s.clock) }
    let sl := s.slice sk
    (s.putSlice sk (if sl.stop == .running then { sl with stop := .stopping } else sl)).wake (.event (.stopComplete node n))

/-- PREEMPT as an event. -/
def execPreempt (node : Nat) (v : BitVec 64) (s : State) : Out := .next (s.preemptWrite node v)

/-! ### The stop (R317) -/

/-- The access core of a slice's core has stopped: no thread, parked, stopped at a stop point, or past its end. -/
def Core.accessStopped (c : Core) : Bool :=
  match c.run with
  | .idle => true
  | .staging => c.stagePark.isSome
  | .running => c.stop.isSome || c.fault.isSome
  | .ended => true

/-- The parts that a ganged multiply of the acting core still lacks have arrived, and each waits at its member. -/
def State.gangWaits (s : State) (e : Entry) : Bool :=
  e.gang.sent != [] && e.gang.members.all fun m =>
    e.gang.done.has m ||
      match s.me.slice.bind fun sk => s.sliceCoreKey sk m with
      | none => false
      | some m => (s.core m).mat.parts.any fun p => p.issuer == s.cur && (s.core m).partWaits p

/-- A ring of the acting core does not go on: it is empty, parked, held by the stop, or its head entry waits. -/
def State.ringStopped (s : State) (r : Nat) : Bool :=
  match (s.ring r).queue with
  | [] => true
  | e :: _ =>
    !e.finished && ((s.ring r).park.isSome || e.held || s.stopHolds r e || !s.me.waitMet r e ||
      (!s.inExecution r && (s.me.randHolds r e || s.me.partHolds r e)) || (r == 1 && s.gangWaits e))

/-- Everything of a core has stopped, and nothing that it asked for is outstanding. -/
def State.coreStopped (s : State) (ck : Nat) : Bool :=
  let t := { s with cur := ck }
  let c := s.core ck
  c.accessStopped && t.ringStopped 0 && t.ringStopped 1 && t.ringStopped 2 && c.mat.parts.all c.partWaits &&
    !(s.transfers.any fun h => h.core == ck) && !(s.tagQ.any fun q => q.of ck) &&
    !s.storesOut ck &&
    c.rldsAnswered

/-- An mmul without .chk stands at the head of the matrix ring, and nothing keeps it from being in execution. A ring whose head is a
tile-start marker that has not been reached has stopped there (R317). -/
def State.canFreeze (s : State) : Option Entry :=
  match s.me.mring.queue with
  | e :: _ =>
    if s.me.mring.park.isNone && !e.finished && !e.held && !e.stale && (!e.tsm || s.me.mring.win == some s.me.mring.rp) && (e.waitk = 0 || e.wdone) && !s.me.randHolds 1 e && !s.me.partHolds 1 e &&
        (e.word.fld 27 5 == 0x05 || e.word.fld 27 5 == 0x06) && e.word.fld 0 1 == 0 && s.me.mat.frozen.isNone then some e else none
  | [] => none

/-- R318 on one core: whether the multiply was in execution, and how far, is a free choice. -/
def State.freezeCore (s : State) (ck : Nat) : State :=
  let s := { s with cur := ck }
  match s.canFreeze with
  | none => s
  | some e =>
    let (running, s) := s.pickBool
    if !running then s
    else
      let (t, s) := s.pickNat
      let t := t % (shMPAD e.shape + shStages e.shape + shNPAD e.shape)
      let m := s.me.mat
      let z := freezeAt (m.tile (e.word.fld 24 3)) (m.tile (e.word.fld 21 3)) e.shape e.seq t
      let s := s.setMe { s.me with mat := { m.begin (e.word.fld 27 5 == 0x06) (e.word.fld 18 3) with frozen := some z } }
      let s := s.setPcsr s.node 0x104 (s.pcsr s.node 0x104 ||| BitVec.ofNat 64 preemptFroze)
      s.record s.node { s.coreRec ck 0xD3 3 with addr := BitVec.ofNat 64 (ckCore ck) }

/-- The deadline of the stop in progress has expired, and freezing is allowed. -/
def State.deadlinePassed (s : State) (node t0 : Nat) : Bool :=
  let v := s.pcsr node 0x104
  v.fld 61 1 == 0 && v.fld 0 32 ≤ s.clock - t0

/-- A record about a slice. -/
def State.sliceRec (s : State) (sk cause : Nat) (addr : W64) : Rec :=
  { cause := cause, sev := sevOf cause, func := s.sliceFunc sk, slice := skNum sk, unit := 12, addr := addr }

/-- The deadline has expired: matrix rings that still run freeze. -/
def State.freezeSlice (s : State) (sk : Nat) : State :=
  let node := skNode sk
  let s := s.putSlice sk { s.slice sk with stop := .freezing }
  (s.sliceCores sk).foldl (fun s n => s.freezeCore (node * 256 + n)) s

/-- STOP_COMPLETE: looks whether the stop of a slice is complete, and completes it. -/
def execStopComplete (node slice : Nat) (s : State) : Out :=
  let sk := skOf node slice
  .next (match (s.pkg node).stopping with
    | none => s
    | some (n, t0) =>
      if n ≠ slice then s
      else
        let keys := (s.sliceCores sk).map (node * 256 + ·)
        let late : Bool := keys.any fun ck => !({ s with cur := ck } : State).ringStopped 1
        let s := if (s.slice sk).stop == .stopping && s.deadlinePassed node t0 && late then s.freezeSlice sk else s
        if keys.all s.coreStopped then
          let s := s.putPkg node { s.pkg node with stopping := none }
          let s := s.setPcsr node 0x104 (BitVec.ofNat 64 ((s.pcsr node 0x104).toNat % preemptReq))
          let sl := s.slice sk
          let s := if sl.stop == .stopping || sl.stop == .freezing then s.putSlice sk { sl with stop := .stopped } else s
          s.record node (s.sliceRec sk 0xD2 (BitVec.ofNat 64 slice))
        else s.wake (.event (.stopComplete node slice)))

/-- FREEZE: the deadline of the stop in progress expires for the matrix ring of a core of the slice. -/
def execFreeze (node core : Nat) (s : State) : Out :=
  let ck := node * 256 + core
  .next (match (s.core ck).slice, (s.pkg node).stopping with
    | some sk, some (n, t0) =>
      if skOf node n = sk && !isFirmware ck && ((s.slice sk).stop == .stopping || (s.slice sk).stop == .freezing) && s.deadlinePassed node t0 then
        (s.putSlice sk { s.slice sk with stop := .freezing }).freezeCore ck
      else s
    | _, _ => s)

/-! ### The array spill (R321) -/

/-- The spill of a core's frozen multiply, as words: the header, then entry (k, n) for each column n and stage k. -/
def Core.spill (c : Core) (ncol : Nat) : List W64 :=
  match c.mat.frozen with
  | none => []
  | some z =>
    let sh := (c.mring.queue.headD {}).shape
    let left := (List.range (shMPAD sh)).filter fun m => m + shStages sh + shNPAD sh < z.cycle + 2
    let done := left.foldl (fun d m => d + 2 ^ m) 0
    [z.seq, BitVec.ofNat 64 (z.cycle * 2 ^ 32 + min (z.cycle + 1) (shMPAD sh)), BitVec.ofNat 64 done, BitVec.ofNat 64 (done / 2 ^ 64), 0, 0, 0, 0] ++
      (List.range (ncol * 128)).flatMap fun i => let x := Tab.getD z.cells i (0, 0); [x.1, x.2]

/-- A frozen multiply from its spill and the pending copy of its slot; an empty spill is none. -/
def frozenOf (sp : List Byte) (pend : Option Frozen) : Option Frozen :=
  if sp.isEmpty then none
  else
    let cell (i : Nat) : W64 × W64 := (wordAt sp (8 + 2 * i), wordAt sp (9 + 2 * i))
    some {
      seq := wordAt sp 0, cycle := (wordAt sp 1).fld 32 32, done := (pend.map (·.done)).getD []
      cells := ((List.range ((sp.length - 64) / 16)).filter fun i => (cell i).2.fld 41 1 == 1).map fun i => (i, cell i) }

/-! ### The context frame (Tables 21.3, 21.4) -/

/-- STOP of Table 21.4. -/
def Core.stopCode (c : Core) : Nat :=
  match c.run with
  | .idle => 0
  | .staging => 0
  | .ended => 5
  | .running => if c.fault.isSome then 4 else c.stop.getD 0

/-- Exactly n words. -/
def padWords (n : Nat) (l : List W64) : List W64 := (l ++ List.replicate n 0).take n
def flag64 (b : Bool) : W64 := if b then 1 else 0
def nat64 (n : Nat) : W64 := BitVec.ofNat 64 n

/-- The ring words of a frame: pointers, window start with [63] truncated, progress. -/
def Ring.frame (x : Ring) : List W64 :=
  [nat64 x.rp, nat64 x.wp, nat64 ((x.win.getD (2 ^ 63 - 1)) % 2 ^ 63 + (if x.trunc then 2 ^ 63 else 0)),
    nat64 ((if x.prog.lock then 2 ^ 63 else 0) + x.prog.rep % 2 ^ 31 * 2 ^ 32 + x.prog.pos % 2 ^ 32)]

def LoadQueue.frame (l : LoadQueue) : List W64 := [nat64 l.issued, nat64 l.claimed, nat64 l.taken, flag64 l.standing.isSome]

/-- Where images of these lengths stand in an area: one behind the other, each at a line (log entry 21). -/
def imgPlaces : Nat → List Nat → List (Nat × Nat)
  | _, [] => []
  | a, n :: t => (a, n) :: imgPlaces (a + (n + 63) / 64 * 64) t

/-- The 512 words of a frame. lens are the lengths of the images in bytes. -/
def Core.frame (c : Core) (ncol idx : Nat) (lens : List Nat) : List W64 :=
  let hdr : List W64 := [nat64 (0x5456 * 2 ^ 48 + 2 ^ 40 + c.stopCode * 2 ^ 32 + ncol * 2 ^ 24 + 128 * 2 ^ 16 + idx * 2 ^ 8), c.pc, c.seq, nat64 c.watchdog, 0, 0, 0, 0]
  let regs := (0 : W64) :: c.s.toList.tail
  let bx := c.bx.toList.flatMap fun b => [b.1, b.2]
  let rstk := padWords 16 c.rstk.reverse
  let loops := padWords 16 (c.loops.flatMap fun l => [l.count, l.sta, l.lend, l.cdepth.setWidth 64])
  let csrs := padWords 16 [c.trapCause.setWidth 64, c.trapAddr, c.trapPc, c.tvec, flag64 c.trapH, c.rstkBase, c.rstkLim, c.rstkPtr,
    nat64 c.rstk.length, c.cdepth.setWidth 64, nat64 c.loops.length, c.skCells, c.skGrow, c.skRounds]
  let toks := (List.range 64).map fun k =>
    if k = 0 then (0 : W64) else let t := c.token k; nat64 (t.value.toNat + t.praise % 2 ^ 12 * 2 ^ 32 + t.pwait % 2 ^ 12 * 2 ^ 44)
  let bars := (List.range 128).map fun b =>
    let x : CoreBar := Tab.getD c.bars b {}
    nat64 (x.gc.toNat + (if x.pend then 2 ^ 8 else 0) + x.tgt.toNat * 2 ^ 32)
  let rings := padWords 16 (c.vring.frame ++ c.mring.frame ++ c.cring.frame)
  let lqs := padWords 16 (c.lq.toList.flatMap LoadQueue.frame)
  let ports := (List.range 16).flatMap fun p =>
    match c.pushPorts.get? p with
    | some x => [nat64 (2 ^ 63 + x.walk.base), nat64 x.pos]
    | none => [0, 0]
  let slots := c.mat.slots.toList.flatMap fun x => [x.pass, x.status, flag64 x.ckv, 0]
  let dir := padWords 16 ((imgPlaces 0x1000 lens).flatMap fun d => [nat64 d.1, nat64 d.2])
  padWords 512 (hdr ++ regs ++ bx ++ c.sh.toList ++ rstk ++ loops ++ csrs ++ toks ++ bars ++ rings ++ lqs ++ ports ++ slots ++ dir)

/-! ### Save (R319, R320) -/

/-- STATUS of CTXOP, beside the written fields. -/
def State.ctxStatus (s : State) (node status : Nat) : State :=
  s.setPcsr node 0x105 (nat64 (status * 2 ^ 56 + (s.pcsr node 0x105).fld 0 56))

def ctxSlice (v : W64) : Nat := v.fld 2 6
def ctxBase (v : W64) : Nat := v.fld 23 33 * 2 ^ 23

/-- Stores in order, until one fails. -/
def State.saveAll (s : State) (node : Nat) : List (Nat × List Byte) → Bool × State
  | [] => (true, s)
  | (a, bs) :: t =>
    match s.saveBytes node a bs with
    | (true, s) => s.saveAll node t
    | r => r

/-- The words of a slice image in front of its inbox section: a mark, the lengths in words of the two parts, and what the rest records of the
slice that saved it (log entry 21). -/
def imageMark : W64 := 0x5456494D41474500

/-- Full tags and poisoned words of a core's scratchpad, by word, as the scratchpad's image carries them behind its bytes. -/
def State.padMarks (s : State) (ck : Nat) : List W64 :=
  let lo := padBase ck
  let rel (u : Nat) (t : NSet) : NSet := (t.filter fun a => lo ≤ a * u && a * u < lo + padSize).map fun a => (a * u - lo) / 8
  bitmapWords (rel 8 s.tags) (padSize / 512) ++ bitmapWords (rel 1 s.poison) (padSize / 512)

/-- The fault records of a core, of either queue. -/
def State.faultsOf (s : State) (sk ck : Nat) : List FaultRec :=
  ((s.slice sk).faults ++ (s.slice sk).late ++ (s.pkg (skNode sk)).faults).filter fun f => f.core == ck

/-- The six images of a core (R319): vector state, matrix state, spill, load-queue entries, scratchpad, fault records. -/
def State.coreImages (s : State) (sk ck ncol : Nat) : List (List Byte) :=
  let c := s.core ck
  let words (ws : List W64) : List Byte := ws.flatMap wordBytes
  [Codec.vecUnit.bytes c.vec, Codec.matUnit.bytes c.mat, words (c.spill ncol), Codec.core.bytes c,
    s.bytes (padBase ck) padSize ++ words (s.padMarks ck), (s.faultsOf sk ck).flatMap fun f => words (padWords 8 f.words)]

/-- The bytes of a core's ring entries, as the device has changed them since their push (R143). -/
def State.syncRings (s : State) (ck : Nat) : State :=
  [0, 1, 2].foldl (fun s r =>
    let x := (s.core ck).ring r
    let put (s : State) (l : List (Entry × Nat)) (at_ : Nat → Nat) : State :=
      l.foldl (fun s e => s.setBytes (entryAddr ck r (at_ e.2)) e.1.bytes) s
    put (put s x.past.zipIdx.reverse fun i => x.rp + 1023 - i) x.queue.zipIdx fun i => x.rp + i) s

/-- Everything that a save writes, in order: the slice image, then each core's area. -/
def State.saveList (s : State) (sk base : Nat) : List (Nat × List Byte) :=
  let node := skNode sk
  let ncol := if (s.pkg node).uv720 then 32 else 64
  let words (ws : List W64) : List Byte := ws.flatMap wordBytes
  let own := Codec.slice.bytes (s.slice sk)
  let box := if s.sliceFunc sk = 0 then [] else Codec.inbox.bytes (s.inbox node (s.sliceFunc sk)).saved
  let cores := s.sliceCores sk
  [(base, words [imageMark, nat64 (own.length / 8), nat64 (box.length / 8), nat64 cores.length, nat64 node, 0, 0, 0]), (base + 64, own),
      (base + 0x400000, box)] ++
    cores.zipIdx.flatMap fun (n, i) =>
      let ck := node * 256 + n
      let area := base + 2 ^ 23 * (i + 1)
      let imgs := s.coreImages sk ck ncol
      let lens := imgs.map (·.length)
      (area, words ((s.core ck).frame ncol i lens)) :: ((imgPlaces 0x1000 lens).zip imgs).map fun x => (area + x.1.1, x.2)

/-- A core's sketch command does not give its set's LOCK back when its ring is reset: it stays set across a save (R228). -/
def Core.keepLock (c : Core) : Core :=
  let off (p : Progress) : Progress := { p with lock := false }
  { c with cring := { c.cring with prog := off c.cring.prog, queue := c.cring.queue.map fun e => { e with prog := off e.prog } } }

/-- Holds a slice (R324): its threads are discarded, its cores zeroed. -/
def State.hold (s : State) (sk : Nat) : State :=
  let node := skNode sk
  let s := (s.sliceCores sk).foldl (fun s n =>
    let ck := node * 256 + n
    ((s.putCore ck (s.core ck).keepLock).resetRings ck).dropTagged ck) s
  let s := (s.dropHandlers sk).wipeCores node (s.sliceCores sk) Core.heldBlank
  let p := s.pkg node
  let s := s.putPkg node { p with faults := p.faults.filter fun f => !(f.core ∈ (s.sliceCores sk).map (node * 256 + ·)) }
  s.putSlice sk { s.slice sk with stop := .held, kept := false, handler := none, faults := [], late := [] }

/-- Starts an operation of CTXOP: the fields as written, STATUS 1. -/
def State.ctxBegin (s : State) (node op : Nat) (v : W64) : State :=
  let s := s.setPcsr node 0x105 (nat64 (2 ^ 56 + ctxBase v + v.fld 0 9))
  s.putPkg node { s.pkg node with ctxop := some (op, ctxSlice v, ctxBase v, v.fld 8 1 == 1) }

/-- An operation that ends at once. -/
def State.ctxRefuse (s : State) (node status : Nat) (v : W64) : State := s.setPcsr node 0x105 (nat64 (status * 2 ^ 56 + ctxBase v + v.fld 0 9))

/-- OP 1. -/
def State.ctxSave (s : State) (node : Nat) (v : W64) : State :=
  let sl := s.slice (skOf node (ctxSlice v))
  if !sl.bound || !(sl.stop == .stopped || sl.stop == .held) then s.ctxRefuse node 5 v
  else (s.ctxBegin node 1 v).wake (.event (.contextSaveDone node))

/-- CONTEXT_SAVE_DONE: the writes of a save are made and acknowledged, or one fails. -/
def execContextSaveDone (node : Nat) (s : State) : Out :=
  .next (match (s.pkg node).ctxop with
    | some (1, n, base, discard) =>
      let sk := skOf node n
      let keys := (s.sliceCores sk).map (node * 256 + ·)
      let s := keys.foldl (fun s ck => s.syncRings ck) s
      -- a save wakes gated banks (R309)
      let s := keys.foldl (fun (s : State) ck => s.putCore ck { s.core ck with vec := { (s.core ck).vec with gated := [] } }) s
      let (ok, s) := s.saveAll node (s.saveList sk base)
      let s := s.putPkg node { s.pkg node with ctxop := none }
      if !ok then (s.ctxStatus node 4).record node (s.sliceRec sk 0xD4 (nat64 base))
      else
        let s := s.putSlice sk { s.slice sk with saved := some base, kept := (s.slice sk).stop == .stopped }
        let s := if discard && (s.slice sk).stop == .stopped then s.hold sk else s
        s.ctxStatus node 0
    | _ => s)

/-! ### Restore (R322, R323) -/

/-- Reads bytes line by line as the device's own read. -/
def State.imageBytes (s : State) (node a n : Nat) : Option (List Byte) × State :=
  (List.range ((n + 63) / 64)).foldl (fun (r : Option (List Byte) × State) i =>
    match r.1 with
    | none => r
    | some bs =>
      match r.2.handleRead node (a + 64 * i) 64 with
      | (some l, s) => (some (bs ++ l), s)
      | (none, s) => (none, s)) (some [], s)

def zeroWords (bs : List Byte) (i n : Nat) : Bool := (List.range n).all fun k => wordAt bs (i + k) == 0

/-- Words of a frame that have reserved bits, with the fields that are not (Tables 8.5, 21.3): the loop stack's cdepths, the CSRs,
tokens, barriers, standing claims, CKV. -/
def frameFields : List (Nat × List (Nat × Nat)) :=
  ([0, 1, 2, 3].map fun i => (99 + 4 * i, [(0, 20)])) ++
    [(0x70, [(0, 8)]), (0x74, [(0, 1)]), (0x75, [(3, 19)]), (0x76, [(3, 19)]), (0x77, [(3, 19)]), (0x78, [(0, 5)]), (0x79, [(0, 20)]),
      (0x7A, [(0, 3)]), (0x7B, [(0, 18)]), (0x7C, [(0, 4)]), (0x7D, [(0, 4)])] ++
    ((List.range 64).map fun k => (0x80 + k, [(0, 56)])) ++
    ((List.range 128).map fun b => (0xC0 + b, [(0, 9), (32, 32)])) ++
    ([0, 1, 2, 3].map fun q => (0x153 + 4 * q, [(0, 1)])) ++
    (List.range 8).flatMap fun a => [(0x182 + 4 * a, [(0, 1)]), (0x183 + 4 * a, [])]

/-- The reserved bits of a shape register are zero (Table 4.4). -/
def shapeOk (w : W64) : Bool := if w.fld 61 1 = 1 then w.fld 52 4 == 0 else w.fld 20 36 == 0

/-- The frame check of R322. -/
def frameOk (f : List Byte) : Bool :=
  let h := wordAt f 0
  h.fld 48 16 == 0x5456 && h.fld 40 8 == 1 && h.fld 32 8 ≤ 5 && h.fld 0 8 == 0 && zeroWords f 4 4 && wordAt f 8 == 0 && wordAt f 0x80 == 0 &&
    frameFields.all (fun x => keepFields (wordAt f x.1) x.2 == wordAt f x.1) && (List.range 8).all (fun i => shapeOk (wordAt f (72 + i))) &&
    zeroWords f 0x7E 2 && zeroWords f 0x14C 4 && zeroWords f 0x1AC 4 && zeroWords f 0x1B0 0x50 &&
    (List.range 8).all fun i => (wordAt f (0x1A0 + 2 * i)).toNat + (wordAt f (0x1A1 + 2 * i)).toNat ≤ 2 ^ 23

/-- The reserved fields of a spill. -/
def spillOk (b : List Byte) : Bool :=
  zeroWords b 4 4 && (List.range ((b.length - 64) / 16)).all fun e => (wordAt b (9 + 2 * e)).fld 45 19 == 0

/-- A core area as a restore reads it: the frame, the core that its images give, the scratchpad's bytes with its tags and poisoned words,
the fault records. -/
structure Area where
  frame : List Byte
  core : Core
  pad : List Byte
  tags : NSet
  poison : NSet
  faults : List FaultRec

/-- What follows a read of an image: where bytes could not be read, the failure. -/
def withImage {β : Type} (bad : β) (r : Option (List Byte) × State) (k : List Byte → State → β × State) : β × State :=
  match r with
  | (none, s) => (bad, s)
  | (some b, s) => k b s

/-- The fault records of image 5 (Table 5.7). -/
def faultsRead (bs : List Byte) : List FaultRec :=
  (List.range (bs.length / 64)).map fun i =>
    let ws := (List.range 8).map fun k => wordAt bs (8 * i + k)
    { fnum := (ws.headD 0).fld 0 32, core := 0, unit := (ws.headD 0).fld 52 4, words := ws }

/-- Reads the six images that a frame's directory names, in order; none where the bytes of one cannot be read. -/
def State.readImages (s : State) (node area : Nat) (f : List Byte) : List Nat → Option (List (List Byte)) × State
  | [] => (some [], s)
  | k :: t =>
    withImage none (s.imageBytes node (area + (wordAt f (0x1A0 + 2 * k)).toNat) (wordAt f (0x1A1 + 2 * k)).toNat) fun b s =>
      match s.readImages node area f t with
      | (some l, s) => (some (b :: l), s)
      | r => r

/-- The area that a frame and its images give, if the device knows them for its own. -/
def areaOf (f : List Byte) (imgs : List (List Byte)) : Option Area :=
  let img (k : Nat) : List Byte := imgs.getD k []
  let n := padSize / 512
  match Codec.vecUnit.read (img 0), Codec.matUnit.read (img 1), Codec.core.read (img 3) with
  | some v, some m, some c =>
    if (img 4).length ≠ padSize + 16 * n then none
    else
      let marks := (List.range (2 * n)).map fun i => wordAt (img 4) (padSize / 8 + i)
      some {
        frame := f, core := { c with vec := v, mat := { m with frozen := frozenOf (img 2) m.frozen } }, pad := (img 4).take padSize
        tags := bitmapSet (marks.take n), poison := bitmapSet (marks.drop n), faults := faultsRead (img 5) }
  | _, _, _ => none

/-- Reads and checks the area of core i; a failure answers STATUS, cause and address. -/
def State.readArea (s : State) (node base ncol i : Nat) : Except (Nat × Nat × Nat) Area × State :=
  let area := base + 2 ^ 23 * (i + 1)
  let bad : Except (Nat × Nat × Nat) Area := .error (2, 0xD5, area)
  withImage bad (s.imageBytes node area 4096) fun f s =>
    if !frameOk f then (bad, s)
    else match s.readImages node area f [0, 1, 2, 3, 4, 5] with
      | (none, s) => (bad, s)
      | (some imgs, s) =>
        let sp := imgs.getD 2 []
        if !sp.isEmpty && !spillOk sp then (bad, s)
        else if !sp.isEmpty && (wordAt f 0).fld 24 8 ≠ ncol then (.error (3, 0xD6, i), s)
        else match areaOf f imgs with
          | none => (bad, s)
          | some a => (.ok a, s)

/-- What follows a part that was read, unless it failed. -/
def thenPart {ε α β : Type} (r : Except ε α × State) (k : α → State → Except ε β × State) : Except ε β × State :=
  match r with
  | (.error e, s) => (.error e, s)
  | (.ok a, s) => k a s

/-- The areas of several cores, in order. -/
def State.readAreas (s : State) (node base ncol : Nat) : List Nat → Except (Nat × Nat × Nat) (List Area) × State
  | [] => (.ok [], s)
  | i :: t => thenPart (s.readArea node base ncol i) fun a s =>
      thenPart (s.readAreas node base ncol t) fun l s => (.ok (a :: l), s)

/-- A matrix shape exceeds the maxima of a part (R55). -/
def shapeExceeds (nmax : Nat) (sh : W64) : Bool :=
  sh.fld 63 1 == 1 && sh.fld 61 1 == 1 && (nmax < shNPAD sh || 128 < shMPAD sh || (kLimits (shFMT sh)).1 < shKPAD sh)

/-- A ring with what the frame says of it: pointers, window, progress. -/
def Ring.ofFrame (x : Ring) (w : Nat → W64) : Ring :=
  let win := (w 2).fld 0 63
  { x with
    rp := (w 0).toNat, wp := (w 1).toNat, win := if win = 2 ^ 63 - 1 then none else some win, trunc := (w 2).fld 63 1 == 1
    prog := { x.prog with lock := (w 3).fld 63 1 == 1, rep := (w 3).fld 32 31, pos := (w 3).fld 0 32 } }

/-- A core as a frame gives it, over what its images hold. -/
def Core.ofFrame (c : Core) (f : List Byte) : Core :=
  let w (i : Nat) : W64 := wordAt f i
  let code := (w 0).fld 32 8
  { c with
    run := if code = 0 then (if c.run == .staging then .staging else .idle) else if code = 5 then .ended else .running
    stop := if 1 ≤ code && code ≤ 3 then some code else none
    fault := if code = 4 then c.fault else none
    pc := w 1, seq := w 2
    s := Vector.ofFn fun i => if i.val = 0 then 0 else w (8 + i.val)
    bx := Vector.ofFn fun i => (w (40 + 2 * i.val), w (41 + 2 * i.val))
    sh := Vector.ofFn fun i => w (72 + i.val)
    rstk := ((List.range (min 16 (w 0x78).toNat)).map fun i => w (80 + i)).reverse
    loops := (List.range (min 4 (w 0x7A).toNat)).map fun i => {
      count := w (96 + 4 * i), sta := w (97 + 4 * i), lend := w (98 + 4 * i), cdepth := (w (99 + 4 * i)).setWidth 20 }
    trapCause := (w 0x70).setWidth 8, trapAddr := w 0x71, trapPc := w 0x72, tvec := w 0x73, trapH := (w 0x74).fld 0 1 == 1
    rstkBase := w 0x75, rstkLim := w 0x76, rstkPtr := w 0x77, cdepth := (w 0x79).setWidth 20
    skCells := w 0x7B, skGrow := w 0x7C, skRounds := w 0x7D
    tokens := c.tokens.map fun t =>
      let x := w (0x80 + t.1)
      (t.1, { t.2 with value := x.setWidth 32, praise := x.fld 32 12, pwait := x.fld 44 12 })
    bars := (List.range 128).filterMap fun b =>
      let x := w (0xC0 + b)
      if x = 0 then none else some (b, { gc := x.setWidth 8, pend := x.fld 8 1 == 1, tgt := BitVec.ofNat 32 (x.fld 32 32) })
    vring := c.vring.ofFrame fun i => w (0x140 + i)
    mring := c.mring.ofFrame fun i => w (0x144 + i)
    cring := c.cring.ofFrame fun i => w (0x148 + i)
    lq := Vector.ofFn fun q =>
      let at_ (i : Nat) : W64 := w (0x150 + 4 * q.val + i)
      { c.lq[q] with
        issued := (at_ 0).toNat, claimed := (at_ 1).toNat, taken := (at_ 2).toNat
        standing := if (at_ 3).fld 0 1 = 1 then c.lq[q].standing else none }
    pushPorts := c.pushPorts.filterMap fun p =>
      let x := w (0x160 + 2 * p.1)
      if x.fld 63 1 = 1 then some (p.1, { p.2 with walk := { p.2.walk with base := x.fld 0 63 }, pos := (w (0x161 + 2 * p.1)).toNat }) else none
    mat := { c.mat with slots := Vector.ofFn fun i =>
      let st := w (0x181 + 4 * i.val)
      { c.mat.slots[i] with
        pass := w (0x180 + 4 * i.val), nan := st.fld 0 1 == 1, inf := st.fld 1 1 == 1, ovf := st.fld 2 1 == 1
        ckv := (w (0x182 + 4 * i.val)).fld 0 1 == 1 } } }

/-- Marks the shapes of entries that exceed the part's maxima (R56). -/
def Ring.markStale (x : Ring) (nmax : Nat) : Ring :=
  let mark (e : Entry) : Entry := if shapeExceeds nmax e.shape then { e with stale := true } else e
  { x with queue := x.queue.map mark, past := x.past.map mark }

/-- Writes one core of a restored slice. -/
def State.restoreCore (s : State) (sk i ck : Nat) (a : Area) : State :=
  let nmax := if (s.pkg (skNode sk)).uv720 then 32 else 64
  let now := s.core ck
  let c := a.core.ofFrame a.frame
  let stale := (List.range 8).filter fun n => shapeExceeds nmax (c.sh.toList.getD n 0)
  let sh := stale.foldl (fun (v : Vector W64 8) n => let j : Fin 8 := Fin.ofNat 8 n; v.set j (v[j] ||| nat64 (2 ^ 62))) c.sh
  let c := { c with
    sh := sh, slice := if c.run == .idle then none else some sk, slcore := if c.run == .idle then 0 else i
    rc := now.rc, view := now.view, images := now.images, upsets := now.upsets, thread := now.thread + 1, mring := c.mring.markStale nmax }
  let lo := padBase ck
  let s := s.wipe lo (lo + padSize)
  let s := s.setBytes lo a.pad
  let s := { s with
    tags := a.tags.foldl (fun t x => NSet.add t (x + lo / 8)) s.tags
    poison := a.poison.foldl (fun t x => NSet.add t (8 * x + lo)) s.poison }
  let s := s.putCore ck c
  stale.foldl (fun s n => s.record (skNode sk) { s.coreRec ck 0xD7 1 with addr := nat64 n }) s

/-- Of a ganged multiply, the membership and the done bits are saved (R192): its other parts are sent again, to the members that
run the threads that the entry captured. ids are the thread numbers of the slice's cores at the save and now. -/
def Gang.restored (g : Gang) (ids : List (Nat × Nat)) : Gang :=
  { g with
    sent := g.done
    ids := g.members.map fun m => (m, if Tab.getD g.ids m 0 = (ids.getD m (0, 0)).1 then (ids.getD m (0, 0)).2 else 0) }

/-- The ganged multiplies of a restored core. -/
def State.restoreGangs (s : State) (ids : List (Nat × Nat)) (ck : Nat) : State :=
  let c := s.core ck
  s.putCore ck { c with
    mat := { c.mat with parts := [] }
    mring := { c.mring with queue := c.mring.queue.map fun e => { e with gang := e.gang.restored ids } } }

/-- A fault record with the core that it now belongs to. -/
def State.moveFault (s : State) (sk : Nat) (f : FaultRec) : FaultRec :=
  match s.sliceCoreKey sk ((f.words.headD 0).fld 36 8) with
  | some ck => { f with core := ck }
  | none => f

/-- A function's inbox with its entries in their places (R28). -/
def State.installInbox (s : State) (node func : Nat) (b : Inbox) : State :=
  b.entries.foldl (fun s e => s.entryBytes node func e.1 e.2) ((s.putPkg node ((s.pkg node).dropInbox func)).setInbox node func b)

/-- A slice onto which a restore may be made holds no thread: it is newly bound, or held. -/
def State.noThread (s : State) (sk : Nat) : Bool := (s.slice sk).stop == .held || (s.slice sk).fresh

/-- The slice part of an image, and its inbox section, by the lengths in words of its header. -/
def State.readSlice (s : State) (node base : Nat) (hdr : List Byte) : Option (Slice × Inbox) × State :=
  withImage none (s.imageBytes node (base + 64) (8 * (wordAt hdr 1).toNat)) fun b s =>
    withImage none (s.imageBytes node (base + 0x400000) (8 * (wordAt hdr 2).toNat)) fun x s =>
      match Codec.slice.read b, (if x.isEmpty then some {} else Codec.inbox.read x) with
      | some sl, some box => (some (sl, box), s)
      | _, _ => (none, s)

/-- Everything that a checked image holds is written: x is its slice and inbox, from the node that saved it. -/
def State.installSlice (s : State) (node sk : Nat) (x : Slice × Inbox) (areas : List Area) : State :=
  let keys := (s.sliceCores sk).map (node * 256 + ·)
  let live := s.slice sk
  let func := s.sliceFunc sk
  let s := if live.stop == .held || func = 0 then s else s.installInbox node func x.2
  let s := s.putSlice sk { x.1 with
    bound := true, stop := .stopped, await := live.await, saved := live.saved, bindFor := live.bindFor
    faults := x.1.faults.map (s.moveFault sk), late := x.1.late.map (s.moveFault sk) }
  let s := (keys.zip areas).zipIdx.foldl (fun s e => s.restoreCore sk e.2 e.1.1 e.1.2) s
  let ids := (areas.map fun a => a.core.thread).zip (keys.map fun ck => (s.core ck).thread)
  let s := keys.foldl (fun s ck => s.restoreGangs ids ck) s
  let p := s.pkg node
  s.putPkg node { p with faults := p.faults ++ ((areas.flatMap (·.faults)).filter fun f => toHandle ((f.words.headD 0).fld 56 8)).map (s.moveFault sk) }

/-- OP 2: the checks of R322, and where they pass, everything that the image holds is written. -/
def State.ctxRestore (s : State) (node : Nat) (v : W64) : State :=
  let n := ctxSlice v
  let sk := skOf node n
  let base := ctxBase v
  let ncol := if (s.pkg node).uv720 then 32 else 64
  let cores := (s.sliceCores sk).length
  let frameBad (s : State) (a : Nat) : State := (s.ctxRefuse node 2 v).record node (s.sliceRec sk 0xD5 (nat64 a))
  if !(s.slice sk).bound || !s.noThread sk then s.ctxRefuse node 5 v
  else match s.imageBytes node base 64 with
    | (none, s) => frameBad s base
    | (some b, s) =>
      if wordAt b 0 ≠ imageMark then frameBad s base
      else if (wordAt b 3).toNat ≠ cores then s.ctxRefuse node 5 v
      else match s.readAreas node base ncol (List.range cores) with
        | (.error (st, cause, a), s) => (s.ctxRefuse node st v).record node (s.sliceRec sk cause (nat64 a))
        | (.ok areas, s) =>
          match s.readSlice node base b with
          | (none, s) => frameBad s base
          | (some x, s) =>
            let s := (s.installSlice node sk x areas).ctxBegin node 2 v
            (s.putPkg node { s.pkg node with ctxop := some (2, n, base, (wordAt b 4).toNat != node) }).wake (.event (.contextRestoreDone node))

/-- A parked ring of the acting core whose record carries a translation cause is to repeat the translations of its entry (R323, log
entry 103). -/
def State.startRetry (s : State) (r : Nat) : State :=
  let x := s.ring r
  if x.park.any fun p => p.cause / 16 == 4 || p.cause / 16 == 5 then (s.setRing r { x with retry := 1 }).wake (.ring s.cur r) else s

/-- Does something with each ring of a slice's cores. -/
def State.eachRing (s : State) (sk : Nat) (f : State → Nat → State) : State :=
  let cur := s.cur
  { (s.sliceCores sk).foldl (fun s m => f (f (f { s with cur := skNode sk * 256 + m } 0) 1) 2) s with cur := cur }

/-- A ring of a slice is still to repeat the translations of its entry. -/
def State.retriesLeft (s : State) (sk : Nat) : Bool :=
  (s.sliceCores sk).any fun m => [0, 1, 2].any fun r => ((s.core (skNode sk * 256 + m)).ring r).retry == 1

/-- CONTEXT_RESTORE_DONE: parked rings of a moved slice first try again (R323); then STATUS reads 0, and the slice runs. A slice with FUNC 0
runs nothing (R329): its rings are to try again when it is resumed with a function. -/
def execContextRestoreDone (node : Nat) (s : State) : Out :=
  .next (match (s.pkg node).ctxop with
    | some (2, n, base, moved) =>
      let sk := skOf node n
      let again (s : State) : State := s.wake (.event (.contextRestoreDone node))
      if moved then again ((s.putPkg node { s.pkg node with ctxop := some (2, n, base, false) }).eachRing sk State.startRetry)
      else if s.sliceFunc sk ≠ 0 && s.retriesLeft sk then again s
      else
        let s := s.eachRing sk State.passRetry
        let s := s.putPkg node { s.pkg node with ctxop := none }
        let s := s.putSlice sk { s.slice sk with await := false }
        (s.runSlice sk).ctxStatus node 0
    | _ => s)

/-! ### Resume in place, and CTXOP (R324, Table 21.2) -/

/-- OP 3. Rings that were restored while the slice had FUNC 0 first try again, as at the end of a restore (R323, log entry 103). -/
def State.ctxResume (s : State) (node : Nat) (v : W64) : State :=
  let sk := skOf node (ctxSlice v)
  if !(s.slice sk).bound then s.ctxRefuse node 5 v
  else if (s.slice sk).stop != .stopped then s.ctxRefuse node 6 v
  else if s.sliceFunc sk ≠ 0 && s.retriesLeft sk then
    let s := s.ctxBegin node 2 v
    let s := s.putPkg node { s.pkg node with ctxop := some (2, ctxSlice v, ctxBase v, false) }
    (s.eachRing sk fun s r => s.wake (.ring s.cur r)).wake (.event (.contextRestoreDone node))
  else (s.ctxRefuse node 0 v).runSlice sk

/-- A write of CTXOP; one made while an operation runs is ignored (log entry 22). -/
def State.ctxopWrite (s : State) (node : Nat) (v : W64) : State :=
  if (s.pkg node).ctxop.isSome then s
  else match v.fld 0 2 with
    | 1 => s.ctxSave node v
    | 2 => s.ctxRestore node v
    | 3 => s.ctxResume node v
    | _ => s.setPcsr node 0x105 (nat64 ((s.pcsr node 0x105).fld 56 8 * 2 ^ 56 + ctxBase v + v.fld 0 9))

/-- The operations of CTXOP as events; OP and DISCARD are those of the event. -/
def ctxForm (v : W64) (op discard : Nat) : W64 := nat64 (ctxBase v + discard * 2 ^ 8 + ctxSlice v * 4 + op)
def execCtxopSave (node : Nat) (v : BitVec 64) (s : State) : Out := .next (s.ctxopWrite node (ctxForm v 1 0))
def execCtxopHold (node : Nat) (v : BitVec 64) (s : State) : Out := .next (s.ctxopWrite node (ctxForm v 1 1))
def execCtxopRestore (node : Nat) (v : BitVec 64) (s : State) : Out := .next (s.ctxopWrite node (ctxForm v 2 0))
def execCtxopResume (node : Nat) (v : BitVec 64) (s : State) : Out := .next (s.ctxopWrite node (ctxForm v 3 0))

end Sys2Proof.Machine
end

