-- ==== Sys2Proof/Machine/Csr.lean ====
section
/-!
DEFINITION. csrr and csrw over every CSR of Table 8.5 and Table 24.2 (R134, R135, R339).
-/
namespace Sys2Proof.Machine

/-! ### Which CSRs there are, and who may touch them -/

/-- A number that Table 8.5 lists. -/
def csrListed (n : Nat) : Bool :=
  n ≤ 8 || (0x10 ≤ n && n ≤ 0x19) || (0x20 ≤ n && n ≤ 0x23) || (0x30 ≤ n && n ≤ 0x34) || n == 0x40 || n == 0x48 || (0x50 ≤ n && n ≤ 0x52) ||
    (0x100 ≤ n && n ≤ 0x108) || (0x110 ≤ n && n ≤ 0x113) || (0x180 ≤ n && n ≤ 0x1BF)

/-- A listed number behind the last of Table 24.2: Table 8.5 keeps threads and worker cores out of it with 0x11, and no register stands there,
for which R339 gives 0x17. That 0x11 goes first is the model's reading (log entry 104). -/
def csrVacant (n : Nat) : Bool := 0x18A ≤ n

/-- Written by any thread. -/
def csrThreadRw (n : Nat) : Bool := n ∈ [0x20, 0x21, 0x32, 0x33, 0x50, 0x51, 0x52]

/-- Accessible to the Handle alone. -/
def csrHandleOnly (n : Nat) : Bool := (0x104 ≤ n && n ≤ 0x108) || 0x180 ≤ n

/-- The acting core may access the CSR at all. -/
def State.csrAllowed (s : State) (n : Nat) : Bool :=
  if n < 0x100 then true
  else if !s.asFirmware then false
  else !csrHandleOnly n || s.asHandle

/-- The CSR is not read-only for the acting core. -/
def State.csrWritable (s : State) (n : Nat) : Bool :=
  if n < 0x100 then csrThreadRw n || (n == 7 && (s.inHandler || s.asHandle)) || (n == 8 && s.asFirmware)
  else n ∈ [0x102, 0x104, 0x105, 0x106, 0x107, 0x108, 0x110, 0x112, 0x113, 0x184, 0x186, 0x187, 0x189]

/-! ### Values -/

/-- SHAPEMAX (R54). -/
def State.shapeMax (s : State) : W64 := if (s.pkg s.node).uv720 then 0x0020200400802080 else 0x0020200400804080

/-- The slice whose S1ROOT and FLTBASE the acting core sees: its own, or for firmware the one that SLBIND names (log entry
23). -/
def State.csrSlice (s : State) : Nat := s.me.slice.getD (skOf s.node ((s.pcsr s.node 0x102).fld 0 6))

/-- MRDATA: a word of a measurement register. -/
def State.mrData (s : State) : W64 :=
  let sel := s.pcsr s.node 0x184
  let r : Fin 16 := Fin.ofNat 16 (sel.fld 0 4)
  BitVec.ofNat 64 ((s.pkg s.node).mr[r].fld (64 * sel.fld 4 3) 64)

/-- A CSR below 0x100. -/
def State.csrThread (s : State) (n : Nat) : W64 × State :=
  let c := s.me
  match n with
  | 0x00 => if isFirmware s.cur then s.pickW64 else (nat64 (ckCore s.cur), s)
  | 0x01 => (nat64 c.slcore, s)
  | 0x02 => (nat64 s.node, s)
  | 0x03 => (nat64 (s.cycle s.node), s)
  | 0x04 => (s.shapeMax, s)
  | 0x05 => ((s.pkg s.node).ready, s)
  | 0x06 =>
    match c.slice with
    | some sk => if isFirmware s.cur then s.pickW64 else (nat64 ((s.slice sk).model c.slot).condBase, s)
    | none => s.pickW64
  | 0x07 => ((s.slice s.csrSlice).s1root, s)
  | 0x08 => ((s.slice s.csrSlice).fltbase, s)
  | 0x18 => (nat64 c.loops.length, s)
  | 0x19 => (c.cdepth.setWidth 64, s)
  | 0x20 => (c.rstkBase, s)
  | 0x21 => (c.rstkLim, s)
  | 0x22 => (c.rstkPtr, s)
  | 0x23 => (nat64 c.rstk.length, s)
  | 0x30 => (c.trapCause.setWidth 64, s)
  | 0x31 => (c.trapAddr, s)
  | 0x32 => (c.trapPc, s)
  | 0x33 => (c.tvec, s)
  | 0x34 => (flag64 c.trapH, s)
  | 0x40 => (match c.slice with | some sk => nat64 ((s.bindWord sk 7).fld 0 24) | none => 0, s)
  | 0x48 => (flag64 s.einjen, s)
  | 0x50 => (c.skCells, s)
  | 0x51 => (c.skGrow, s)
  | 0x52 => (c.skRounds, s)
  | _ => (c.sh.toList.getD (n - 0x10) 0, s)

/-- The value of a CSR. -/
def State.csrValue (s : State) (n : Nat) : W64 × State :=
  if n < 0x100 then s.csrThread n
  else match n with
    | 0x100 => (0x00FF020001000000, s)
    | 0x101 => (0x00FF020000010000, s)
    | 0x103 => (0x00FF020000400000, s)
    | 0x111 => s.relheadRead s.cur
    | 0x183 => (s.bootStat s.node, s)
    | 0x181 => (BitVec.ofNat 64 (Config.devId s.node).toNat, s)
    | 0x182 => (BitVec.ofNat 64 ((Config.devId s.node).toNat / 2 ^ 64), s)
    | 0x185 => (s.mrData, s)
    | _ => (s.pcsr s.node n, s)

/-- csrr. -/
def execCsrr (d : BitVec 5) (g : BitVec 3) (c : BitVec 12) (s : State) : Out :=
  s.guarded g fun s =>
    let n := c.toNat
    if !csrListed n then s.trap 0x17 (nat64 n)
    else if !s.csrAllowed n then s.wordTrap 0x11 (.csrr d g c)
    else if csrVacant n then s.trap 0x17 (nat64 n)
    else
      let (v, s) := s.csrValue n
      (s.setReg d v).finish

/-! ### Writes -/

def State.setSliceReg (s : State) (f : Slice → Slice) : State :=
  let sk := s.csrSlice
  if skNum sk < 36 then s.putSlice sk (f (s.slice sk)) else s

/-- What a write of a CSR does. -/
def State.csrStore (s : State) (n : Nat) (v : W64) : State :=
  let c := s.me
  match n with
  | 0x07 => s.setSliceReg fun sl => { sl with s1root := v }
  | 0x08 => s.setSliceReg fun sl => { sl with fltbase := v }
  | 0x20 => s.setMe (c.setRstkBase v)
  | 0x21 => s.setMe { c with rstkLim := nat64 (v.fld 3 19 * 8) }
  | 0x32 => s.setMe { c with trapPc := v }
  | 0x33 => s.setMe { c with tvec := v }
  | 0x50 => s.setMe { c with skCells := nat64 (v.fld 0 18) }
  | 0x51 => s.setMe { c with skGrow := nat64 (v.fld 0 4) }
  | 0x52 => s.setMe { c with skRounds := nat64 (v.fld 0 4) }
  | 0x102 => s.slbindWrite s.node v
  | 0x104 => s.preemptWrite s.node v
  | 0x105 => s.ctxopWrite s.node v
  | 0x106 => s.epbindWrite s.node v
  | 0x107 => s.slfreeWrite s.node v
  | 0x108 => s.fnfreeWrite s.node v
  | 0x110 => s.relbaseWrite s.node v
  | 0x112 => s.reltailWrite s.node v
  | 0x113 => s.relovfWrite s.node v
  | 0x184 => s.setPcsr s.node 0x184 (nat64 (v.fld 0 7))
  | 0x186 => s.keyctlWrite s.node v
  | 0x187 => s.setPcsr s.node 0x187 (nat64 (v.toNat / 64 * 64))
  | 0x189 => s.dbgctlWrite s.node v
  | _ => s

/-- csrw. -/
def execCsrw (a : BitVec 5) (g : BitVec 3) (c : BitVec 12) (s : State) : Out :=
  s.guarded g fun s =>
    let n := c.toNat
    if !csrListed n then s.trap 0x17 (nat64 n)
    else if !s.csrAllowed n then s.wordTrap 0x11 (.csrw a g c)
    else if csrVacant n then s.trap 0x17 (nat64 n)
    else if !s.csrWritable n then s.trap 0x18 (nat64 n)
    else if n = 0x108 && s.fnfreeWaits s.node (s.reg a) then s
    else if n = 0x107 && (s.slfreeStart s.node (s.reg a)).slfreeWaits s.node ((s.reg a).fld 0 6) then s.slfreeStart s.node (s.reg a)
    else (s.csrStore n (s.reg a)).finish

end Sys2Proof.Machine
end

