-- ==== Sys2Proof/Machine/Fabric.lean ====
section
/-!
DEFINITION. The fabric between packages and the switches (R279 to R291): requests as they arrive, replies, resends and dead
nodes, held releases, rejoin, deadlock probes, switch failure and readmission, links (R345), attached allocations (R294).
-/
namespace Sys2Proof.Machine

/-! ### Requests and replies (R281 to R284) -/

/-- The request outstanding to a node under a number. -/
def State.outstandingReq (s : State) (src dst seq : Nat) : Option Posted :=
  (Tab.getD (s.pkg src).outstanding dst []).find? (·.seq == seq)

/-- The home has performed the request of a number. -/
def State.performed (s : State) (dst src seq : Nat) : Bool :=
  match s.cachedReply dst src seq with
  | some r => r.seq == seq
  | none => false

/-- Takes an outstanding request away; a thread that has executed end may have waited for it (R330). -/
def State.dropOutstanding (s : State) (src dst seq : Nat) : State :=
  let p := s.pkg src
  let all := Tab.getD p.outstanding dst []
  let left := all.filter (·.seq ≠ seq)
  let s := s.putPkg src { p with outstanding := if left.isEmpty then p.outstanding.del dst else p.outstanding.put dst left }
  match all.find? (·.seq == seq) with
  | some q => s.wakeEnded q.core
  | none => s

/-- A release may be performed: every write of its stream with a lower index has been (R283). -/
def State.releaseReady (s : State) (dst src : Nat) (q : Posted) : Bool :=
  !q.counts || (Tab.getD (s.pkg src).outstanding dst []).all fun o =>
    o.core ≠ q.core || o.seq == q.seq || !laterSeq q.index o.index || s.performed dst src o.seq

/-- Performs a posted write at its home, with the stamps that it leaves, and caches its reply. -/
def State.performPosted (s : State) (dst src : Nat) (q : Posted) : State :=
  let bs := leBytes q.size q.value.toNat
  let s := match region q.pa with
    | .control n off => s.controlPut n off bs
    | _ => s.poke (if q.enc then s.lineKey q.pa else none) q.pa bs
  let s := match q.alt with
    | some b => (s.mirrorWrite (dst - 0xA0) b bs src q.seq).mirrorDone (dst - 0xA0)
    | none => s
  let s := (s.noteWrite q.core { pa := q.pa, left := q.size, chk := q.chk } q.size).addStamps q.pa q.size q.stamps
  let p := s.pkg dst
  let s := if dst < 0x90 then s.putPkg dst { p with held := p.held.filter fun h => !(h.src == src && h.post.seq == q.seq) } else s
  s.cacheReply dst src q.seq 0

/-- Performs the held releases of a home that have become ready. -/
def State.performHeld (s : State) (dst : Nat) : State :=
  (s.pkg dst).held.foldl (fun s h =>
    if s.releaseReady dst h.src h.post then (s.performPosted dst h.src h.post).dropOutstanding h.src dst h.post.seq else s) s

/-- A posted write has failed for good (R282, R283): its core is told, and the releases behind it in its stream, which can never be
performed, fail with it (log entry 105). Those that a dead node has lost the write of are recorded with 0x95. -/
def State.failRequest (s : State) (src dst : Nat) (q : Posted) (dead : Bool) : State :=
  let s := (s.dropOutstanding src dst q.seq).failPosted q
  let behind := (Tab.getD (s.pkg src).outstanding dst []).filter fun o => o.counts && o.core == q.core && laterSeq o.index q.index
  behind.foldl (fun s o =>
    let p := s.pkg dst
    let s := s.putPkg dst { p with held := p.held.filter fun h => !(h.src == src && h.post.seq == o.seq) }
    let s := s.dropOutstanding src dst o.seq
    if dead then s.losePosted src dst [q] o else s.failPosted o) s

/-- A switch that has declared a destination dead drops a request for it, and tells its source (R282): the source takes the notice as
its failure, and records it as a request for a dead node. -/
def State.dropNotice (s : State) (src dst seq : Nat) (q : Posted) : State :=
  let s := { s with agenda := s.agenda.filter (· ≠ Happening.event (.fabricRequestReceive src dst seq)) }
  let s := s.record src { s.coreRec q.core 0xA0 6 with kind := 3, addr := BitVec.ofNat 64 q.pa, peer := dst }
  s.failRequest src dst q true

/-- Cycles of the times that the fabric keeps (R282, R284, R285), at 2,000 of the arithmetic clock a microsecond (log entry 16). -/
def usOf (n : Nat) : Nat := n * 2000

/-- A request that is to be answered is still on its way after 40 µs, or is lost: its source looks at it again in time (R282). -/
def State.resendLater (s : State) (src dst seq : Nat) : State := s.wake (.event (.retransmitTimeout src dst seq))

/-- A home performs a request that has reached it, unless it refuses it, or holds it as a release (R280, R283). -/
def State.arrive_ (s : State) (src dst : Nat) (q : Posted) (answer : State → State) : State :=
  let party : Party := { ck := q.core, fw := q.fw, func := q.func }
  match s.lostAt src q.func q.va.toNat with
  | some w => (s.refuseLost party q.va.toNat w).failRequest src dst q false
  | none =>
  match s.homeRefuses party q.pa q.size 1 q.enc with
  | some c => (s.refuse party q.pa c).failRequest src dst q false
  | none =>
    if s.releaseReady dst src q then answer (s.performPosted dst src q)
    else
      let p := s.pkg dst
      s.putPkg dst { p with held := p.held.filter (fun h => !(h.src == src && h.post.seq == q.seq)) ++ [{ src := src, post := q }] }

/-- A home receives a request and performs it, answers it from its reply cache, or drops it (R281). A packet older than 200 µs is
dropped by its switch, or by the Border with 0xA6 (R284); one for a package that is quiet is dropped (R285). The next fate of the
environment says whether the packet or its answer is lost on the way. -/
def State.receive (s : State) (src dst seq : Nat) : State :=
  match s.outstandingReq src dst seq with
  | none => s
  | some q =>
    if usOf 200 < s.clock - q.sent then
      let (border, s) := s.pickBool
      (if border && dst < 0x90 then s.record dst { cause := 0xA6, sev := sevOf 0xA6, unit := 6, peer := src } else s).resendLater src dst seq
    else if (s.pkg dst).quiet then s.resendLater src dst seq
    else match s.way src dst with
    | (.lost, s) => s.resendLater src dst seq
    | (.dropped, s) => s.dropNotice src dst seq q
    | (.through, s) =>
      let (fate, s) := s.takeFate
      if fate = 1 then s.resendLater src dst seq
      else
        let answer (s : State) : State := if fate = 2 then s.resendLater src dst seq else (s.dropOutstanding src dst seq).performHeld dst
        match s.cachedReply dst src seq with
        | some r =>
          -- the answer is sent again
          if r.seq = seq then answer (s.cacheReply dst src seq r.reply)
          else if laterSeq r.seq seq then
            -- older than the reply cache: answered with an error (Table 17.3)
            (s.record dst { s.coreRec q.core 0x99 6 with kind := 3, addr := BitVec.ofNat 64 q.pa, peer := src }).failRequest src dst q false
          else s.arrive_ src dst q answer
        | none => s.arrive_ src dst q answer

/-- FABRIC_REQUEST_RECEIVE. -/
def execFabricRequestReceive (src dst seq : Nat) (s : State) : Out := .next (s.receive src dst seq)

/-- The reply of a number that a home keeps was sent more than 200 µs ago: its packet is not delivered any more (R284). -/
def State.replyOld (s : State) (dst src seq : Nat) : Bool :=
  match s.cachedReply dst src seq with
  | some r => r.seq == seq && decide (usOf 200 < s.clock - r.sent)
  | none => false

/-- REPLY_RECEIVE (R284): a reply without an outstanding request is dropped and recorded; one older than 200 µs does not arrive. -/
def execReplyReceive (src dst seq : Nat) (s : State) : Out :=
  .next (if s.replyOld dst src seq then s
    else match s.outstandingReq src dst seq with
    | some _ => if s.performed dst src seq then s.dropOutstanding src dst seq else s
    | none => s.record src { cause := 0xA8, sev := sevOf 0xA8, unit := 6, peer := dst })

/-- RETRANSMIT_TIMEOUT (R282): 40 µs after a send the request is sent again; the fourth unanswered send declares the destination
dead. -/
def execRetransmitTimeout (src dst seq : Nat) (s : State) : Out :=
  .next (match s.outstandingReq src dst seq with
    | none => s
    | some q =>
      if s.clock - q.sent < usOf 40 then s.resendLater src dst seq
      else if 4 ≤ q.sends then s.declareDead src dst q.pa
      else
        let p := s.pkg src
        let l := (Tab.getD p.outstanding dst []).map fun o => if o.seq = seq then { o with sends := o.sends + 1, sent := s.clock } else o
        (s.putPkg src { p with outstanding := p.outstanding.put dst l }).later (.event (.fabricRequestReceive src dst seq)))

/-- PACKET_RESIDENCY_DROP (R284): a switch drops a request older than 200 µs; its source sends it again in time. -/
def execPacketResidencyDrop (src dst seq : Nat) (s : State) : Out :=
  .next (match s.outstandingReq src dst seq with
    | none => s
    | some q =>
      if usOf 200 < s.clock - q.sent && decide (Happening.event (.fabricRequestReceive src dst seq) ∈ s.agenda) then
        { s with agenda := s.agenda.filter (· ≠ Happening.event (.fabricRequestReceive src dst seq)) }.resendLater src dst seq
      else s)

/-- HELD_RELEASE_PERFORM (R283). -/
def execHeldReleasePerform (dst src seq : Nat) (s : State) : Out :=
  .next (match (s.pkg dst).held.find? fun h => h.src == src && h.post.seq == seq with
    | none => s
    | some h => if s.releaseReady dst src h.post then (s.performPosted dst src h.post).dropOutstanding src dst seq else s)

/-- A package's port to a switch has been down for 100 µs (R282, R289). -/
def State.portDead (s : State) (node sw : Nat) : Bool :=
  match s.downSince node sw with
  | some t => usOf 100 ≤ s.clock - t
  | none => false

/-- SWITCH_PORT_DOWN_TIMEOUT (R282): the switch declares the package dead once its port to it has been down for 100 µs, and drops
every packet for it from now on. -/
def execSwitchPortDownTimeout (sw node : Nat) (s : State) : Out :=
  let w := s.switch sw
  .next (if s.portDead node sw then s.putSwitch sw { w with portsDown := w.portsDown.add node } else s)

/-- A switch that a package sends through has declared a node dead. -/
def State.declaredDead (s : State) (src dst : Nat) : Bool := (s.ports src).any fun w => (s.switch w).portsDown.has dst

/-- SWITCH_DROP_NOTICE (R282): the source takes the notice, of a switch that has declared the destination dead, as the failure of the
request. -/
def execSwitchDropNotice (src dst seq : Nat) (s : State) : Out :=
  .next (match s.outstandingReq src dst seq with
    | none => s
    | some q => if s.declaredDead src dst then s.dropNotice src dst seq q else s)

/-! ### Rejoin (R285) -/

/-- Every node that a pod can have: 144 packages and 18 switches (R59). -/
def allNodes : NSet := List.range 144 ++ (List.range 18).map (· + 0xA0)

/-- REJOIN_QUIET_EXPIRE: the 200 µs since the links were trained are over; the notice goes to every node and every switch, and
those that the pod lacks never acknowledge it (R304). -/
def execRejoinQuietExpire (node : Nat) (s : State) : Out :=
  let p := s.pkg node
  .next (if p.quiet && (List.range 18).any (s.portUp node) && usOf 200 ≤ s.clock - p.rejoinAt then
    s.putPkg node { p with quiet := false, unacked := allNodes.del node, rejoinAt := s.clock, noticed := [] }
  else s)

/-- What a node or a switch does with the rejoin notice of a package, before it acknowledges. -/
def State.rejoinHome (s : State) (home src : Nat) : State :=
  let old (t : Tab Reply) : Tab Reply := t.filter fun e => e.1 / 4096 ≠ src
  if 0xA0 ≤ home then
    let w := s.switch (home - 0xA0)
    s.putSwitch (home - 0xA0) { w with replies := old w.replies, portsDown := w.portsDown.del src }
  else
    let p := s.pkg home
    let gone := Tab.getD p.outstanding src []
    let s := s.putPkg home { p with
      replies := old p.replies, outstanding := p.outstanding.del src, seqTo := p.seqTo.del src, dead := p.dead.del src
      streams := p.streams.filter fun e => e.1 % 256 ≠ src
      held := p.held.filter fun h => h.src ≠ src }
    let fail (s : State) (ck pa : Nat) : State :=
      s.record home { s.coreRec ck 0xA5 6 with kind := 3, addr := BitVec.ofNat 64 pa, peer := src }
    let s := { s with agenda := s.agenda.filter fun h => match h with
      | .event (.fabricRequestReceive a b _) => !(a == home && b == src)
      | _ => true }
    let s := gone.foldl (fun s q => (fail s q.core q.pa).failPosted q) s
    let reads := (s.cores.filter fun e => ckNode e.1 == home).flatMap fun e => (e.2.rldsTo src).map fun a => (e.1, a)
    let s := (reads.foldl (fun s r => fail s r.1 r.2) s).failRlds home src 0xA5
    -- tagged requests of either side that wait at the other (R285, 0x9C)
    let theirs := s.tagQ.filter fun t => ckNode t.core == src && 8 * t.word / 2 ^ 48 == home
    let ours := s.tagQ.filter fun t => !t.gone && ckNode t.core == home && 8 * t.word / 2 ^ 48 == src
    let s := { s with tagQ := s.tagQ.filter fun t => !(ckNode t.core == src && 8 * t.word / 2 ^ 48 == home) }
    let s := theirs.foldl (fun s t => s.record home { s.coreRec t.core 0x9C 7 with kind := 3, addr := BitVec.ofNat 64 (8 * t.word), peer := src }) s
    ours.foldl (fun s t => (fail s t.core (8 * t.word)).answerTagged t.core (.refused 0x60)) s

/-- A notice of a package, which goes through every switch that it sends through, reaches a node: a switch by its own port, a package that
accepts packets through any of them (R285). -/
def State.noticeReaches (s : State) (src home : Nat) : Bool :=
  if 0xA0 ≤ home then s.portUp src (home - 0xA0) else !(s.pkg home).quiet && (s.ports src).any fun w => s.wayBy home w == .through

/-- REJOIN_NOTICE: a node of the pod takes the notice. -/
def execRejoinNotice (home src : Nat) (s : State) : Out :=
  .next (if (s.pkg src).unacked.has home && decide (home ∈ s.nodes) && s.noticeReaches src home then
    let s := s.rejoinHome home src
    s.putPkg src { s.pkg src with noticed := (s.pkg src).noticed.add home }
  else s)

/-- REJOIN_ACK: src, which has taken the notice, acknowledges it to the rejoining package. -/
def execRejoinAck (node src : Nat) (s : State) : Out :=
  let p := s.pkg node
  .next (if p.noticed.has src then s.putPkg node { p with unacked := p.unacked.del src } else s)

/-- REJOIN_ACK_TIMEOUT: a node that has not acknowledged within 1 ms is declared dead. -/
def execRejoinAckTimeout (node src : Nat) (s : State) : Out :=
  let p := s.pkg node
  .next (if p.unacked.has src && usOf 1000 ≤ s.clock - p.rejoinAt then
    (s.putPkg node { p with unacked := p.unacked.del src }).declareDead node src (src * 2 ^ 48)
  else s)

/-! ### Deadlock probes (R286) -/

/-- The oldest head of a router that is blocked by now. -/
def State.blockedHead (s : State) (node router : Nat) : Option (Nat × Nat) :=
  (s.pkg node).heads.find? fun h => h.1 == router && decide (h.2 ≤ s.clock)

/-- PROBE_FIRE: the head of a router's input queue has not moved for 2,048 cycles, and a probe is fired. It never drops, reorders
or delays a packet; the reliability engine counts it, under no cause code. -/
def execProbeFire (node router : Nat) (s : State) : Out :=
  let p := s.pkg node
  .next (match s.blockedHead node router with
    | some h => if 2048 ≤ s.clock - h.2 then s.putPkg node { p with probes := p.probes + 1, fired := p.fired.add router } else s
    | none => s)

/-- PROBE_RETURN: a fired probe's blocked head takes the reserve entry (0x9A), or waits where it is occupied (0x9B). Whether an
earlier head still holds the entry is a free choice. -/
def execProbeReturn (node router : Nat) (s : State) : Out :=
  let p := s.pkg node
  .next (match s.blockedHead node router with
    | none => s
    | some h =>
      let moved : Package := { p with heads := p.heads.erase h, fired := p.fired.del router, reserve := p.reserve.add router }
      if !p.fired.has router then s
      else if p.reserve.has router then
        let (free, s) := s.pickBool
        if free then (s.putPkg node moved).count node 0x9A else s.count node 0x9B
      else (s.putPkg node moved).count node 0x9A)

/-! ### Switch failure (R80, R289, R290) -/

/-- The STATE of an entry after a switch of it has failed; none where it stays. -/
def State.entryAfter (s : State) (node func e sw : Nat) : Option Nat :=
  let x := s.satEntry node func e
  let first := s.firstGone node func e
  if s.satFree node func e || x.state = 3 || !(x.spaces.any fun c => c.1 == sw) then none
  else if x.place ≠ 2 then some 3
  else
    let other := if x.swa = sw then x.swb else x.swa
    if x.state = 1 then some (if (s.pkg node).failedSw.has other then 3 else 2)
    else if sw = (if first then x.swb else x.swa) then some 3
    else none

/-- Changes one entry; contexts in a lost allocation answer with STATE 3 and go (R220, R287). -/
def State.loseEntry (s : State) (node func e sw st : Nat) : State :=
  let x := s.satEntry node func e
  let s := s.putSat node func e ({ x with state := st } : SatEntry).words
  let p := s.pkg node
  let s := if st = 2 && x.swa = sw then s.putPkg node { p with firstLost := p.firstLost.add (func * 256 + e) } else s
  if st = 3 && x.place = 0 then
    let s := s.answerWaiters sw x.offa (x.offa + x.len) 3
    let w := s.switch sw
    s.putSwitch sw { w with ctxs := w.ctxs.filter fun c => c.1 < x.offa || x.offa + x.len ≤ c.1 }
  else s

/-- The record of a changed entry. -/
def State.entryRecord (s : State) (node func e sw st : Nat) : State :=
  let cause := if st = 3 then 0xBB else 0xBA
  s.record node {
    cause := cause, sev := sevOf cause, func := func, slice := ((s.sliceOfFunc node func).map skNum).getD 63, unit := 10, kind := 1
    addr := BitVec.ofNat 64 (s.satEntry node func e).vbase, peer := 0xA0 + sw }

/-- A write of a mirror that was outstanding to its first switch when that failed is resent to the second, or fails with the others,
by free choice; SWB answers it from its cache, if it holds it already (R288, log entry 95). -/
def State.resendMirror (s : State) (me sw : Nat) : State :=
  ((Tab.getD (s.pkg me).outstanding (0xA0 + sw) []).filter (·.alt.isSome)).foldl (fun s q =>
    let b := q.alt.getD 0
    let dst := b / 2 ^ 48
    let (go, s) := s.pickBool
    if !go || (s.pkg me).dead.has dst || (s.pkg me).failedSw.has (dst - 0xA0) || !s.portUp me (dst - 0xA0) || !s.releaseReady (0xA0 + sw) me q then s
    else (if s.performed dst me q.seq then s else s.performPosted dst me { q with pa := b, alt := none }).dropOutstanding me (0xA0 + sw) q.seq) s

/-- What a package does on its own declaration or on the notice (R289), in this order: it stops sending to the switch, and the requests
outstanding to it fail; the entries that use it change; the records. -/
def State.failSwitch (s : State) (node sw : Nat) : State :=
  let p := s.pkg node
  if p.failedSw.has sw then s
  else
    let s := ((s.putPkg node { p with failedSw := p.failedSw.add sw }).resendMirror node sw).failOutstanding node (0xA0 + sw) 0xB9
    let changed := (List.range 37).flatMap fun f => (List.range 256).filterMap fun e => (s.entryAfter node f e sw).map fun st => (f, e, st)
    let s := changed.foldl (fun s c => s.loseEntry node c.1 c.2.1 sw c.2.2) s
    let s := s.record node { cause := 0xB9, sev := sevOf 0xB9, unit := 10, addr := BitVec.ofNat 64 sw, peer := 0xA0 + sw }
    changed.foldl (fun s c => s.entryRecord node c.1 c.2.1 sw c.2.2) s

/-- SWITCH_FAILURE_DECLARE (R289): the package's port to the switch has been down for 100 µs, or the switch has sent a memory-lost
notice, of a loss that the environment has in store for it. The package sends a failure notice to every other package. -/
def execSwitchFailureDeclare (node sw : Nat) (s : State) : Out :=
  let (u, t) := s.takeUpset (node * 256 + 144) 16
  let s := if u.isSome && sw < 18 then t.putSwitch sw { t.switch sw with lost := true } else s
  .next (if sw < 18 && (s.portDead node sw || (s.switch sw).lost) && !(s.pkg node).failedSw.has sw then
    let s := s.failSwitch node sw
    (s.nodes.filter fun n => n < 0x90 && n != node).foldl (fun s n => s.later (.event (.switchFailureNotice n sw))) s
  else s)
/-- A package that takes a switch for failed has sent a notice of it, and there is a way for it through another switch (R289). -/
def State.failureTold (s : State) (node sw : Nat) : Bool :=
  !(s.pkg node).quiet && s.nodes.any fun n => n < 0x90 && n != node && (s.pkg n).failedSw.has sw && (s.ports n).any fun w => w != sw && s.wayBy node w == .through

/-- SWITCH_FAILURE_NOTICE. -/
def execSwitchFailureNotice (node sw : Nat) (s : State) : Out := .next (if sw < 18 && s.failureTold node sw then s.failSwitch node sw else s)

/-- MIRROR_ACK (R288): SWB has the bytes of a mirrored write, and SWA answers. -/
def execMirrorAck (sw idx : Nat) (s : State) : Out :=
  let w := s.switch sw
  .next (match w.mirror[idx]? with
    | none => s
    | some m => (s.putSwitch sw { w with mirror := w.mirror.eraseIdx idx }).mirrorPut m)

/-- A failed switch empties its memory, which every package of the pod takes for failed: it forgets its allocations and contexts, and
its bytes read as zero. One that a package still uses does not (log entry 54). -/
def State.emptySwitch (s : State) (sw : Nat) : State :=
  if (s.nodes.filter (· < 0x90)).all fun n => (s.pkg n).failedSw.has sw || (s.pkg n).quiet then
    (s.wipe ((0xA0 + sw) * 2 ^ 48) ((0xA0 + sw) * 2 ^ 48 + 2 ^ 37)).putSwitch sw
      { replies := (s.switch sw).replies, portsDown := (s.switch sw).portsDown }
  else s

/-- The switch reports its memory empty. -/
def Switch.isEmpty (w : Switch) : Bool := w.used.isEmpty && w.ctxs.isEmpty && !w.lost

/-- SWITCH_READMIT (R346): the Handle of a package readmits a failed switch whose port is ready and whose memory is empty, and sends
the notice to the others. -/
def State.readmit (s : State) (node sw : Nat) : State :=
  if 18 ≤ sw || !(s.pkg node).failedSw.has sw || (s.pkg node).ready.fld (18 + sw) 1 = 0 then s
  else
    let s := s.emptySwitch sw
    if !(s.switch sw).isEmpty then s
    else
      let p := s.pkg node
      let others := s.nodes.filter fun n => n < 0x90 && n != node
      let s := s.putPkg node { p with
        failedSw := p.failedSw.del sw, readmits := others.foldl (fun l n => l.add (sw * 256 + n)) p.readmits }
      others.foldl (fun s n => s.later (.event (.readmitNotice n sw))) s

def execSwitchReadmit (node sw : Nat) (s : State) : Out := .next (s.readmit node sw)

/-- READMIT_NOTICE: a package that a notice has been sent to clears its failed mark for the switch, and then acknowledges. -/
def execReadmitNotice (node sw : Nat) (s : State) : Out :=
  let p := s.pkg node
  .next (if s.pkgs.any fun q => q.2.readmits.has (sw * 256 + node) then
    let s := s.putPkg node { p with failedSw := p.failedSw.del sw }
    { s with pkgs := s.pkgs.mapVals fun q => { q with readmits := q.readmits.del (sw * 256 + node) } }
  else s)

/-! ### Links (R291, R345) -/

/-- A bit of READY that stands for a function (Table 24.5). -/
def readyBit (l : Nat) : Bool := l ≤ 7 || (12 ≤ l && l ≤ 43)

def State.setReady (s : State) (node l : Nat) (v : Bool) : State :=
  let p := s.pkg node
  s.putPkg node { p with ready := W64.withField p.ready (BitVec.ofNat 64 (if v then 2 ^ l else 0)) l 1 }

/-- The record of a fabric port, with the die that carries it (R277). -/
def State.portRecord (s : State) (node cause link : Nat) : State :=
  s.record node { cause := cause, sev := sevOf cause, unit := 6, die := portDie (link - 18), addr := BitVec.ofNat 64 (link - 18), peer := 0xA0 + (link - 18) }

/-- LINK_READY: link is the number of the function's bit in READY. A fabric port may come up on repaired lanes (0xAA), by free
choice; a rejoining package's 200 µs begin with its last port (R285). -/
def execLinkReady (node link : Nat) (s : State) : Out :=
  .next (if !readyBit link then s
    else
      let s := s.setReady node link true
      let p := s.pkg node
      let s := s.putPkg node { p with downAt := p.downAt.del link, rejoinAt := if p.quiet && 18 ≤ link && link ≤ 35 then s.clock else p.rejoinAt }
      if 18 ≤ link && link ≤ 35 then
        let (repaired, s) := s.pickBool
        if repaired then s.portRecord node 0xAA link else s
      else s)

/-- LINK_DOWN; a fabric port that goes down is recorded with 0xA9. -/
def execLinkDown (node link : Nat) (s : State) : Out :=
  .next (if !readyBit link then s
    else
      let s := s.setReady node link false
      let p := s.pkg node
      let s := s.putPkg node { p with downAt := p.downAt.put link s.clock }
      if 18 ≤ link && link ≤ 35 then s.portRecord node 0xA9 link else s)

/-- The dies of a pair, in the order of the pairs' READY bits. -/
def diePair (pair : Nat) : Nat × Nat :=
  match pair with
  | 0 => (0, 1) | 1 => (0, 2) | 2 => (0, 3) | 3 => (1, 2) | 4 => (1, 3) | _ => (2, 3)

/-- The die of a pair at whose other end a core stands, if it does. -/
def otherDie (pair ck : Nat) : Option Nat :=
  let (a, b) := diePair pair
  let d := dieOf (ckCore ck)
  if isFirmware ck then none else if d = a then some b else if d = b then some a else none

/-- Whether an access of a core goes over a die pair's link: to its home on the other die, or to the port there that its packet leaves
through (R277, R291). Which port one to another package takes is a free choice of those of the other die and the rest. -/
def State.overPair (s : State) (pair ck pa : Nat) : Bool × State :=
  match otherDie pair ck with
  | none => (false, s)
  | some d =>
    let dst := pa / 2 ^ 48
    if dst = ckNode ck then ((homeUnit pa).2 == d, s)
    else if 0xA0 ≤ dst then (portDie (dst - 0xA0) == d, s)
    else
      let there := (s.ports (ckNode ck)).map (portDie · == d)
      if there.all id then (!there.isEmpty, s) else if there.any id then s.pickBool else (false, s)

/-- Something for every pending data read of an rld of a package's cores: with the core, its queue, its place in it, and its addresses. -/
def State.eachRld (s : State) (node : Nat) (f : State → Nat → Fin 4 → Nat → W64 → W64 → State) : State :=
  (s.cores.filter fun e => ckNode e.1 == node).foldl (fun s e =>
    (List.finRange 4).foldl (fun s q => e.2.lq[q].slots.foldl (fun s x => match x.2 with
      | .pending pa va _ _ _ => f s e.1 q x.1 pa va
      | _ => s) s) s) s

/-- The data read of an rld returns an error mark. -/
def Core.markRld (c : Core) (q : Fin 4) (i : Nat) (va : W64) (cause : Nat) : Core :=
  { c with lq := c.lq.set q { c.lq[q] with slots := c.lq[q].slots.put i (.sent (.mark va cause)) } }

/-- Requests outstanding on a die pair's link fail (R291): data reads of rlds, posted stores, waiting tagged requests. -/
def State.cutPair (s : State) (node pair : Nat) : State :=
  let s := s.eachRld node fun s ck q i pa va =>
    let (hit, s) := s.overPair pair ck pa.toNat
    if hit then s.putCore ck ((s.core ck).markRld q i va 0xAC) else s
  let s := ((s.pkg node).outstanding.flatMap fun e => e.2.map (e.1, ·)).foldl (fun s x =>
    let (hit, s) := s.overPair pair x.2.core x.2.pa
    if hit then s.failRequest node x.1 x.2 false else s) s
  (s.tagQ.filter fun t => !t.gone && ckNode t.core == node).foldl (fun s t =>
    let (hit, s) := s.overPair pair t.core (8 * t.word)
    if hit then s.answerTagged t.core (.refused 0x60) else s) s

/-- D2D_LINK_FAIL (R291): a die pair's link fails, after its replay limit, if that is what failed it (0xAB, by free choice).
Requests outstanding on it return error responses. Later traffic goes through a third die. -/
def execD2dLinkFail (node pair : Nat) (s : State) : Out :=
  .next (if pair < 6 then
    let p := s.pkg node
    let s := (s.putPkg node { p with d2dDown := p.d2dDown.add pair }).setReady node (12 + pair) false
    let pairRec (c : Nat) : Rec := { cause := c, sev := sevOf c, unit := 6, addr := BitVec.ofNat 64 pair }
    let (limit, s) := s.pickBool
    let s := if limit then s.record node (pairRec 0xAB) else s
    (s.record node (pairRec 0xAC)).cutPair node pair
  else s)

/-! ### Attached allocations (R294) -/

/-- An entry that has just been written names a switch that its package takes for failed: it changes as at the failure (R294). -/
def State.failEntry (s : State) (node func e sw : Nat) : State :=
  match (s.pkg node).failedSw.has sw, s.entryAfter node func e sw with
  | true, some st => (s.loseEntry node func e sw st).entryRecord node func e sw st
  | _, _ => s

/-- SWITCH_ATTACH: a live entry of an owner's table is attached to a function on a package. -/
def State.attach (s : State) (owner ofunc entry node func : Nat) (vbase : W64) : State :=
  let x := s.satEntry owner ofunc entry
  let v := vbase.toNat
  let used := (List.range 256).filter fun e => !s.satFree node func e
  let overlaps : Bool := used.any fun e => let y := s.satEntry node func e; v < y.vbase + y.len && y.vbase < v + x.len
  if 36 < ofunc || 36 < func || 255 < entry || x.state ≠ 1 || overlaps || v % 65536 ≠ 0 || v < 0xF00000000000 || 2 ^ 48 < v + x.len then s
  else match (List.range 256).find? (s.satFree node func) with
    | none => s
    | some e =>
      let s := s.putSat node func e ({ x with vbase := v } : SatEntry).words
      let m := satBlock node func + 0x2000 + e / 8
      let att := leNat (s.bytes m 1)
      let s := s.setBytes m (leBytes 1 (if bit att (e % 8) then att else att + 2 ^ (e % 8)))
      let s := x.spaces.foldl (fun s c =>
        let w := s.switch c.1
        s.putSwitch c.1 { w with used := w.used.map fun (u : SwSpace) => if u.lo = c.2.1 then { u with holders := (node, func, v) :: u.holders } else u }) s
      x.spaces.foldl (fun s c => s.failEntry node func e c.1) s

def execSwitchAttach (owner ofunc entry node func : Nat) (vbase : BitVec 64) (s : State) : Out :=
  .next (s.attach owner ofunc entry node func vbase)

end Sys2Proof.Machine
end

