-- ==== Sys2Proof/Machine/Boot.lean ====
section
/-!
DEFINITION. Package reset and boot (R337), the Handle pair and the worker cores (R336), management messages (R343, R344),
tenant key delivery, throttling (R346), patrol scrub (Table 20.14) and the forward changes of LIFECYCLE (R341).
-/
namespace Sys2Proof.Machine

/-! ### Firmware images (Table 24.1) -/

def Package.flashBytes (p : Package) (a n : Nat) : List Byte := p.flash.read a n
def Package.flashWord (p : Package) (a : Nat) : Nat := leNat (p.flashBytes a 8)

/-- Flash offset of an image: 16 MiB for each (log entry 60). -/
def imageOff (i : Nat) : Nat := i * 2 ^ 24

/-- Load address of an image, which is its entry point (log entry 60). -/
def Package.imageEntry (p : Package) (i : Nat) : W64 := BitVec.ofNat 64 (p.flashWord (imageOff i + 0x18))

def Package.imageBody (p : Package) (i : Nat) : List Byte := p.flashBytes (imageOff i + 0x100) (p.flashWord (imageOff i + 0x10))

/-- The checks of the boot ROM on an image. -/
def Package.imageGood (p : Package) (i : Nat) : Bool :=
  let o := imageOff i
  let signer := p.flashBytes (o + 0x20) 32
  let key : BitVec 256 := BitVec.ofNat 256 (leNat signer)
  let sig : BitVec 512 := BitVec.ofNat 512 (leNat (p.flashBytes (o + 0x40) 64))
  let endorse : BitVec 512 := BitVec.ofNat 512 (leNat (p.flashBytes (o + 0x80) 64))
  p.flashWord o == 0x4B524431 && p.flashWord (o + 8) == i &&
    (Config.sha512 signer == Config.signHash || Config.ed25519 Config.rootKey signer endorse) &&
    Config.ed25519 key (bytes64 (Config.sha512 (p.flashBytes o 64 ++ p.imageBody i))) sig

/-! ### The cores of the firmware complex -/

/-- A firmware core at an entry point: its registers and predicates are free values; its rings stay (R336). -/
def State.restartCore (s : State) (ck : Nat) (entry : W64) : State :=
  let s := s.dropTagged ck
  let c := s.core ck
  let s := { s with nondet := s.nondet + 40 }
  (s.putCore ck { c with
    tokens := c.tokens.mapVals fun t => { t with claims := t.claims.filter (· ≠ .access) }
    run := .running, stop := none, fault := none, wait := none, pushHeld := none, lateErr := [], pc := entry, loops := [], rstk := [], trapH := false
    s := (Vector.ofFn fun (i : Fin 32) => Config.freeW64 (s.nondet - 40 + i.val)).set 0 0
    p := (Vector.ofFn fun (i : Fin 8) => Config.freeBool (s.nondet - 8 + i.val)).set 0 true }).wake (.core ck)

/-- The restart sequence of R29: every entry in hand returns with REPRISE. -/
def State.repriseAll (s : State) (node : Nat) : State :=
  let p := s.pkg node
  s.putPkg node { p with inboxes := p.inboxes.mapVals Inbox.saved, taken := [] }

/-- LOCKSTEP_MISMATCH (R336). -/
def execLockstepMismatch (node : Nat) (s : State) : Out :=
  let ck := node * 256 + 144
  .next (if s.bootFailed node then s else
    let s := s.record node (handleRec 0xF0 (s.core ck).pc)
    let s := (s.repriseAll node).restartCore ck ((s.pkg node).imageEntry 0)
    s.record node (handleRec 0xFC 0))

/-- An entry in hand returns with REPRISE. -/
def State.repriseEntry (s : State) (node e : Nat) : State :=
  let b := s.inbox node (e / 256)
  match b.entries.get? (e % 256) with
  | some x => s.setInbox node (e / 256) { b with entries := b.entries.put (e % 256) { x with inhand := false, reprise := true } }
  | none => s

/-- WORKER_TIMEOUT (R336): worker is the core number, 145 to 152. All that the worker has in hand returns. -/
def execWorkerTimeout (node worker : Nat) (s : State) : Out :=
  let mine := (s.pkg node).taken.filter (·.1 == worker)
  .next (if mine.all fun t => s.clock - t.2.1 < Config.workerLimit then s
    else
      let s := s.record node (handleRec 0xF8 (BitVec.ofNat 64 worker))
      let s := mine.foldl (fun s t => s.repriseEntry node t.2.2) s
      let p := s.pkg node
      (s.putPkg node { p with taken := p.taken.filter (·.1 ≠ worker) }).restartCore (node * 256 + worker) (p.imageEntry 1))

/-! ### Package reset (R337) -/

/-- Drops everything that the package's cores and slices hold: keeps UV720, the flash and the fuse rows. The bytes of its HBM and
scratchpads stay (log entry 61). -/
def State.clearPackage (s : State) (node : Nat) : State :=
  let p := s.pkg node
  let s := ((List.range 64).filter fun f => p.inboxes.any (·.1 == f) || (s.sliceOfFunc node f).isSome).foldl (fun s f => s.kvPeerLost node f) s
  let old := s.cores.filter fun e => ckNode e.1 == node && !e.2.upsets.isEmpty
  let s := { s with
    cores := s.cores.filter fun e => ckNode e.1 ≠ node
    slices := s.slices.filter fun e => skNode e.1 ≠ node
    transfers := s.transfers.filter fun h => ckNode h.core ≠ node
    tagQ := (s.tagQ.filter fun (t : TagReq) => ckNode t.core ≠ node || 8 * t.word / 2 ^ 48 ≠ node).map fun (t : TagReq) => { t with gone := t.gone || ckNode t.core == node }
    switches := s.switches.mapVals fun w => { w with ctxs := w.ctxs.mapVals fun c => { c with waiters := c.waiters.filter fun k => ckNode k ≠ node } }
    agenda := s.agenda.filter fun h => match h with
      | .core k => ckNode k ≠ node
      | .ring k _ => ckNode k ≠ node
      | .event _ => true
      | .teardown n _ => n ≠ node }
  let s := old.foldl (fun s e => s.putCore e.1 { upsets := e.2.upsets }) s
  let s := s.wipe (ctl node 0) (ctl node 0x100000000)
  let s := s.putPkg node {
    uv720 := p.uv720, flash := p.flash, born := s.clock, quiet := true, rejoinAt := s.clock
    failedSw := p.failedSw, heads := p.heads.filter (s.clock < ·.2) }
  s.setFuse node p.fuse

/-- A fuse read error on the lifecycle row, if the environment has one: it reads as RETURNED, with a record (R341). -/
def State.readFuses (s : State) (node : Nat) : State :=
  let ck := node * 256 + 144
  let c := s.core ck
  if c.upsets.any (·.unit == 15) then
    let s := s.putCore ck { c with upsets := c.upsets.filter (·.unit ≠ 15) }
    (s.setPcsr node 0x180 3).record node (handleRec 0xFA Config.lifecycleRow)
  else s

/-- Verifies, measures and loads the images from i on; none where all are good, else the index of the failing image. -/
def State.bootImages (s : State) (node : Nat) : List Nat → Option Nat × State
  | [] => (none, s)
  | i :: t =>
    let p := s.pkg node
    if p.imageGood i then
      let s := s.extendMr node (Fin.ofNat 16 i) (bytes64 (Config.sha512 (p.imageBody i)))
      let s := s.record node (handleRec 0xF2 (BitVec.ofNat 64 i))
      (s.poke none (normPa node (p.imageEntry i).toNat) (p.imageBody i)).bootImages node t
    else (some i, s)

/-- What the environment has in store of a reset: that a supply or clock fault made it, with a record (0xEC), and cores that fail
their self-test at bring-up (0x2A). -/
def State.resetFaults (s : State) (node : Nat) : State :=
  (s.cores.filter fun e => ckNode e.1 == node && e.2.upsets.any (·.unit == 14)).foldl (fun s e =>
    let s := s.putCore e.1 { s.core e.1 with upsets := (s.core e.1).upsets.filter (·.unit ≠ 14) }
    if isFirmware e.1 then s.record node (handleRec 0xEC 0)
    else s.record node { s.coreRec e.1 0x2A 1 with addr := BitVec.ofNat 64 (ckCore e.1) }) s

/-- PACKAGE_RESET. -/
def State.packageReset (s : State) (node : Nat) : State :=
  let s := (((s.clearPackage node).readFuses node).resetFaults node).drawNonce node
  match s.bootImages node [0, 1, 2, 3] with
  | (some i, s) =>
    let s := s.record node (handleRec 0xF1 (BitVec.ofNat 64 (imageOff i)))
    s.setPcsr node 0x183 (BitVec.ofNat 64 (i * 256) ^^^ 0xFF00)
  | (none, s) =>
    let s := s.setPcsr node 0x183 1
    let p := s.pkg node
    let s := s.putPkg node { p with booted := true }
    let ck := node * 256 + 144
    (s.putCore ck { s.core ck with run := .running, pc := p.imageEntry 0 }).wake (.core ck)

def execPackageReset (node : Nat) (s : State) : Out := .next (if node < 144 then s.packageReset node else s)

/-! ### Management messages (R343) -/

/-- A management message to an endpoint: header and payload. -/
def State.sendMgmt (s : State) (node ep : Nat) (ws : List W64) : State :=
  { s with out := s.out ++ [{ node := node, ep := ep, words := BitVec.ofNat 64 (8 * ws.length * 2 ^ 16 + 1) :: ws }] }

/-- The session that an endpoint holds, if it is established. -/
def Package.session (p : Package) (ep : Nat) : Option Session := p.sessions.find? fun x => x.ep == ep && x.established

def Package.setSession (p : Package) (x : Session) : Package := { p with sessions := p.sessions.filter (·.ep ≠ x.ep) ++ [x] }

/-- A free 64-byte value: a transcript hash. -/
def State.freeHash (s : State) : BitVec 512 × State :=
  (BitVec.ofNat 512 ((List.range 8).foldl (fun t i => t + (Config.freeW64 (s.nondet + i)).toNat * 2 ^ (64 * i)) 0), { s with nondet := s.nondet + 8 })

/-- Words 0 to 7 of a 64-byte value. -/
def words512 (v : BitVec 512) : List W64 := (List.range 8).map fun i => BitVec.ofNat 64 (v.fld (64 * i) 64)

/-- SPDM_MESSAGE: code is the request code, param its first parameter word. Contents that SPDM fixes and the spec does not are
free values (log entry 62). -/
def State.spdm (s : State) (node ep code : Nat) (param : W64) : State :=
  let p := s.pkg node
  let plain (s : State) : State :=
    let (v, s) := s.pickW64
    s.sendMgmt node ep [BitVec.ofNat 64 (code % 0x80), v]
  let error (s : State) : State := s.sendMgmt node ep [0x7F]
  if !p.booted then s
  else if code ∈ [0x84, 0xE1, 0xE3, 0x81, 0x82] then plain s
  else if code = 0x83 then
    -- CHALLENGE shows LIFECYCLE and MR15 (R342)
    let (v, s) := s.pickW64
    s.sendMgmt node ep (BitVec.ofNat 64 (code % 0x80) :: s.pcsr node 0x180 :: v :: words512 p.mr[15])
  else if code = 0xE0 && 1 ≤ param.toNat && param.toNat ≤ 16 then
    s.sendMgmt node ep (BitVec.ofNat 64 (code % 0x80) :: param :: words512 p.mr[Fin.ofNat 16 (param.toNat - 1)])
  else if code = 0xE4 then plain (s.putPkg node (p.setSession { ep := ep, func := param.fld 0 6, hash := 0, established := false, lastSeq := none }))
  else if code = 0xE5 then
    match p.sessions.find? (·.ep == ep) with
    | none => error s
    | some x =>
      let (h, s) := s.freeHash
      plain (s.putPkg node ((s.pkg node).setSession { x with hash := h, established := true }))
  else if code = 0xEC then plain (s.putPkg node { p with sessions := p.sessions.filter (·.ep ≠ ep) })
  else error (s.record node (handleRec 0xF6 (BitVec.ofNat 64 code)))

def execSpdmMessage (node ep code : Nat) (param : BitVec 64) (s : State) : Out := .next (s.spdm node ep code param)

/-! ### Operator commands and image writes (R344) -/

/-- One of the two operator keys of the fuse rows; a row of zeros matches no key. -/
def operatorKey (key : BitVec 256) : Bool :=
  let h := Config.sha512 (leBytes 32 key.toNat)
  [false, true].any fun i => Config.opKey i != 0 && Config.opKey i == h

/-- The message is accepted in a session. -/
def Session.accepts (x : Session) (key : BitVec 256) (cseq : W64) (body : List Byte) (sig : BitVec 512) : Bool :=
  operatorKey key && Config.ed25519 key (bytes64 (Config.sha512 (bytes64 x.hash ++ wordBytes cseq ++ body))) sig &&
    (match x.lastSeq with | none => true | some n => n < cseq.toNat)

def State.dropMgmt (s : State) (node : Nat) : State := s.record node (handleRec 0xFB 0)

/-- Sets FUNC of a binding record by a store (R329). -/
def State.funcStore (s : State) (node n func : Nat) : State :=
  let w := s.bindWord (skOf node n) 0
  s.controlPut node (0x10000 + 64 * n) (wordBytes (W64.withField w (BitVec.ofNat 64 (func % 64 * 2 ^ 58)) 58 6))

/-- What the Handle does on an accepted operator command (R343); the layouts of the bodies are log entry 63's. 1: slice binding,
with the record of Table 4.1 and FUNC 0, which keeps for whom; 2: attach (R294); 3: key delivery, then FUNC; 4: readmission; 5: DEVID and DBGNONCE (R342). -/
def State.operatorDo (s : State) (node ep kind : Nat) (body : List W64) : State :=
  let w (i : Nat) : W64 := body.getD i 0
  match kind with
  | 1 =>
    let n := (w 0).fld 0 6
    if 35 < n || (s.slice (skOf node n)).bound then s
    else
      let rec0 := BitVec.ofNat 64 ((w 1).toNat % 2 ^ 58)
      let s := (s.controlPut node (0x10000 + 64 * n) ((rec0 :: padWords 7 (body.drop 2)).flatMap wordBytes)).slbindWrite node (BitVec.ofNat 64 n)
      let sl := s.slice (skOf node n)
      if sl.bound then s.putSlice (skOf node n) { sl with bindFor := (w 1).fld 58 6 } else s
  | 2 => s.attach (w 0).toNat (w 1).toNat (w 2).toNat node (w 3).toNat (w 4)
  | 3 =>
    let n := (w 0).fld 0 6
    let key : BitVec 512 := BitVec.ofNat 512 (leNat (((body.drop 2).take 8).flatMap wordBytes))
    let (ok, s) := s.keyLoad node n (some key)
    if ok && n < 36 && (s.slice (skOf node n)).bound && s.sliceFunc (skOf node n) = 0 then s.funcStore node n ((w 1).fld 0 6) else s
  | 4 => s.readmit node (w 0).toNat
  | 5 =>
    let d := (Config.devId node).toNat
    s.sendMgmt node ep [BitVec.ofNat 64 d, BitVec.ofNat 64 (d / 2 ^ 64), s.pcsr node 0x188]
  | _ => s

/-- OPERATOR_COMMAND. -/
def State.operatorCommand (s : State) (node ep kind : Nat) (key : BitVec 256) (cseq : W64) (body : List W64) (sig : BitVec 512) : State :=
  let p := s.pkg node
  if !p.booted then s
  else match p.session ep with
    | none => s.dropMgmt node
    | some x =>
      if x.accepts key cseq (wordBytes (BitVec.ofNat 64 kind) ++ body.flatMap wordBytes) sig then
        (s.putPkg node (p.setSession { x with lastSeq := some cseq.toNat })).operatorDo node ep kind body
      else s.dropMgmt node

def execOperatorCommand (node ep kind : Nat) (key : BitVec 256) (cseq : BitVec 64) (body : List (BitVec 64)) (sig : BitVec 512) (s : State) : Out :=
  .next (s.operatorCommand node ep kind key cseq body sig)

/-- A firmware image in the format of Table 24.1: its INDEX names one of the four, and its LENGTH is that of its body. -/
def imageFormed (image : List Byte) : Bool :=
  let word (o : Nat) : Nat := leNat ((image.drop o).take 8)
  0x100 ≤ image.length && word 8 < 4 && word 0x10 % 64 == 0 && word 0x10 + 0x100 == image.length

/-- An image write: an image in the format of Table 24.1 takes its place in the flash (R343). After a failed boot the ROM answers this
command alone, in no session (R337; log entry 63). -/
def State.imageWrite (s : State) (node ep : Nat) (key : BitVec 256) (cseq : W64) (image : List Byte) (sig : BitVec 512) : State :=
  let p := s.pkg node
  let x : Option Session := if p.booted then p.session ep else some { ep := ep, func := 0, hash := 0, established := true, lastSeq := none }
  if !p.booted && !s.bootFailed node then s
  else match x with
    | none => s.dropMgmt node
    | some x =>
      if x.accepts key cseq image sig && imageFormed image then
        s.putPkg node { p with flash := p.flash.write (imageOff (leNat ((image.drop 8).take 8))) image }
      else s.dropMgmt node

/-- IMAGE_WRITE: hdr is the message's header, which names its type. -/
def execImageWrite (node ep : Nat) (key : BitVec 256) (cseq : BitVec 64) (hdr : BitVec 64) (image : List Byte) (sig : BitVec 512) (s : State) : Out :=
  .next (if hdr.fld 0 8 = 3 then s.imageWrite node ep key cseq image sig else s)

/-- TENANT_KEY_DELIVERY: without an operator signature, in a session of the function itself, and only into the empty slot of
its slice, or of the slice that is being bound with FUNC 0 for it (R340, R344). -/
def State.tenantKey (s : State) (node ep func : Nat) (key : BitVec 512) : State :=
  let p := s.pkg node
  let target := match s.sliceOfFunc node func with
    | some sk => some sk
    | none => s.findSlice node fun sk => s.sliceFunc sk == 0 && (s.slice sk).bindFor == func
  match p.session ep, target with
  | some x, some sk =>
    if !p.booted || func = 0 || 36 < func || x.func ≠ func || (p.keys.get? (skNum sk)).isSome then s.dropMgmt node
    else
      let (ok, s) := s.keyLoad node (skNum sk) (some key)
      if ok && s.sliceFunc sk = 0 then s.funcStore node (skNum sk) func else s
  | _, _ => s.dropMgmt node

def execTenantKeyDelivery (node ep func : Nat) (key : BitVec 512) (s : State) : Out := .next (s.tenantKey node ep func key)

/-! ### The environment -/

/-- A throttle engages on a die. -/
def State.throttle (s : State) (node die cause : Nat) : State :=
  if 3 < die then s
  else
    let p := s.pkg node
    (s.putPkg node { p with throttled := p.throttled.add die }).record node
      { cause := cause, sev := sevOf cause, unit := 15, die := die, addr := BitVec.ofNat 64 die }

/-- THERMAL_THROTTLE and POWER_THROTTLE. -/
def execThermalThrottle (node die : Nat) (s : State) : Out := .next (s.throttle node die 0xEA)
def execPowerThrottle (node die : Nat) (s : State) : Out := .next (s.throttle node die 0xEB)

/-- PATROL_SCRUB: an HBM line is found uncorrectable and poisoned. -/
def execPatrolScrub (node : Nat) (line : BitVec 64) (s : State) : Out :=
  let pa := line.toNat / 64 * 64
  .next (match region pa with
    | .hbm n c =>
      if n = node then
        ({ s with poison := s.poison.add pa } : State).record node
          { cause := 0xE6, sev := sevOf 0xE6, unit := 8, die := chanDie c, kind := 3, addr := BitVec.ofNat 64 pa }
      else s
    | _ => s)

/-- LIFECYCLE_CHANGE: provisioning, and the change to RETURNED; the change to DEBUG is the unlock's (R341). -/
def execLifecycleChange (node state : Nat) (s : State) : Out :=
  let old := (s.pcsr node 0x180).fld 0 2
  .next (if (old = 0 ∧ state = 1) ∨ (state = 3 ∧ (old = 1 ∨ old = 2)) then s.setLifecycle node state else s)

end Sys2Proof.Machine
end

