-- ==== Sys2Proof/Machine/Control.lean ====
section
/-!
DEFINITION. Branches, calls, the return-address store, counted loops, trap, rft, end and yield (R123 to R126, R136, R137,
R247).
-/
namespace Sys2Proof.Machine

/-- A guard that the branch formats may invert (R103). -/
def State.taken (s : State) (g : BitVec 3) (n : BitVec 1) : Bool := s.pred g != (n == 1)

/-- Target of a branch: its own address plus 4 × the signed displacement (R102). -/
def State.target (s : State) (i : BitVec 21) : W64 := s.pc + (i.signExtend 64 <<< 2)

def execBr (g : BitVec 3) (n : BitVec 1) (i : BitVec 21) (s : State) : Out :=
  .next (if s.taken g n then s.jump (s.target i) else s.finish)

/-! ### The return-address store (R124) -/

/-- The value that RSTKPTR, RSTKBASE or RSTKLIM names: bits [21:3]. -/
def spillAddr (w : W64) : Nat := w.fld 3 19 * 8

/-- Bytes of the own scratchpad as a spill or refill reaches them: an access to the ring region is refused (R142); an
uncorrectable error (R305) and a race (R270) trap. -/
def State.spillRefused (s : State) (off acc : Nat) : Option Nat :=
  s.homeRefuses { ck := s.cur, fw := true, func := 0 } (padBase s.cur + off) 8 acc false

/-- push_ret: the oldest entry spills when the hardware store is full. -/
def State.pushRet (s : State) (v : W64) : Res Unit :=
  let c := s.me
  if c.rstk.length < 16 then .ok () (s.setMe { c with rstk := v :: c.rstk })
  else
    let ptr := spillAddr c.rstkPtr
    if ptr + 8 > spillAddr c.rstkLim ∨ spillAddr c.rstkLim > padSize then .stop (s.trap 0x13 c.rstkPtr)
    else
      match s.spillRefused ptr 1 with
      | some h => .stop ((s.refuse (s.party s.cur) (padBase s.cur + ptr) h).trap 0x60 (BitVec.ofNat 64 ptr))
      | none =>
        let pg : Page := { pa := padBase s.cur + ptr, left := 8 }
        match s.racing s.cur pg 8 with
        | (some _, s) => .stop (s.trap 0x71 (BitVec.ofNat 64 ptr))
        | (none, s) =>
          let bs := wordBytes (c.rstk.getLastD 0)
          let s := (s.poke none pg.pa bs).noteWrite s.cur pg 8
          .ok () (s.setMe { s.me.cacheStore pg.pa bs with rstk := v :: c.rstk.dropLast, rstkPtr := BitVec.ofNat 64 (ptr + 8) })

/-- pop_ret: the newest entry, or one refilled from the spill area. -/
def State.popRet (s : State) : Res W64 :=
  let c := s.me
  match c.rstk with
  | v :: t => .ok v (s.setMe { c with rstk := t })
  | [] =>
    let ptr := spillAddr c.rstkPtr
    if ptr ≤ spillAddr c.rstkBase then .stop (s.trap 0x14 c.rstkPtr)
    else
      match s.spillRefused (ptr - 8) 0 with
      | some h => .stop ((s.refuse (s.party s.cur) (padBase s.cur + (ptr - 8)) h).trap 0x60 (BitVec.ofNat 64 (ptr - 8)))
      | none =>
        let a := padBase s.cur + (ptr - 8)
        match s.poisonAt a 8 with
        | some _ => .stop (s.trap 0x61 (BitVec.ofNat 64 (ptr - 8)))
        | none =>
          match s.racing s.cur { pa := a, left := 8 } 8 with
          | (some _, s) => .stop (s.trap 0x70 (BitVec.ofNat 64 (ptr - 8)))
          | (none, s) =>
            let s := s.correct s.cur a 8
            -- what it reads is seen: a line that holds an older value goes (R257)
            .ok (s.word a) (s.setMe { s.me.dropLines a (a + 8) with rstkPtr := BitVec.ofNat 64 (ptr - 8) })

def execCall (g : BitVec 3) (n : BitVec 1) (i : BitVec 21) (s : State) : Out :=
  .next (if s.taken g n then
    let t := s.target i
    (s.pushRet (s.pc + 4)).run fun _ s => (s.setMe { s.me with cdepth := s.me.cdepth + 1, pc := t }).spend
  else s.finish)

/-- A misaligned target traps with 0x0B at the jump (R108). -/
def State.badTarget (s : State) (i : Instr) : State := s.trap 0x0B (((encode i).headD 0).setWidth 64)

def execJr (a : BitVec 5) (g : BitVec 3) (s : State) : Out :=
  s.guarded g fun s => if (s.reg a).fld 0 2 = 0 then s.jump (s.reg a) else s.badTarget (.jr a g)

/-- A ret that traps for its target has popped nothing (R123). -/
def execRet (g : BitVec 3) (s : State) : Out :=
  s.guarded g fun s0 => s0.popRet.run fun v s => if v.fld 0 2 = 0 then s.returnTo v else s0.badTarget (.ret g)

/-! ### The counted loop (R125) -/

def execLoop (a : BitVec 5) (g : BitVec 3) (i : BitVec 12) (s : State) : Out :=
  s.guarded g fun s =>
    let c := s.me
    let n := s.reg a
    let sta := c.pc + 4
    let lend := c.pc + 4 + BitVec.ofNat 64 (4 * i.toNat)
    if n = 0 then s.finishAt lend
    else if c.loops.length = 4 then s.trap 0x15 lend
    else if (match c.loops with | l :: _ => l.cdepth == c.cdepth && l.lend.toNat < lend.toNat | [] => false) then s.trap 0x16 lend
    else (s.setMe { c with loops := { count := n, sta := sta, lend := lend, cdepth := c.cdepth } :: c.loops, pc := sta }).spend

/-! ### trap, rft, end, yield -/

/-- R136: TRAPADDR holds imm20 and TRAPPC the next instruction. -/
def execTrap (i : BitVec 20) (s : State) : Out := .next (s.deliver 0x10 (i.setWidth 64) (s.pc + 4))

def execRft (g : BitVec 3) (s : State) : Out := s.guarded g fun s => s.returnFromTrap g

/-- R137: end stops fetching; the thread ends once its rings have drained. In a resident fault handler it ends the
handler (R75). -/
def execEndThread (g : BitVec 3) (s : State) : Out :=
  s.guarded g fun s =>
    if s.inHandler then s.handlerEnds s.cur none
    else (s.setMe { s.me with run := .ended, pc := s.pc + 4 }).wake (.ring s.cur 0)

/-- R247, R248: yield reloads the watchdog with the deadline it declares, and is the thread's pre-emption point. -/
def execYield (i : BitVec 20) (s : State) : Out :=
  let s := s.finish
  let s := match s.me.slice with
    | some sk =>
      let lim := s.ylimit sk
      s.setMe { s.me with watchdog := if i = 0 then lim else min i.toNat lim }
    | none => s
  .next (if s.stopAsked then s.stopCore 1 else s)

end Sys2Proof.Machine
end

