-- ==== Sys2Proof/Machine/Dispatch.lean ====
section
/-!
DEFINITION. The dispatch: one arm per constructor of Instr, each a direct call of that instruction's meaning.
-/
namespace Sys2Proof.Machine

def exec (i : Instr) (s : State) : Host.Outcome State Fault Refusal :=
  match i with
  | .addI64 d a b g => Sys2Proof.Machine.execAddI64 d a b g s
  | .subI64 d a b g => Sys2Proof.Machine.execSubI64 d a b g s
  | .mulI64 d a b g => Sys2Proof.Machine.execMulI64 d a b g s
  | .mulhI64 d a b g => Sys2Proof.Machine.execMulhI64 d a b g s
  | .mulhW64 d a b g => Sys2Proof.Machine.execMulhW64 d a b g s
  | .divI64 d a b g => Sys2Proof.Machine.execDivI64 d a b g s
  | .divW64 d a b g => Sys2Proof.Machine.execDivW64 d a b g s
  | .remI64 d a b g => Sys2Proof.Machine.execRemI64 d a b g s
  | .andW64 d a b g => Sys2Proof.Machine.execAndW64 d a b g s
  | .orW64 d a b g => Sys2Proof.Machine.execOrW64 d a b g s
  | .xorW64 d a b g => Sys2Proof.Machine.execXorW64 d a b g s
  | .shlI64 d a b g => Sys2Proof.Machine.execShlI64 d a b g s
  | .shrW64 d a b g => Sys2Proof.Machine.execShrW64 d a b g s
  | .sraI64 d a b g => Sys2Proof.Machine.execSraI64 d a b g s
  | .cmpEqI64 d a b g => Sys2Proof.Machine.execCmpEqI64 d a b g s
  | .cmpNeI64 d a b g => Sys2Proof.Machine.execCmpNeI64 d a b g s
  | .cmpLtI64 d a b g => Sys2Proof.Machine.execCmpLtI64 d a b g s
  | .cmpGeI64 d a b g => Sys2Proof.Machine.execCmpGeI64 d a b g s
  | .cmpLtW64 d a b g => Sys2Proof.Machine.execCmpLtW64 d a b g s
  | .cmpGeW64 d a b g => Sys2Proof.Machine.execCmpGeW64 d a b g s
  | .pand d a b g => Sys2Proof.Machine.execPand d a b g s
  | .por d a b g => Sys2Proof.Machine.execPor d a b g s
  | .pxor d a b g => Sys2Proof.Machine.execPxor d a b g s
  | .pandn d a b g => Sys2Proof.Machine.execPandn d a b g s
  | .pset d a g => Sys2Proof.Machine.execPset d a g s
  | .pget d a g => Sys2Proof.Machine.execPget d a g s
  | .addiI64 d a g imm => Sys2Proof.Machine.execAddiI64 d a g imm s
  | .andiW64 d a g imm => Sys2Proof.Machine.execAndiW64 d a g imm s
  | .oriW64 d a g imm => Sys2Proof.Machine.execOriW64 d a g imm s
  | .xoriW64 d a g imm => Sys2Proof.Machine.execXoriW64 d a g imm s
  | .shliI64 d a g imm => Sys2Proof.Machine.execShliI64 d a g imm s
  | .shriW64 d a g imm => Sys2Proof.Machine.execShriW64 d a g imm s
  | .sraiI64 d a g imm => Sys2Proof.Machine.execSraiI64 d a g imm s
  | .li d imm => Sys2Proof.Machine.execLi d imm s
  | .lea d a g imm => Sys2Proof.Machine.execLea d a g imm s
  | .bxlen d a g => Sys2Proof.Machine.execBxlen d a g s
  | .br g n imm => Sys2Proof.Machine.execBr g n imm s
  | .call g n imm => Sys2Proof.Machine.execCall g n imm s
  | .jr a g => Sys2Proof.Machine.execJr a g s
  | .ret g => Sys2Proof.Machine.execRet g s
  | .loop a g imm => Sys2Proof.Machine.execLoop a g imm s
  | .ldW8 d a g imm => Sys2Proof.Machine.execLdW8 d a g imm s
  | .ldW16 d a g imm => Sys2Proof.Machine.execLdW16 d a g imm s
  | .ldW32 d a g imm => Sys2Proof.Machine.execLdW32 d a g imm s
  | .ldW64 d a g imm => Sys2Proof.Machine.execLdW64 d a g imm s
  | .ldI8 d a g imm => Sys2Proof.Machine.execLdI8 d a g imm s
  | .ldI32 d a g imm => Sys2Proof.Machine.execLdI32 d a g imm s
  | .stW8 d a g imm => Sys2Proof.Machine.execStW8 d a g imm s
  | .stW16 d a g imm => Sys2Proof.Machine.execStW16 d a g imm s
  | .stW32 d a g imm => Sys2Proof.Machine.execStW32 d a g imm s
  | .stW64 d a g imm => Sys2Proof.Machine.execStW64 d a g imm s
  | .ldAcqW32 d a g xs => Sys2Proof.Machine.execLdAcqW32 d a g xs s
  | .ldAcqW64 d a g xs => Sys2Proof.Machine.execLdAcqW64 d a g xs s
  | .stRelW32 a b g xs => Sys2Proof.Machine.execStRelW32 a b g xs s
  | .stRelW64 a b g xs => Sys2Proof.Machine.execStRelW64 a b g xs s
  | .waitTk p k t => Sys2Proof.Machine.execWaitTk p k t s
  | .barWait p k t => Sys2Proof.Machine.execBarWait p k t s
  | .ldwfW64 p a t d => Sys2Proof.Machine.execLdwfW64 p a t d s
  | .stweW64 p a t d => Sys2Proof.Machine.execStweW64 p a t d s
  | .pop p q t d => Sys2Proof.Machine.execPop p q t d s
  | .sigTk k => Sys2Proof.Machine.execSigTk k s
  | .barArrive k => Sys2Proof.Machine.execBarArrive k s
  | .join k => Sys2Proof.Machine.execJoin k s
  | .leave k => Sys2Proof.Machine.execLeave k s
  | .amoAddW64 d a b g => Sys2Proof.Machine.execAmoAddW64 d a b g s
  | .amoMinI64 d a b g => Sys2Proof.Machine.execAmoMinI64 d a b g s
  | .amoMaxI64 d a b g => Sys2Proof.Machine.execAmoMaxI64 d a b g s
  | .amoAndW64 d a b g => Sys2Proof.Machine.execAmoAndW64 d a b g s
  | .amoOrW64 d a b g => Sys2Proof.Machine.execAmoOrW64 d a b g s
  | .amoXorW64 d a b g => Sys2Proof.Machine.execAmoXorW64 d a b g s
  | .amoXchgW64 d a b g => Sys2Proof.Machine.execAmoXchgW64 d a b g s
  | .amoCasW64 d a b g => Sys2Proof.Machine.execAmoCasW64 d a b g s
  | .fence g xs => Sys2Proof.Machine.execFence g xs s
  | .fenceR a b g xs => Sys2Proof.Machine.execFenceR a b g xs s
  | .rld d a b g => Sys2Proof.Machine.execRld d a b g s
  | .setshapeV d a b g n => Sys2Proof.Machine.execSetshapeV d a b g n s
  | .setshapeM d a b g n => Sys2Proof.Machine.execSetshapeM d a b g n s
  | .asnap d a b g n => Sys2Proof.Machine.execAsnap d a b g n s
  | .tstat d g n => Sys2Proof.Machine.execTstat d g n s
  | .swalloc d a b g => Sys2Proof.Machine.execSwalloc d a b g s
  | .swfree d a g => Sys2Proof.Machine.execSwfree d a g s
  | .swquota d a g => Sys2Proof.Machine.execSwquota d a g s
  | .yield imm => Sys2Proof.Machine.execYield imm s
  | .enqueuePrefix e w k t a b w1 w2 => Sys2Proof.Machine.execEnqueuePrefix e w k t a b w1 w2 s
  | .trap imm => Sys2Proof.Machine.execTrap imm s
  | .rft g => Sys2Proof.Machine.execRft g s
  | .endThread g => Sys2Proof.Machine.execEndThread g s
  | .csrr d g c => Sys2Proof.Machine.execCsrr d g c s
  | .csrw a g c => Sys2Proof.Machine.execCsrw a g c s
  | .resume d a g => Sys2Proof.Machine.execResume d a g s
  | .qreset d a g => Sys2Proof.Machine.execQreset d a g s
  | .tinvPg1 a g => Sys2Proof.Machine.execTinvPg1 a g s
  | .tinvRg1 a b g => Sys2Proof.Machine.execTinvRg1 a b g s
  | .tinvAll1 g => Sys2Proof.Machine.execTinvAll1 g s
  | .tinvPg2 a b g => Sys2Proof.Machine.execTinvPg2 a b g s
  | .tinvRg2 a b g => Sys2Proof.Machine.execTinvRg2 a b g s
  | .tinvAll2 b g => Sys2Proof.Machine.execTinvAll2 b g s
  | .einj a b g => Sys2Proof.Machine.execEinj a b g s
  | .takeIb d a g => Sys2Proof.Machine.execTakeIb d a g s
  | .commitIb d a b g => Sys2Proof.Machine.execCommitIb d a b g s
  | .attest d a b g => Sys2Proof.Machine.execAttest d a b g s
  | .vaddF32 d a b xs m x => Sys2Proof.Machine.execVaddF32 d a b xs m x s
  | .vsubF32 d a b xs m x => Sys2Proof.Machine.execVsubF32 d a b xs m x s
  | .vmulF32 d a b xs m x => Sys2Proof.Machine.execVmulF32 d a b xs m x s
  | .vfmaF32 d a b xs m x => Sys2Proof.Machine.execVfmaF32 d a b xs m x s
  | .vfmaF32TMultiplier d a b xs m x => Sys2Proof.Machine.execVfmaF32TMultiplier d a b xs m x s
  | .vminF32 d a b xs m => Sys2Proof.Machine.execVminF32 d a b xs m s
  | .vmaxF32 d a b xs m => Sys2Proof.Machine.execVmaxF32 d a b xs m s
  | .vabsF32 d a xs m => Sys2Proof.Machine.execVabsF32 d a xs m s
  | .vnegF32 d a xs m => Sys2Proof.Machine.execVnegF32 d a xs m s
  | .vcmpF32 d a b xs m c => Sys2Proof.Machine.execVcmpF32 d a b xs m c s
  | .vrcpF32 d a xs m => Sys2Proof.Machine.execVrcpF32 d a xs m s
  | .vrsqrtF32 d a xs m => Sys2Proof.Machine.execVrsqrtF32 d a xs m s
  | .vexp2F32 d a xs m => Sys2Proof.Machine.execVexp2F32 d a xs m s
  | .vlog2F32 d a xs m => Sys2Proof.Machine.execVlog2F32 d a xs m s
  | .vtanhF32 d a xs m => Sys2Proof.Machine.execVtanhF32 d a xs m s
  | .vaddInt d a b xs m x => Sys2Proof.Machine.execVaddInt d a b xs m x s
  | .vsubInt d a b xs m x => Sys2Proof.Machine.execVsubInt d a b xs m x s
  | .vmulInt d a b xs m x => Sys2Proof.Machine.execVmulInt d a b xs m x s
  | .vmulh d a b xs m u => Sys2Proof.Machine.execVmulh d a b xs m u s
  | .vminInt d a b xs m u => Sys2Proof.Machine.execVminInt d a b xs m u s
  | .vmaxInt d a b xs m u => Sys2Proof.Machine.execVmaxInt d a b xs m u s
  | .vabsInt d a xs m => Sys2Proof.Machine.execVabsInt d a xs m s
  | .vand d a b xs m => Sys2Proof.Machine.execVand d a b xs m s
  | .vor d a b xs m => Sys2Proof.Machine.execVor d a b xs m s
  | .vxor d a b xs m => Sys2Proof.Machine.execVxor d a b xs m s
  | .vshl d a b xs m => Sys2Proof.Machine.execVshl d a b xs m s
  | .vshr d a b xs m u => Sys2Proof.Machine.execVshr d a b xs m u s
  | .vcmpSigned d a b xs m c => Sys2Proof.Machine.execVcmpSigned d a b xs m c s
  | .vcmpUnsigned d a b xs m c => Sys2Proof.Machine.execVcmpUnsigned d a b xs m c s
  | .vsel d a b xs m => Sys2Proof.Machine.execVsel d a b xs m s
  | .vmask d a b xs o => Sys2Proof.Machine.execVmask d a b xs o s
  | .vmov d a xs m => Sys2Proof.Machine.execVmov d a xs m s
  | .vcvt d a t xs m x => Sys2Proof.Machine.execVcvt d a t xs m x s
  | .vcvtSat d a t xs m x => Sys2Proof.Machine.execVcvtSat d a t xs m x s
  | .vcvtFloatToInt d a t xs m x => Sys2Proof.Machine.execVcvtFloatToInt d a t xs m x s
  | .vcvtIntToFloat d a t xs m x => Sys2Proof.Machine.execVcvtIntToFloat d a t xs m x s
  | .vcvtIntToInt d a t xs m x => Sys2Proof.Machine.execVcvtIntToInt d a t xs m x s
  | .vbscale d a f xs x => Sys2Proof.Machine.execVbscale d a f xs x s
  | .vquant d a f xs x => Sys2Proof.Machine.execVquant d a f xs x s
  | .vredF32 d a xs m o => Sys2Proof.Machine.execVredF32 d a xs m o s
  | .vredInt d a u xs m o => Sys2Proof.Machine.execVredInt d a u xs m o s
  | .vscanF32 d a xs m o => Sys2Proof.Machine.execVscanF32 d a xs m o s
  | .vscanInt d a u xs m o => Sys2Proof.Machine.execVscanInt d a u xs m o s
  | .vperm d a b xs m => Sys2Proof.Machine.execVperm d a b xs m s
  | .vrot d a xs m => Sys2Proof.Machine.execVrot d a xs m s
  | .viota d xs m => Sys2Proof.Machine.execViota d xs m s
  | .vpart d a b xs m => Sys2Proof.Machine.execVpart d a b xs m s
  | .vport d xs => Sys2Proof.Machine.execVport d xs s
  | .vportd d xs => Sys2Proof.Machine.execVportd d xs s
  | .vrep n => Sys2Proof.Machine.execVrep n s
  | .vsplat d xs m c => Sys2Proof.Machine.execVsplat d xs m c s
  | .vnop => Sys2Proof.Machine.execVnop s
  | .mld a xs k => Sys2Proof.Machine.execMld a xs k s
  | .mldt a xs k => Sys2Proof.Machine.execMldt a xs k s
  | .mwld a xs k => Sys2Proof.Machine.execMwld a xs k s
  | .mwldt a xs k => Sys2Proof.Machine.execMwldt a xs k s
  | .mmulOvw a b c xs k => Sys2Proof.Machine.execMmulOvw a b c xs k s
  | .mmulAcc a b c xs k => Sys2Proof.Machine.execMmulAcc a b c xs k s
  | .mgangOvw a b c xs g h n k => Sys2Proof.Machine.execMgangOvw a b c xs g h n k s
  | .mgangAcc a b c xs g h n k => Sys2Proof.Machine.execMgangAcc a b c xs g h n k s
  | .mzero c xs => Sys2Proof.Machine.execMzero c xs s
  | .macc b c xs => Sys2Proof.Machine.execMacc b c xs s
  | .mldacc c xs => Sys2Proof.Machine.execMldacc c xs s
  | .mescale c xs => Sys2Proof.Machine.execMescale c xs s
  | .mescv c xs => Sys2Proof.Machine.execMescv c xs s
  | .mebias c xs => Sys2Proof.Machine.execMebias c xs s
  | .meact c xs f => Sys2Proof.Machine.execMeact c xs f s
  | .meclamp c xs => Sys2Proof.Machine.execMeclamp c xs s
  | .mecvt c xs t r f => Sys2Proof.Machine.execMecvt c xs t r f s
  | .mst c xs t r f => Sys2Proof.Machine.execMst c xs t r f s
  | .mstn c xs t r f => Sys2Proof.Machine.execMstn c xs t r f s
  | .msnap c xs => Sys2Proof.Machine.execMsnap c xs s
  | .mstt a xs => Sys2Proof.Machine.execMstt a xs s
  | .mmov a b xs => Sys2Proof.Machine.execMmov a b xs s
  | .mtr a b xs => Sys2Proof.Machine.execMtr a b xs s
  | .mnop => Sys2Proof.Machine.execMnop s
  | .cldHbm q r xs f x => Sys2Proof.Machine.execCldHbm q r xs f x s
  | .cstHbm q r xs x => Sys2Proof.Machine.execCstHbm q r xs x s
  | .cld2d q r xs f x => Sys2Proof.Machine.execCld2d q r xs f x s
  | .cst2d q r xs x => Sys2Proof.Machine.execCst2d q r xs x s
  | .ccpy q r xs x => Sys2Proof.Machine.execCcpy q r xs x s
  | .ccvt q r xs x => Sys2Proof.Machine.execCcvt q r xs x s
  | .cgat q r xs f x => Sys2Proof.Machine.execCgat q r xs f x s
  | .csct q r xs x => Sys2Proof.Machine.execCsct q r xs x s
  | .cfill q r xs x => Sys2Proof.Machine.execCfill q r xs x s
  | .cfillSp q r xs x => Sys2Proof.Machine.execCfillSp q r xs x s
  | .ctag q r xs x => Sys2Proof.Machine.execCtag q r xs x s
  | .cpref q r xs x => Sys2Proof.Machine.execCpref q r xs x s
  | .cmovSp q r xs f x => Sys2Proof.Machine.execCmovSp q r xs f x s
  | .cmst q r xs x => Sys2Proof.Machine.execCmst q r xs x s
  | .ckvSend q r xs => Sys2Proof.Machine.execCkvSend q r xs s
  | .ckvPull q r xs p => Sys2Proof.Machine.execCkvPull q r xs p s
  | .ckvSync q r xs => Sys2Proof.Machine.execCkvSync q r xs s
  | .cldSw q r xs f x => Sys2Proof.Machine.execCldSw q r xs f x s
  | .cstSw q r xs x => Sys2Proof.Machine.execCstSw q r xs x s
  | .credInit q r xs x => Sys2Proof.Machine.execCredInit q r xs x s
  | .credSw q r xs x => Sys2Proof.Machine.execCredSw q r xs x s
  | .cldrSw q r xs f x => Sys2Proof.Machine.execCldrSw q r xs f x s
  | .credDrop q r xs b => Sys2Proof.Machine.execCredDrop q r xs b s
  | .cmstSw q r xs x => Sys2Proof.Machine.execCmstSw q r xs x s
  | .cbatAdd q r xs x => Sys2Proof.Machine.execCbatAdd q r xs x s
  | .cbatMin q r xs x => Sys2Proof.Machine.execCbatMin q r xs x s
  | .cbatMax q r xs x => Sys2Proof.Machine.execCbatMax q r xs x s
  | .cbatOr q r xs x => Sys2Proof.Machine.execCbatOr q r xs x s
  | .cbatXchg q r xs x => Sys2Proof.Machine.execCbatXchg q r xs x s
  | .cskInit q r xs c => Sys2Proof.Machine.execCskInit q r xs c s
  | .cskIns q r xs => Sys2Proof.Machine.execCskIns q r xs s
  | .cskDel q r xs => Sys2Proof.Machine.execCskDel q r xs s
  | .cskSend q r xs => Sys2Proof.Machine.execCskSend q r xs s
  | .cskXchg q r xs => Sys2Proof.Machine.execCskXchg q r xs s
  | .cskPeel q r xs => Sys2Proof.Machine.execCskPeel q r xs s
  | .cskFetch q r xs m => Sys2Proof.Machine.execCskFetch q r xs m s
  | .cskRsz q r xs => Sys2Proof.Machine.execCskRsz q r xs s
  | .cnop => Sys2Proof.Machine.execCnop s
  | .cfence q r xs => Sys2Proof.Machine.execCfence q r xs s
  | .csig q r xs k => Sys2Proof.Machine.execCsig q r xs k s
  | .commandMessage node func ep host seq op len resv bytes tag payload => Sys2Proof.Machine.execCommandMessage node func ep host seq op len resv bytes tag payload s
  | .slotLoad node func idx => Sys2Proof.Machine.execSlotLoad node func idx s
  | .slotUnload node func idx => Sys2Proof.Machine.execSlotUnload node func idx s
  | .slotQuery node func idx => Sys2Proof.Machine.execSlotQuery node func idx s
  | .invoke node func idx => Sys2Proof.Machine.execInvoke node func idx s
  | .schedSet node func idx => Sys2Proof.Machine.execSchedSet node func idx s
  | .admitRequest node func idx => Sys2Proof.Machine.execAdmitRequest node func idx s
  | .cancel node func idx => Sys2Proof.Machine.execCancel node func idx s
  | .packRegister node func idx => Sys2Proof.Machine.execPackRegister node func idx s
  | .packDrop node func idx => Sys2Proof.Machine.execPackDrop node func idx s
  | .invocationStart node slice slot => Sys2Proof.Machine.execInvocationStart node slice slot s
  | .iterationDispatch node slice => Sys2Proof.Machine.execIterationDispatch node slice s
  | .threadStart node core => Sys2Proof.Machine.execThreadStart node core s
  | .threadEnd node core => Sys2Proof.Machine.execThreadEnd node core s
  | .copyNodeRetire node slice slot n => Sys2Proof.Machine.execCopyNodeRetire node slice slot n s
  | .nodeCond node slice slot n => Sys2Proof.Machine.execNodeCond node slice slot n s
  | .nodeWhile node slice slot n => Sys2Proof.Machine.execNodeWhile node slice slot n s
  | .nodeNotify node slice slot n => Sys2Proof.Machine.execNodeNotify node slice slot n s
  | .invocationRetire node slice slot => Sys2Proof.Machine.execInvocationRetire node slice slot s
  | .schedBoundary node slice slot => Sys2Proof.Machine.execSchedBoundary node slice slot s
  | .packPlacementDone node slice req => Sys2Proof.Machine.execPackPlacementDone node slice req s
  | .translationWalk node core unit kind va => Sys2Proof.Machine.execTranslationWalk node core unit kind va s
  | .faultHandlerStart node slice worker => Sys2Proof.Machine.execFaultHandlerStart node slice worker s
  | .timedWaitTimeout node core => Sys2Proof.Machine.execTimedWaitTimeout node core s
  | .watchdogExpire node core => Sys2Proof.Machine.execWatchdogExpire node core s
  | .bankPowerGate node core bank => Sys2Proof.Machine.execBankPowerGate node core bank s
  | .loadQueueFill node core q idx => Sys2Proof.Machine.execLoadQueueFill node core q idx s
  | .taggedRequestAtHome node core => Sys2Proof.Machine.execTaggedRequestAtHome node core s
  | .routerAtomic node core fn addr operand cmp => Sys2Proof.Machine.execRouterAtomic node core fn addr operand cmp s
  | .gangPartArrive node core member => Sys2Proof.Machine.execGangPartArrive node core member s
  | .gangPartCommit node core member => Sys2Proof.Machine.execGangPartCommit node core member s
  | .fabricRequestReceive src dst seq => Sys2Proof.Machine.execFabricRequestReceive src dst seq s
  | .retransmitTimeout src dst seq => Sys2Proof.Machine.execRetransmitTimeout src dst seq s
  | .replyReceive src dst seq => Sys2Proof.Machine.execReplyReceive src dst seq s
  | .packetResidencyDrop src dst seq => Sys2Proof.Machine.execPacketResidencyDrop src dst seq s
  | .heldReleasePerform dst src seq => Sys2Proof.Machine.execHeldReleasePerform dst src seq s
  | .switchPortDownTimeout sw node => Sys2Proof.Machine.execSwitchPortDownTimeout sw node s
  | .switchDropNotice src dst seq => Sys2Proof.Machine.execSwitchDropNotice src dst seq s
  | .packageReset node => Sys2Proof.Machine.execPackageReset node s
  | .linkReady node link => Sys2Proof.Machine.execLinkReady node link s
  | .linkDown node link => Sys2Proof.Machine.execLinkDown node link s
  | .rejoinQuietExpire node => Sys2Proof.Machine.execRejoinQuietExpire node s
  | .rejoinNotice home src => Sys2Proof.Machine.execRejoinNotice home src s
  | .rejoinAck node src => Sys2Proof.Machine.execRejoinAck node src s
  | .rejoinAckTimeout node src => Sys2Proof.Machine.execRejoinAckTimeout node src s
  | .probeFire node router => Sys2Proof.Machine.execProbeFire node router s
  | .probeReturn node router => Sys2Proof.Machine.execProbeReturn node router s
  | .switchFailureDeclare node sw => Sys2Proof.Machine.execSwitchFailureDeclare node sw s
  | .switchFailureNotice node sw => Sys2Proof.Machine.execSwitchFailureNotice node sw s
  | .mirrorAck sw idx => Sys2Proof.Machine.execMirrorAck sw idx s
  | .reductionContribution node core form ctx capb data => Sys2Proof.Machine.execReductionContribution node core form ctx capb data s
  | .reductionLoad node core ctx capb => Sys2Proof.Machine.execReductionLoad node core ctx capb s
  | .reductionRoundTimeout sw ctx => Sys2Proof.Machine.execReductionRoundTimeout sw ctx s
  | .d2dLinkFail node pair => Sys2Proof.Machine.execD2dLinkFail node pair s
  | .kvHalvesMatch send pull => Sys2Proof.Machine.execKvHalvesMatch send pull s
  | .kvPageLanded pull page => Sys2Proof.Machine.execKvPageLanded pull page s
  | .kvTransferTimeout half => Sys2Proof.Machine.execKvTransferTimeout half s
  | .kvTransferEnd half code => Sys2Proof.Machine.execKvTransferEnd half code s
  | .slbind node v => Sys2Proof.Machine.execSlbind node v s
  | .funcStore node slice func => Sys2Proof.Machine.execFuncStore node slice func s
  | .preempt node v => Sys2Proof.Machine.execPreempt node v s
  | .stopComplete node slice => Sys2Proof.Machine.execStopComplete node slice s
  | .freeze node core => Sys2Proof.Machine.execFreeze node core s
  | .ctxopSave node v => Sys2Proof.Machine.execCtxopSave node v s
  | .ctxopHold node v => Sys2Proof.Machine.execCtxopHold node v s
  | .ctxopRestore node v => Sys2Proof.Machine.execCtxopRestore node v s
  | .ctxopResume node v => Sys2Proof.Machine.execCtxopResume node v s
  | .contextSaveDone node => Sys2Proof.Machine.execContextSaveDone node s
  | .contextRestoreDone node => Sys2Proof.Machine.execContextRestoreDone node s
  | .epbindDetach node v => Sys2Proof.Machine.execEpbindDetach node v s
  | .epbindAttach node v => Sys2Proof.Machine.execEpbindAttach node v s
  | .slfree node v => Sys2Proof.Machine.execSlfree node v s
  | .fnfree node v => Sys2Proof.Machine.execFnfree node v s
  | .keyctlLoad node v => Sys2Proof.Machine.execKeyctlLoad node v s
  | .keyctlErase node v => Sys2Proof.Machine.execKeyctlErase node v s
  | .debugUnlock node v => Sys2Proof.Machine.execDebugUnlock node v s
  | .relbase node v => Sys2Proof.Machine.execRelbase node v s
  | .reltail node v => Sys2Proof.Machine.execReltail node v s
  | .relovf node v => Sys2Proof.Machine.execRelovf node v s
  | .relhead node core d => Sys2Proof.Machine.execRelhead node core d s
  | .rstkbase node core v => Sys2Proof.Machine.execRstkbase node core v s
  | .spdmMessage node ep code param => Sys2Proof.Machine.execSpdmMessage node ep code param s
  | .operatorCommand node ep kind key cseq body sig => Sys2Proof.Machine.execOperatorCommand node ep kind key cseq body sig s
  | .imageWrite node ep key cseq addr image sig => Sys2Proof.Machine.execImageWrite node ep key cseq addr image sig s
  | .tenantKeyDelivery node ep func key => Sys2Proof.Machine.execTenantKeyDelivery node ep func key s
  | .switchAttach owner ofunc entry node func vbase => Sys2Proof.Machine.execSwitchAttach owner ofunc entry node func vbase s
  | .switchReadmit node sw => Sys2Proof.Machine.execSwitchReadmit node sw s
  | .readmitNotice node sw => Sys2Proof.Machine.execReadmitNotice node sw s
  | .lockstepMismatch node => Sys2Proof.Machine.execLockstepMismatch node s
  | .workerTimeout node worker => Sys2Proof.Machine.execWorkerTimeout node worker s
  | .thermalThrottle node die => Sys2Proof.Machine.execThermalThrottle node die s
  | .powerThrottle node die => Sys2Proof.Machine.execPowerThrottle node die s
  | .taggedWaitWithdrawal node core => Sys2Proof.Machine.execTaggedWaitWithdrawal node core s
  | .patrolScrub node line => Sys2Proof.Machine.execPatrolScrub node line s
  | .lifecycleChange node state => Sys2Proof.Machine.execLifecycleChange node state s

end Sys2Proof.Machine
end

