-- ==== Sys2Proof/Machine/Turn.lean ====
section
/-!
DEFINITION. Whose turn it is: the agents and events of the agenda, and the acting core behind them.
-/
namespace Sys2Proof.Machine

/-- One turn of the pod: the agent or event at the head of the agenda, or, where the agenda is empty, the acting core. A
core takes its next turn behind everything that waits already. -/
def State.turn (s : State) : Turn :=
  let s := s.tick
  match s.agenda with
  | [] => s.coreTurn
  | .core ck :: t =>
    let s := { s with agenda := t, cur := ck }
    (if s.me.run == .running then s.wake (.core ck) else s).coreTurn
  | .ring ck r :: t => { s with agenda := t, cur := ck }.ringTurn r
  | .event i :: t => .exec i { s with agenda := t }
  | .teardown node v :: t => .idle ({ s with agenda := t }.slfreeTurn node v)

end Sys2Proof.Machine
end

