-- ==== Sys2Proof/Machine/Step.lean ====
section
/-!
DEFINITION. One step of the pod: a turn of one agent (Turn.lean), with the instruction it comes to executed.
-/
namespace Sys2Proof.Machine

/-- One step. -/
def step (s : State) : Host.Outcome State Fault Refusal :=
  match s.turn with
  | .exec i s => exec i s
  | .idle s => .next s

/-- A state in which the next step runs the instruction that these words begin with. -/
def State.withWords (s : State) (w0 w1 w2 : W32) : State :=
  let bytes := [w0, w1, w2].flatMap bytesOfWord
  let engine (r : Nat) : State :=
    let x := s.me.ring r
    { s.setMe (s.me.setRing r { x with queue := [{ word := w0 }], wp := x.rp + 1, park := none, aside := [] }) with agenda := [.ring s.cur r] }
  if (decode bytes).isOk then
    { (s.setBytes (normPa s.node s.pc.toNat) bytes).setMe { s.me with run := .running, fault := none, stop := none, lateErr := [], pushHeld := none, wait := none } with agenda := [] }
  else engine (if (decodeVector w0).isOk then 0 else if (decodeMatrix w0).isOk then 1 else 2)

/-- The state in which the next step runs the instruction of the given word (log entry 9): an access instruction stands
at the program counter of the acting core, which runs; an engine instruction stands at the head of its ring, whose
engine has the next turn. -/
def State.withFetchWord (s : State) (nbits w : Nat) : State :=
  let n := w % 2 ^ nbits
  s.withWords (BitVec.ofNat 32 n) (BitVec.ofNat 32 (n / 2 ^ 32)) (BitVec.ofNat 32 (n / 2 ^ 64))

end Sys2Proof.Machine
end

