-- ==== Sys2Proof/Safety.lean ====
section
/-!
DEFINITION. What a run of the machine keeps, and the frames that the claims are stated with: what an instruction may change
of a state s to reach a state t.
-/
namespace Sys2Proof

/-- The guard of an instruction that carries one in its own field (R103); br and call may invert theirs and are not among them. -/
def Instr.guard : Instr → Option (BitVec 3)
  | .addI64 _ _ _ g => some g
  | .subI64 _ _ _ g => some g
  | .mulI64 _ _ _ g => some g
  | .mulhI64 _ _ _ g => some g
  | .mulhW64 _ _ _ g => some g
  | .divI64 _ _ _ g => some g
  | .divW64 _ _ _ g => some g
  | .remI64 _ _ _ g => some g
  | .andW64 _ _ _ g => some g
  | .orW64 _ _ _ g => some g
  | .xorW64 _ _ _ g => some g
  | .shlI64 _ _ _ g => some g
  | .shrW64 _ _ _ g => some g
  | .sraI64 _ _ _ g => some g
  | .cmpEqI64 _ _ _ g => some g
  | .cmpNeI64 _ _ _ g => some g
  | .cmpLtI64 _ _ _ g => some g
  | .cmpGeI64 _ _ _ g => some g
  | .cmpLtW64 _ _ _ g => some g
  | .cmpGeW64 _ _ _ g => some g
  | .pand _ _ _ g => some g
  | .por _ _ _ g => some g
  | .pxor _ _ _ g => some g
  | .pandn _ _ _ g => some g
  | .pset _ _ g => some g
  | .pget _ _ g => some g
  | .addiI64 _ _ g _ => some g
  | .andiW64 _ _ g _ => some g
  | .oriW64 _ _ g _ => some g
  | .xoriW64 _ _ g _ => some g
  | .shliI64 _ _ g _ => some g
  | .shriW64 _ _ g _ => some g
  | .sraiI64 _ _ g _ => some g
  | .lea _ _ g _ => some g
  | .bxlen _ _ g => some g
  | .jr _ g => some g
  | .ret g => some g
  | .loop _ g _ => some g
  | .ldW8 _ _ g _ => some g
  | .ldW16 _ _ g _ => some g
  | .ldW32 _ _ g _ => some g
  | .ldW64 _ _ g _ => some g
  | .ldI8 _ _ g _ => some g
  | .ldI32 _ _ g _ => some g
  | .stW8 _ _ g _ => some g
  | .stW16 _ _ g _ => some g
  | .stW32 _ _ g _ => some g
  | .stW64 _ _ g _ => some g
  | .ldAcqW32 _ _ g _ => some g
  | .ldAcqW64 _ _ g _ => some g
  | .stRelW32 _ _ g _ => some g
  | .stRelW64 _ _ g _ => some g
  | .amoAddW64 _ _ _ g => some g
  | .amoMinI64 _ _ _ g => some g
  | .amoMaxI64 _ _ _ g => some g
  | .amoAndW64 _ _ _ g => some g
  | .amoOrW64 _ _ _ g => some g
  | .amoXorW64 _ _ _ g => some g
  | .amoXchgW64 _ _ _ g => some g
  | .amoCasW64 _ _ _ g => some g
  | .fence g _ => some g
  | .fenceR _ _ g _ => some g
  | .rld _ _ _ g => some g
  | .setshapeV _ _ _ g _ => some g
  | .setshapeM _ _ _ g _ => some g
  | .asnap _ _ _ g _ => some g
  | .tstat _ g _ => some g
  | .swalloc _ _ _ g => some g
  | .swfree _ _ g => some g
  | .swquota _ _ g => some g
  | .rft g => some g
  | .endThread g => some g
  | .csrr _ g _ => some g
  | .csrw _ g _ => some g
  | .resume _ _ g => some g
  | .qreset _ _ g => some g
  | .tinvPg1 _ g => some g
  | .tinvRg1 _ _ g => some g
  | .tinvAll1 g => some g
  | .tinvPg2 _ _ g => some g
  | .tinvRg2 _ _ g => some g
  | .tinvAll2 _ g => some g
  | .einj _ _ g => some g
  | .takeIb _ _ g => some g
  | .commitIb _ _ _ g => some g
  | .attest _ _ _ g => some g
  | _ => none

/-- The streams of R99, and the events. -/
inductive Stream where
  | access
  | vector
  | matrix
  | copy
  | event
  deriving DecidableEq, Repr

/-- The stream an instruction belongs to (R99). -/
def Instr.stream : Instr → Stream
  | .addI64 .. | .subI64 .. | .mulI64 .. | .mulhI64 .. | .mulhW64 .. | .divI64 .. | .divW64 .. | .remI64 ..
  | .andW64 .. | .orW64 .. | .xorW64 .. | .shlI64 .. | .shrW64 .. | .sraI64 .. | .cmpEqI64 .. | .cmpNeI64 ..
  | .cmpLtI64 .. | .cmpGeI64 .. | .cmpLtW64 .. | .cmpGeW64 .. | .pand .. | .por .. | .pxor .. | .pandn .. | .pset ..
  | .pget .. | .addiI64 .. | .andiW64 .. | .oriW64 .. | .xoriW64 .. | .shliI64 .. | .shriW64 .. | .sraiI64 ..
  | .li .. | .lea .. | .bxlen .. | .br .. | .call .. | .jr .. | .ret .. | .loop .. | .ldW8 .. | .ldW16 .. | .ldW32 ..
  | .ldW64 .. | .ldI8 .. | .ldI32 .. | .stW8 .. | .stW16 .. | .stW32 .. | .stW64 .. | .ldAcqW32 .. | .ldAcqW64 ..
  | .stRelW32 .. | .stRelW64 .. | .waitTk .. | .barWait .. | .ldwfW64 .. | .stweW64 .. | .pop .. | .sigTk ..
  | .barArrive .. | .join .. | .leave .. | .amoAddW64 .. | .amoMinI64 .. | .amoMaxI64 .. | .amoAndW64 ..
  | .amoOrW64 .. | .amoXorW64 .. | .amoXchgW64 .. | .amoCasW64 .. | .fence .. | .fenceR .. | .rld .. | .setshapeV ..
  | .setshapeM .. | .asnap .. | .tstat .. | .swalloc .. | .swfree .. | .swquota .. | .yield .. | .enqueuePrefix ..
  | .trap .. | .rft .. | .endThread .. | .csrr .. | .csrw .. | .resume .. | .qreset .. | .tinvPg1 .. | .tinvRg1 ..
  | .tinvAll1 .. | .tinvPg2 .. | .tinvRg2 .. | .tinvAll2 .. | .einj .. | .takeIb .. | .commitIb .. | .attest .. => .access
  | .vaddF32 .. | .vsubF32 .. | .vmulF32 .. | .vfmaF32 .. | .vfmaF32TMultiplier .. | .vminF32 .. | .vmaxF32 ..
  | .vabsF32 .. | .vnegF32 .. | .vcmpF32 .. | .vrcpF32 .. | .vrsqrtF32 .. | .vexp2F32 .. | .vlog2F32 ..
  | .vtanhF32 .. | .vaddInt .. | .vsubInt .. | .vmulInt .. | .vmulh .. | .vminInt .. | .vmaxInt .. | .vabsInt ..
  | .vand .. | .vor .. | .vxor .. | .vshl .. | .vshr .. | .vcmpSigned .. | .vcmpUnsigned .. | .vsel .. | .vmask ..
  | .vmov .. | .vcvt .. | .vcvtSat .. | .vcvtFloatToInt .. | .vcvtIntToFloat .. | .vcvtIntToInt .. | .vbscale ..
  | .vquant .. | .vredF32 .. | .vredInt .. | .vscanF32 .. | .vscanInt .. | .vperm .. | .vrot .. | .viota ..
  | .vpart .. | .vport .. | .vportd .. | .vrep .. | .vsplat .. | .vnop .. => .vector
  | .mld .. | .mldt .. | .mwld .. | .mwldt .. | .mmulOvw .. | .mmulAcc .. | .mgangOvw .. | .mgangAcc .. | .mzero ..
  | .macc .. | .mldacc .. | .mescale .. | .mescv .. | .mebias .. | .meact .. | .meclamp .. | .mecvt .. | .mst ..
  | .mstn .. | .msnap .. | .mstt .. | .mmov .. | .mtr .. | .mnop .. => .matrix
  | .cldHbm .. | .cstHbm .. | .cld2d .. | .cst2d .. | .ccpy .. | .ccvt .. | .cgat .. | .csct .. | .cfill ..
  | .cfillSp .. | .ctag .. | .cpref .. | .cmovSp .. | .cmst .. | .ckvSend .. | .ckvPull .. | .ckvSync .. | .cldSw ..
  | .cstSw .. | .credInit .. | .credSw .. | .cldrSw .. | .credDrop .. | .cmstSw .. | .cbatAdd .. | .cbatMin ..
  | .cbatMax .. | .cbatOr .. | .cbatXchg .. | .cskInit .. | .cskIns .. | .cskDel .. | .cskSend .. | .cskXchg ..
  | .cskPeel .. | .cskFetch .. | .cskRsz .. | .cnop .. | .cfence .. | .csig .. => .copy
  | .invocationStart .. | .iterationDispatch .. | .threadStart .. | .threadEnd .. | .copyNodeRetire .. | .nodeCond ..
  | .nodeWhile .. | .nodeNotify .. | .invocationRetire .. | .schedBoundary .. | .packPlacementDone ..
  | .faultHandlerStart .. | .watchdogExpire .. | .loadQueueFill .. | .gangPartArrive .. | .gangPartCommit ..
  | .fabricRequestReceive .. | .taggedWaitWithdrawal .. | .retransmitTimeout .. | .kvHalvesMatch ..
  | .reductionRoundTimeout .. | .contextRestoreDone .. | .kvPageLanded .. | .kvTransferTimeout .. | .kvTransferEnd ..
  | .stopComplete .. | .contextSaveDone .. | .heldReleasePerform .. | .commandMessage .. | .slotLoad ..
  | .slotUnload .. | .slotQuery .. | .invoke .. | .schedSet .. | .admitRequest .. | .cancel .. | .packRegister ..
  | .packDrop .. | .translationWalk .. | .timedWaitTimeout .. | .bankPowerGate .. | .taggedRequestAtHome ..
  | .routerAtomic .. | .packetResidencyDrop .. | .switchPortDownTimeout .. | .switchDropNotice .. | .packageReset ..
  | .linkReady .. | .linkDown .. | .rejoinQuietExpire .. | .rejoinNotice .. | .rejoinAck .. | .rejoinAckTimeout ..
  | .probeFire .. | .probeReturn .. | .switchFailureDeclare .. | .switchFailureNotice .. | .mirrorAck ..
  | .reductionContribution .. | .reductionLoad .. | .d2dLinkFail .. | .slbind .. | .funcStore .. | .preempt ..
  | .freeze .. | .ctxopSave .. | .ctxopHold .. | .ctxopRestore .. | .ctxopResume .. | .epbindDetach ..
  | .epbindAttach .. | .slfree .. | .fnfree .. | .keyctlLoad .. | .keyctlErase .. | .debugUnlock .. | .relbase ..
  | .reltail .. | .relovf .. | .relhead .. | .rstkbase .. | .spdmMessage .. | .operatorCommand .. | .imageWrite ..
  | .tenantKeyDelivery .. | .switchAttach .. | .switchReadmit .. | .readmitNotice .. | .lockstepMismatch ..
  | .workerTimeout .. | .thermalThrottle .. | .powerThrottle .. | .replyReceive .. | .patrolScrub ..
  | .lifecycleChange .. => .event

/-- The numbers of a set rise strictly. -/
def NSet.sorted : NSet → Bool
  | [] => true
  | [_] => true
  | a :: b :: t => a < b && NSet.sorted (b :: t)

end Sys2Proof

namespace Sys2Proof.Machine

/-- p0 reads 1 and s0 reads 0 on every core, by their accessors; what is kept in the state is that memory stands in its
canonical form (R4, R59), and the full tags as a set (R237). -/
def State.Inv (s : State) : Prop := s.mem.wf = true ∧ NSet.sorted s.tags = true

/-- Nothing but cores and the agenda differ, and of the cores only the acting one. -/
def OnlyMe (s t : State) : Prop :=
  t = { s with cores := t.cores, agenda := t.agenda } ∧ ∀ ck, ck ≠ s.cur → t.core ck = s.core ck

/-- Of the acting core, only its place in the program (pc, loops) and its watchdog differ. -/
def PlaceOnly (s t : State) : Prop :=
  OnlyMe s t ∧ t.me = { s.me with pc := t.me.pc, loops := t.me.loops, watchdog := t.me.watchdog }

/-- Of the acting core, only scalar registers, its place in the program and its watchdog differ. -/
def RegsOnly (s t : State) : Prop :=
  OnlyMe s t ∧ t.me = { s.me with s := t.me.s, pc := t.me.pc, loops := t.me.loops, watchdog := t.me.watchdog }

/-- Of the acting core, only predicate registers, its place in the program and its watchdog differ. -/
def PredsOnly (s t : State) : Prop :=
  OnlyMe s t ∧ t.me = { s.me with p := t.me.p, pc := t.me.pc, loops := t.me.loops, watchdog := t.me.watchdog }

/-- Outside a counted loop, the next instruction is the one behind this one-word instruction. -/
def Advances (s t : State) : Prop := s.me.loops = [] → t.pc = s.pc + 4

/-- A scalar register takes a value (s0 takes none, R116), and nothing else changes but the place in the program. -/
def RegResult (s t : State) (d : BitVec 5) (v : W64) : Prop :=
  (∀ q, t.reg q = if q = d ∧ q ≠ 0 then v else s.reg q) ∧ Advances s t ∧ RegsOnly s t

/-- A predicate register takes a value (p0 takes none, R116), and nothing else changes but the place in the program. -/
def PredResult (s t : State) (d : BitVec 3) (v : Bool) : Prop :=
  (∀ q, t.pred q = if q = d ∧ q ≠ 0 then v else s.pred q) ∧ Advances s t ∧ PredsOnly s t

/-- The acting core takes a trap at its vector: it is in no handler, and TVEC is usable (R300). -/
def State.CanTrap (s : State) : Prop := s.me.trapH = false ∧ s.me.tvec ≠ 0 ∧ s.me.tvec.toNat % 4 = 0

/-- The acting core has taken a trap (R300): what TRAPCAUSE, TRAPADDR, TRAPPC, TRAPH and the call depth become, where it goes
on, and that nothing else has changed but the counter of the cause (R314). -/
def Trapped (s t : State) (cause : Nat) (addr ret : W64) : Prop :=
  t.me = { s.me with
    trapCause := BitVec.ofNat 8 cause, trapAddr := addr, trapPc := ret, trapH := true, cdepth := s.me.cdepth + 1, wait := none, relWait := none
    pushHeld := none, pc := s.me.tvec } ∧
  (∀ ck, ck ≠ s.cur → t.core ck = s.core ck) ∧ t = { s with cores := t.cores, mem := t.mem } ∧
  ∀ a, ¬(ctl s.node (0x200000 + 8 * cause) ≤ a ∧ a < ctl s.node (0x200000 + 8 * cause) + 4) → t.mem.get a = s.mem.get a

/-- The key under which the bytes of a page stand (R76). -/
def State.keyOf (s : State) (pg : Page) : Option Key := if pg.enc then s.lineKey pg.pa else none

/-- An access of n bytes by the acting core at a page of its own package's HBM or of a scratchpad of its package that nothing
refuses (R304), races with (R270) or reads back with an error (R305), in a line that stands under the page's key (R76).
acc: 0 read, 1 write, 2 atomic. -/
structure PlainAccess (s : State) (pg : Page) (n acc : Nat) : Prop where
  admitted : s.homeRefuses (s.party s.cur) pg.pa n acc pg.enc = none
  noRace : s.raceAt s.cur pg n = none
  own : pg.pa / 2 ^ 48 = s.node
  notControl : ∀ m o, region pg.pa ≠ .control m o
  single : pg.alt = none
  key : s.enc.get? (pg.pa / 64) = s.keyOf pg
  inLine : pg.pa % 64 + n ≤ 64
  clean : s.poison = [] ∧ s.soft = []
  noFault : s.me.upsets = []

/-- Bytes have been stored at an address, and every other byte outside the control regions (whose counters an access may
advance) is as before. -/
def Stored (s t : State) (a : Nat) (bs : List Byte) : Prop :=
  ∀ x, (∀ m o, region x ≠ .control m o) → t.mem.get x = if a ≤ x ∧ x < a + bs.length then bs.getD (x - a) 0 else s.mem.get x

/-- Of a state, a store changes memory, what is noted about the line (R268, R270), the acting core's data cache, its place in
the program and its watchdog. -/
def StoreOnly (s t : State) : Prop :=
  t = { s with mem := t.mem, poison := t.poison, soft := t.soft, lines := t.lines, stamps := t.stamps, cores := t.cores, agenda := t.agenda } ∧
  (∀ ck, ck ≠ s.cur → t.core ck = s.core ck) ∧
  t.me = { s.me with pc := t.me.pc, loops := t.me.loops, watchdog := t.me.watchdog, dcache := t.me.dcache }

/-- The word of an instruction, as a trap that names the instruction reports it (R6). -/
def wordOf (i : Instr) : W64 := ((encode i).headD 0).setWidth 64

/-- The environment has no fault in store for a unit of the acting core (R307). -/
def State.Healthy (s : State) (unit : Nat) : Prop := ∀ u, s.me.upsets.head? = some u → u.unit ≠ unit

/-- The head entry of the vector ring is i and works lane by lane (R159, R169): its sources vs of width e, once read, give on
each lane below L that its mask m selects the value f, and the entry completes with these lanes as its result (R158), unless the
shadow finds a divergence in one (R180). -/
def LaneForm (s : State) (i : Instr) (e w d m : Nat) (vs : List Nat) (clear : Bool) (f : List (List Nat) → Nat → Nat)
    (div : List (List Nat) → Nat → Bool) : Prop :=
  let ent := s.entry 0
  ∀ xs vals u v, (s.wakeBanks ent.word).sources ent e vs = .ok (xs, vals) u → u.Healthy 2 → (∀ j, j < ent.lg → div xs j = false) →
    u.deliverV d vals (.lanes w ((List.range ent.lp).map fun j => if j < ent.lg ∧ u.me.maskBit m j = true then some (f xs j) else none) clear)
      = .ok () v →
    exec i s = .next (v.entryDone 0)

/-- Of a matrix unit, the granted elements of one accumulator slot take the values g, and no other element, slot or tile changes
(R182, R189, R195). -/
def SlotTakes (u v : MatUnit) (sh : W64) (c : Nat) (g : Nat → Nat → Nat) : Prop :=
  v.tiles = u.tiles ∧ v.parts = u.parts ∧ v.copy = u.copy ∧ (∀ i : Fin 8, i.val ≠ c → v.slots[i] = u.slots[i]) ∧
  (∀ m n, m < shMGR sh → n < shNGR sh → Tab.getD (v.slot c).elems (m * 64 + n) 0 = BitVec.ofNat 32 (g m n)) ∧
  ∀ k, (∀ m n, m < shMGR sh → n < shNGR sh → k ≠ m * 64 + n) → Tab.getD (v.slot c).elems k 0 = Tab.getD (u.slot c).elems k 0

/-- An epilogue form completes: the slot's granted elements take the values g, its NAN and INF bits join those of the values read
and written, its OVF bit joins o, and its pass count and CKV become 0 (R195, R95). -/
def EpilogueDone (s : State) (o : Out) (c : Nat) (g : Nat → Nat → Nat) (read : List Nat) (ovf : Bool) : Prop :=
  let sh := (s.entry 1).shape
  let old := s.me.mat.slot c
  let all := read ++ (granted sh).map fun p => g p.1 p.2
  ∃ v, o = .next (s.matDone v) ∧ SlotTakes s.me.mat v sh c g ∧ (v.slot c).pass = 0 ∧ (v.slot c).ckv = false ∧
    (v.slot c).nan = (old.nan || all.any fun x => (v32 x).isNan) ∧ (v.slot c).inf = (old.inf || all.any fun x => (v32 x).isInf) ∧
    (v.slot c).ovf = (old.ovf || ovf)

/-- A list of bytes as a tile's element store reads it. -/
def streamOf (bs : List Byte) : Memory := (bs.foldl (fun (acc : Memory × Nat) b => (acc.1.set acc.2 b, acc.2 + 1)) ([], 0)).1

end Sys2Proof.Machine
end

