-- ==== Sys2Proof/WellFormed.lean ====
section
/-!
DEFINITION. Which instructions the encoding admits: every operand in the range its form gives it (R105 to R109, R112 to
R114, and the rules the opcode maps point to). An event names no fields of a word and is always well-formed.
-/
namespace Sys2Proof

/-- The operands of an instruction lie in the ranges the spec gives its form. -/
def Instr.wf : Instr → Bool
  | .addI64 _ _ _ _ => true
  | .subI64 _ _ _ _ => true
  | .mulI64 _ _ _ _ => true
  | .mulhI64 _ _ _ _ => true
  | .mulhW64 _ _ _ _ => true
  | .divI64 _ _ _ _ => true
  | .divW64 _ _ _ _ => true
  | .remI64 _ _ _ _ => true
  | .andW64 _ _ _ _ => true
  | .orW64 _ _ _ _ => true
  | .xorW64 _ _ _ _ => true
  | .shlI64 _ _ _ _ => true
  | .shrW64 _ _ _ _ => true
  | .sraI64 _ _ _ _ => true
  | .cmpEqI64 _ _ _ _ => true
  | .cmpNeI64 _ _ _ _ => true
  | .cmpLtI64 _ _ _ _ => true
  | .cmpGeI64 _ _ _ _ => true
  | .cmpLtW64 _ _ _ _ => true
  | .cmpGeW64 _ _ _ _ => true
  | .pand _ _ _ _ => true
  | .por _ _ _ _ => true
  | .pxor _ _ _ _ => true
  | .pandn _ _ _ _ => true
  | .pset _ _ _ => true
  | .pget _ _ _ => true
  | .addiI64 _ _ _ _ => true
  | .andiW64 _ _ _ _ => true
  | .oriW64 _ _ _ _ => true
  | .xoriW64 _ _ _ _ => true
  | .shliI64 _ _ _ _ => true
  | .shriW64 _ _ _ _ => true
  | .sraiI64 _ _ _ _ => true
  | .li _ _ => true
  | .lea _ _ _ _ => true
  | .bxlen _ _ _ => true
  | .br _ _ _ => true
  | .call _ _ _ => true
  | .jr _ _ => true
  | .ret _ => true
  | .loop _ _ i => 0 < i.toNat
  | .ldW8 _ _ _ _ => true
  | .ldW16 _ _ _ _ => true
  | .ldW32 _ _ _ _ => true
  | .ldW64 _ _ _ _ => true
  | .ldI8 _ _ _ _ => true
  | .ldI32 _ _ _ _ => true
  | .stW8 _ _ _ _ => true
  | .stW16 _ _ _ _ => true
  | .stW32 _ _ _ _ => true
  | .stW64 _ _ _ _ => true
  | .ldAcqW32 _ _ _ s => s.toNat < 5
  | .ldAcqW64 _ _ _ s => s.toNat < 5
  | .stRelW32 _ _ _ s => s.toNat < 5
  | .stRelW64 _ _ _ s => s.toNat < 5
  | .waitTk _ k _ => 0 < k.toNat && k.toNat < 64
  | .barWait _ _ _ => true
  | .ldwfW64 _ _ _ _ => true
  | .stweW64 _ _ _ _ => true
  | .pop _ q _ _ => q.toNat < 4
  | .sigTk k => 0 < k.toNat && k.toNat < 64
  | .barArrive _ => true
  | .join k => k.toNat < 64
  | .leave k => k.toNat < 64
  | .amoAddW64 _ _ _ _ => true
  | .amoMinI64 _ _ _ _ => true
  | .amoMaxI64 _ _ _ _ => true
  | .amoAndW64 _ _ _ _ => true
  | .amoOrW64 _ _ _ _ => true
  | .amoXorW64 _ _ _ _ => true
  | .amoXchgW64 _ _ _ _ => true
  | .amoCasW64 _ _ _ _ => true
  | .fence _ s => s.toNat < 5
  | .fenceR _ _ _ s => s.toNat < 5
  | .rld _ _ _ _ => true
  | .setshapeV _ _ _ _ _ => true
  | .setshapeM _ a _ _ _ => a.toNat < 30
  | .asnap d _ _ _ _ => 0 < d.toNat && d.toNat < 31
  | .tstat _ _ _ => true
  | .swalloc _ _ _ _ => true
  | .swfree _ _ _ => true
  | .swquota d _ _ => 0 < d.toNat && d.toNat < 31
  | .yield _ => true
  | .enqueuePrefix e _ _ _ _ _ w1 w2 => if e = 0 then w1 == 0 && w2 == 0 else (e == 3 && bit w1.toNat 20) || w2 == 0
  | .trap _ => true
  | .rft _ => true
  | .endThread _ => true
  | .csrr _ _ _ => true
  | .csrw _ _ _ => true
  | .resume _ _ _ => true
  | .qreset _ _ _ => true
  | .tinvPg1 _ _ => true
  | .tinvRg1 _ _ _ => true
  | .tinvAll1 _ => true
  | .tinvPg2 _ _ _ => true
  | .tinvRg2 _ _ _ => true
  | .tinvAll2 _ _ => true
  | .einj _ _ _ => true
  | .takeIb _ _ _ => true
  | .commitIb _ _ _ _ => true
  | .attest _ _ _ _ => true
  | .vaddF32 d a b _ _ _ => dstOk d.toNat && srcOk a.toNat && srcOk b.toNat && bankOk a.toNat b.toNat
  | .vsubF32 d a b _ _ _ => dstOk d.toNat && srcOk a.toNat && srcOk b.toNat && bankOk a.toNat b.toNat
  | .vmulF32 d a b _ _ _ => dstOk d.toNat && srcOk a.toNat && srcOk b.toNat && bankOk a.toNat b.toNat
  | .vfmaF32 d a b _ _ _ => dstOk d.toNat && srcOk a.toNat && srcOk b.toNat && bankOk a.toNat b.toNat
  | .vfmaF32TMultiplier d a b _ _ _ => dstOk d.toNat && srcOk a.toNat && srcOk b.toNat && bankOk a.toNat b.toNat
  | .vminF32 d a b _ _ => dstOk d.toNat && srcOk a.toNat && srcOk b.toNat && bankOk a.toNat b.toNat
  | .vmaxF32 d a b _ _ => dstOk d.toNat && srcOk a.toNat && srcOk b.toNat && bankOk a.toNat b.toNat
  | .vabsF32 d a _ _ => dstOk d.toNat && srcOk a.toNat
  | .vnegF32 d a _ _ => dstOk d.toNat && srcOk a.toNat
  | .vcmpF32 d a b _ _ _ => 0 < d.toNat && d.toNat < 8 && srcOk a.toNat && srcOk b.toNat && bankOk a.toNat b.toNat
  | .vrcpF32 d a _ _ => dstOk d.toNat && srcOk a.toNat
  | .vrsqrtF32 d a _ _ => dstOk d.toNat && srcOk a.toNat
  | .vexp2F32 d a _ _ => dstOk d.toNat && srcOk a.toNat
  | .vlog2F32 d a _ _ => dstOk d.toNat && srcOk a.toNat
  | .vtanhF32 d a _ _ => dstOk d.toNat && srcOk a.toNat
  | .vaddInt d a b _ _ _ => dstOk d.toNat && srcOk a.toNat && srcOk b.toNat && bankOk a.toNat b.toNat
  | .vsubInt d a b _ _ _ => dstOk d.toNat && srcOk a.toNat && srcOk b.toNat && bankOk a.toNat b.toNat
  | .vmulInt d a b _ _ _ => dstOk d.toNat && srcOk a.toNat && srcOk b.toNat && bankOk a.toNat b.toNat
  | .vmulh d a b _ _ _ => dstOk d.toNat && srcOk a.toNat && srcOk b.toNat && bankOk a.toNat b.toNat
  | .vminInt d a b _ _ _ => dstOk d.toNat && srcOk a.toNat && srcOk b.toNat && bankOk a.toNat b.toNat
  | .vmaxInt d a b _ _ _ => dstOk d.toNat && srcOk a.toNat && srcOk b.toNat && bankOk a.toNat b.toNat
  | .vabsInt d a _ _ => dstOk d.toNat && srcOk a.toNat
  | .vand d a b _ _ => dstOk d.toNat && srcOk a.toNat && srcOk b.toNat && bankOk a.toNat b.toNat
  | .vor d a b _ _ => dstOk d.toNat && srcOk a.toNat && srcOk b.toNat && bankOk a.toNat b.toNat
  | .vxor d a b _ _ => dstOk d.toNat && srcOk a.toNat && srcOk b.toNat && bankOk a.toNat b.toNat
  | .vshl d a b _ _ => dstOk d.toNat && srcOk a.toNat && srcOk b.toNat && bankOk a.toNat b.toNat
  | .vshr d a b _ _ _ => dstOk d.toNat && srcOk a.toNat && srcOk b.toNat && bankOk a.toNat b.toNat
  | .vcmpSigned d a b _ _ _ => 0 < d.toNat && d.toNat < 8 && srcOk a.toNat && srcOk b.toNat && bankOk a.toNat b.toNat
  | .vcmpUnsigned d a b _ _ _ => 0 < d.toNat && d.toNat < 8 && srcOk a.toNat && srcOk b.toNat && bankOk a.toNat b.toNat
  | .vsel d a b _ _ => dstOk d.toNat && srcOk a.toNat && srcOk b.toNat && bankOk a.toNat b.toNat
  | .vmask d a b _ _ => 0 < d.toNat && d.toNat < 8 && a.toNat < 8 && b.toNat < 8
  | .vmov d a _ _ => dstOk d.toNat && srcOk a.toNat
  | .vcvt d a t _ _ _ => dstOk d.toNat && srcOk a.toNat && pairOk true true t.toNat
  | .vcvtSat d a t _ _ _ => dstOk d.toNat && srcOk a.toNat && pairOk true true t.toNat
  | .vcvtFloatToInt d a t _ _ _ => dstOk d.toNat && srcOk a.toNat && pairOk false true t.toNat
  | .vcvtIntToFloat d a t _ _ _ => dstOk d.toNat && srcOk a.toNat && pairOk true false t.toNat
  | .vcvtIntToInt d a t _ _ _ => dstOk d.toNat && srcOk a.toNat && pairOk false false t.toNat
  | .vbscale d a f _ _ => dstOk d.toNat && srcOk a.toNat && blockCode f.toNat
  | .vquant d a f _ _ => dstOk d.toNat && srcOk a.toNat && blockCode f.toNat
  | .vredF32 d a _ _ o => dstOk d.toNat && srcOk a.toNat && o.toNat < 3
  | .vredInt d a _ _ _ _ => dstOk d.toNat && srcOk a.toNat
  | .vscanF32 d a _ _ o => dstOk d.toNat && srcOk a.toNat && o.toNat < 3
  | .vscanInt d a _ _ _ _ => dstOk d.toNat && srcOk a.toNat
  | .vperm d a b _ _ => dstOk d.toNat && srcOk a.toNat && srcOk b.toNat && bankOk a.toNat b.toNat
  | .vrot d a _ _ => dstOk d.toNat && srcOk a.toNat
  | .viota d _ _ => dstOk d.toNat
  | .vpart d a b _ m => 8 ≤ d.toNat && d.toNat < 12 && srcOk a.toNat && 8 ≤ b.toNat && b.toNat < 12 && 0 < m.toNat
  | .vport d _ => d.toNat < 12
  | .vportd d _ => d.toNat < 12
  | .vrep n => 0 < n.toNat
  | .vsplat d _ _ c => dstOk d.toNat && c.toNat < 2
  | .vnop => true
  | .mld _ _ _ => true
  | .mldt _ _ _ => true
  | .mwld _ _ _ => true
  | .mwldt _ _ _ => true
  | .mmulOvw _ _ _ _ _ => true
  | .mmulAcc _ _ _ _ _ => true
  | .mgangOvw _ _ _ _ _ _ _ _ => true
  | .mgangAcc _ _ _ _ _ _ _ _ => true
  | .mzero _ _ => true
  | .macc _ _ _ => true
  | .mldacc _ _ => true
  | .mescale _ _ => true
  | .mescv _ _ => true
  | .mebias _ _ => true
  | .meact _ _ f => f.toNat < 4
  | .meclamp _ _ => true
  | .mecvt _ _ _ _ f => cvtCode f.toNat
  | .mst _ _ t _ f => storeCode f.toNat && !(t.toNat == 1 && noSatCode f.toNat)
  | .mstn _ _ t _ f => storeCode f.toNat && !(t.toNat == 1 && noSatCode f.toNat)
  | .msnap _ _ => true
  | .mstt _ _ => true
  | .mmov _ _ _ => true
  | .mtr _ _ _ => true
  | .mnop => true
  | .cldHbm q r s _ x => scopeOk q.toNat r.toNat s.toNat && x.toNat < 0xC0000
  | .cstHbm q r s x => scopeOk q.toNat r.toNat s.toNat && x.toNat < 0xC0000
  | .cld2d q r s _ x => scopeOk q.toNat r.toNat s.toNat && x.toNat < 0xC0000
  | .cst2d q r s x => scopeOk q.toNat r.toNat s.toNat && x.toNat < 0xC0000
  | .ccpy q r s x => scopeOk q.toNat r.toNat s.toNat && 0 < x.toNat
  | .ccvt q r s x => scopeOk q.toNat r.toNat s.toNat && 0 < bits x.toNat 8 12 && ccvtCode (bits x.toNat 0 5)
  | .cgat q r s _ x => scopeOk q.toNat r.toNat s.toNat && x.toNat < 0xC0000
  | .csct q r s x => scopeOk q.toNat r.toNat s.toNat && x.toNat < 0xC0000
  | .cfill q r s x => scopeOk q.toNat r.toNat s.toNat && 0 < x.toNat
  | .cfillSp q r s x => scopeOk q.toNat r.toNat s.toNat && x.toNat < 0xC0000
  | .ctag q r s x => scopeOk q.toNat r.toNat s.toNat && x.toNat < 0xC0000
  | .cpref q r s x => scopeOk q.toNat r.toNat s.toNat && 0 < x.toNat
  | .cmovSp q r s _ x => scopeOk q.toNat r.toNat s.toNat && x.toNat < 0xC0000
  | .cmst q r s x => scopeOk q.toNat r.toNat s.toNat && x.toNat < 0xC0000
  | .ckvSend q r s => scopeOk q.toNat r.toNat s.toNat
  | .ckvPull q r s _ => scopeOk q.toNat r.toNat s.toNat
  | .ckvSync q r s => scopeOk q.toNat r.toNat s.toNat
  | .cldSw q r s _ x => scopeOk q.toNat r.toNat s.toNat && x.toNat < 0xC0000
  | .cstSw q r s x => scopeOk q.toNat r.toNat s.toNat && x.toNat < 0xC0000
  | .credInit q r s x => scopeOk q.toNat r.toNat s.toNat && redFieldOk x.toNat
  | .credSw q r s x => scopeOk q.toNat r.toNat s.toNat && x.toNat < 0xC0000
  | .cldrSw q r s _ x => scopeOk q.toNat r.toNat s.toNat && x.toNat < 0xC0000
  | .credDrop q r s _ => scopeOk q.toNat r.toNat s.toNat
  | .cmstSw q r s x => scopeOk q.toNat r.toNat s.toNat && x.toNat < 0xC0000
  | .cbatAdd q r s x => scopeOk q.toNat r.toNat s.toNat && x.toNat < 0xC0000
  | .cbatMin q r s x => scopeOk q.toNat r.toNat s.toNat && x.toNat < 0xC0000
  | .cbatMax q r s x => scopeOk q.toNat r.toNat s.toNat && x.toNat < 0xC0000
  | .cbatOr q r s x => scopeOk q.toNat r.toNat s.toNat && x.toNat < 0xC0000
  | .cbatXchg q r s x => scopeOk q.toNat r.toNat s.toNat && x.toNat < 0xC0000
  | .cskInit q r s _ => scopeOk q.toNat r.toNat s.toNat
  | .cskIns q r s => scopeOk q.toNat r.toNat s.toNat
  | .cskDel q r s => scopeOk q.toNat r.toNat s.toNat
  | .cskSend q r s => scopeOk q.toNat r.toNat s.toNat
  | .cskXchg q r s => scopeOk q.toNat r.toNat s.toNat
  | .cskPeel q r s => scopeOk q.toNat r.toNat s.toNat
  | .cskFetch q r s _ => scopeOk q.toNat r.toNat s.toNat
  | .cskRsz q r s => scopeOk q.toNat r.toNat s.toNat
  | .cnop => true
  | .cfence q r s => scopeOk q.toNat r.toNat s.toNat
  | .csig q r s k => scopeOk q.toNat r.toNat s.toNat && k.toNat < 2
  | .commandMessage _ _ _ _ _ _ _ _ _ _ _ => true
  | .slotLoad _ _ _ => true
  | .slotUnload _ _ _ => true
  | .slotQuery _ _ _ => true
  | .invoke _ _ _ => true
  | .schedSet _ _ _ => true
  | .admitRequest _ _ _ => true
  | .cancel _ _ _ => true
  | .packRegister _ _ _ => true
  | .packDrop _ _ _ => true
  | .invocationStart _ _ _ => true
  | .iterationDispatch _ _ => true
  | .threadStart _ _ => true
  | .threadEnd _ _ => true
  | .copyNodeRetire _ _ _ _ => true
  | .nodeCond _ _ _ _ => true
  | .nodeWhile _ _ _ _ => true
  | .nodeNotify _ _ _ _ => true
  | .invocationRetire _ _ _ => true
  | .schedBoundary _ _ _ => true
  | .packPlacementDone _ _ _ => true
  | .translationWalk _ _ _ _ _ => true
  | .faultHandlerStart _ _ _ => true
  | .timedWaitTimeout _ _ => true
  | .watchdogExpire _ _ => true
  | .bankPowerGate _ _ _ => true
  | .loadQueueFill _ _ _ _ => true
  | .taggedRequestAtHome _ _ => true
  | .routerAtomic _ _ _ _ _ _ => true
  | .gangPartArrive _ _ _ => true
  | .gangPartCommit _ _ _ => true
  | .fabricRequestReceive _ _ _ => true
  | .retransmitTimeout _ _ _ => true
  | .replyReceive _ _ _ => true
  | .packetResidencyDrop _ _ _ => true
  | .heldReleasePerform _ _ _ => true
  | .switchPortDownTimeout _ _ => true
  | .switchDropNotice _ _ _ => true
  | .packageReset _ => true
  | .linkReady _ _ => true
  | .linkDown _ _ => true
  | .rejoinQuietExpire _ => true
  | .rejoinNotice _ _ => true
  | .rejoinAck _ _ => true
  | .rejoinAckTimeout _ _ => true
  | .probeFire _ _ => true
  | .probeReturn _ _ => true
  | .switchFailureDeclare _ _ => true
  | .switchFailureNotice _ _ => true
  | .mirrorAck _ _ => true
  | .reductionContribution _ _ _ _ _ _ => true
  | .reductionLoad _ _ _ _ => true
  | .reductionRoundTimeout _ _ => true
  | .d2dLinkFail _ _ => true
  | .kvHalvesMatch _ _ => true
  | .kvPageLanded _ _ => true
  | .kvTransferTimeout _ => true
  | .kvTransferEnd _ _ => true
  | .slbind _ _ => true
  | .funcStore _ _ _ => true
  | .preempt _ _ => true
  | .stopComplete _ _ => true
  | .freeze _ _ => true
  | .ctxopSave _ _ => true
  | .ctxopHold _ _ => true
  | .ctxopRestore _ _ => true
  | .ctxopResume _ _ => true
  | .contextSaveDone _ => true
  | .contextRestoreDone _ => true
  | .epbindDetach _ _ => true
  | .epbindAttach _ _ => true
  | .slfree _ _ => true
  | .fnfree _ _ => true
  | .keyctlLoad _ _ => true
  | .keyctlErase _ _ => true
  | .debugUnlock _ _ => true
  | .relbase _ _ => true
  | .reltail _ _ => true
  | .relovf _ _ => true
  | .relhead _ _ _ => true
  | .rstkbase _ _ _ => true
  | .spdmMessage _ _ _ _ => true
  | .operatorCommand _ _ _ _ _ _ _ => true
  | .imageWrite _ _ _ _ _ _ _ => true
  | .tenantKeyDelivery _ _ _ _ => true
  | .switchAttach _ _ _ _ _ _ => true
  | .switchReadmit _ _ => true
  | .readmitNotice _ _ => true
  | .lockstepMismatch _ => true
  | .workerTimeout _ _ => true
  | .thermalThrottle _ _ => true
  | .powerThrottle _ _ => true
  | .taggedWaitWithdrawal _ _ => true
  | .patrolScrub _ _ => true
  | .lifecycleChange _ _ => true

end Sys2Proof
end

