-- ==== Sys2Proof/Certificates/Slice0/Obligations.lean ====
section
/-!
DEFINITION. The statements about the machine that are to be proved. Each docstring names the rules of spec/ that the statement
formalises; a clause that rests on a choice of the model says so and names the log entry.
-/
open Sys2Proof Sys2Proof.Machine

/-! ### The access core: arithmetic, compares, control -/

/-- R118, Table 8.2: a register form of opcode 0x01 of which the guard is true writes its result modulo 2^64, without a trap on
overflow or on division by zero, every other register, predicate, special register and byte of memory staying as it was; and the
words of the forms. The unit has no fault in store (R307). -/
def Obligations.RegisterArithmeticWritesItsResult : Prop :=
  ∀ (s : State) (d a b : BitVec 5) (g : BitVec 3), s.pred g = true → s.Healthy 1 →
    (∃ t, exec (.addI64 d a b g) s = .next t ∧ RegResult s t d (s.reg a + s.reg b)) ∧
    (∃ t, exec (.subI64 d a b g) s = .next t ∧ RegResult s t d (s.reg a - s.reg b)) ∧
    (∃ t, exec (.mulI64 d a b g) s = .next t ∧ RegResult s t d (s.reg a * s.reg b)) ∧
    (∃ t, exec (.mulhI64 d a b g) s = .next t ∧
      RegResult s t d (((s.reg a).signExtend 128 * (s.reg b).signExtend 128).extractLsb' 64 64)) ∧
    (∃ t, exec (.mulhW64 d a b g) s = .next t ∧
      RegResult s t d (((s.reg a).setWidth 128 * (s.reg b).setWidth 128).extractLsb' 64 64)) ∧
    (∃ t, exec (.divI64 d a b g) s = .next t ∧ RegResult s t d (if s.reg b = 0 then -1 else (s.reg a).sdiv (s.reg b))) ∧
    (∃ t, exec (.divW64 d a b g) s = .next t ∧ RegResult s t d (if s.reg b = 0 then -1 else (s.reg a).udiv (s.reg b))) ∧
    (∃ t, exec (.remI64 d a b g) s = .next t ∧ RegResult s t d (if s.reg b = 0 then s.reg a else (s.reg a).srem (s.reg b))) ∧
    (∃ t, exec (.shlI64 d a b g) s = .next t ∧ RegResult s t d (s.reg a <<< ((s.reg b).toNat % 64))) ∧
    (∃ t, exec (.shrW64 d a b g) s = .next t ∧ RegResult s t d (s.reg a >>> ((s.reg b).toNat % 64))) ∧
    (∃ t, exec (.sraI64 d a b g) s = .next t ∧ RegResult s t d ((s.reg a).sshiftRight ((s.reg b).toNat % 64))) ∧
    (∃ t, exec (.andW64 d a b g) s = .next t ∧ RegResult s t d (s.reg a &&& s.reg b)) ∧
    (∃ t, exec (.orW64 d a b g) s = .next t ∧ RegResult s t d (s.reg a ||| s.reg b)) ∧
    (∃ t, exec (.xorW64 d a b g) s = .next t ∧ RegResult s t d (s.reg a ^^^ s.reg b)) ∧
    ∀ i fn, (i, fn) ∈ [(Instr.addI64 d a b g, 0), (.subI64 d a b g, 1), (.mulI64 d a b g, 2), (.mulhI64 d a b g, 3), (.mulhW64 d a b g, 4),
        (.divI64 d a b g, 5), (.divW64 d a b g, 6), (.remI64 d a b g, 7), (.andW64 d a b g, 8), (.orW64 d a b g, 9), (.xorW64 d a b g, 10),
        (.shlI64 d a b g, 11), (.shrW64 d a b g, 12), (.sraI64 d a b g, 13)] →
      encode i = [BitVec.ofNat 32 (0x02000000 + d.toNat * 2 ^ 20 + a.toNat * 2 ^ 15 + b.toNat * 2 ^ 10 + g.toNat * 2 ^ 7 + fn)]

/-- R119, Table 8.3: an immediate form writes its result and nothing else; the words of the forms, and a shift amount above 63
rejected as a reserved field (0x02). The same of li, lea, bxlen (R120) and pget (R122). The unit has no fault in store (R307). -/
def Obligations.ImmediateFormsWriteTheirResult : Prop :=
  ∀ (s : State) (d a : BitVec 5) (g : BitVec 3) (i : BitVec 12), s.pred g = true →
    (∀ j op, (j, op) ∈ [(Instr.addiI64 d a g i, 0x08), (.andiW64 d a g i, 0x09), (.oriW64 d a g i, 0x0A), (.xoriW64 d a g i, 0x0B)] →
      encode j = [BitVec.ofNat 32 (op * 2 ^ 25 + d.toNat * 2 ^ 20 + a.toNat * 2 ^ 15 + g.toNat * 2 ^ 12 + i.toNat)]) ∧
    (∀ (n : BitVec 6) j op, (j, op) ∈ [(Instr.shliI64 d a g n, 0x0C), (.shriW64 d a g n, 0x0D), (.sraiI64 d a g n, 0x0E)] →
      encode j = [BitVec.ofNat 32 (op * 2 ^ 25 + d.toNat * 2 ^ 20 + a.toNat * 2 ^ 15 + g.toNat * 2 ^ 12 + n.toNat)]) ∧
    (∀ w w1 w2 : W32, w.toNat / 2 ^ 25 ∈ [0x0C, 0x0D, 0x0E] → w.toNat / 64 % 64 ≠ 0 → decodeAccess w w1 w2 = .error .accessField) ∧
    (∃ t, exec (.andiW64 d a g i) s = .next t ∧ RegResult s t d (s.reg a &&& i.signExtend 64)) ∧
    (∃ t, exec (.oriW64 d a g i) s = .next t ∧ RegResult s t d (s.reg a ||| i.signExtend 64)) ∧
    (∃ t, exec (.xoriW64 d a g i) s = .next t ∧ RegResult s t d (s.reg a ^^^ i.signExtend 64)) ∧
    (∀ j : BitVec 20, ∃ t, exec (.li d j) s = .next t ∧ RegResult s t d (BitVec.ofNat 64 j.toNat)) ∧
    (s.Healthy 1 → ∀ x : BitVec 4, ∃ t, exec (.lea d x g i) s = .next t ∧ RegResult s t d ((s.me.bx[x.toNat]'x.isLt).1 + i.signExtend 64)) ∧
    (∀ x : BitVec 4, ∃ t, exec (.bxlen d x g) s = .next t ∧ RegResult s t d (s.me.bx[x.toNat]'x.isLt).2) ∧
    (∀ p : BitVec 3, ∃ t, exec (.pget d p g) s = .next t ∧ RegResult s t d (if s.pred p then 1 else 0)) ∧
    (s.Healthy 1 → ∀ n : BitVec 6,
      (∃ t, exec (.addiI64 d a g i) s = .next t ∧ RegResult s t d (s.reg a + i.signExtend 64)) ∧
      (∃ t, exec (.shliI64 d a g n) s = .next t ∧ RegResult s t d (s.reg a <<< n.toNat)) ∧
      (∃ t, exec (.shriW64 d a g n) s = .next t ∧ RegResult s t d (s.reg a >>> n.toNat)) ∧
      (∃ t, exec (.sraiI64 d a g n) s = .next t ∧ RegResult s t d ((s.reg a).sshiftRight n.toNat)))

/-- R121: a compare writes 1 to its predicate register if its relation holds, else 0, and nothing else; the words of the forms, and a
predicate field above 7 rejected as out of range (0x03). The same of the predicate logic and pset (R122). -/
def Obligations.ComparesWriteOnePredicate : Prop :=
  ∀ (s : State) (d x y g : BitVec 3) (a b : BitVec 5), s.pred g = true →
    (∃ t, exec (.cmpEqI64 d a b g) s = .next t ∧ PredResult s t d (decide (s.reg a = s.reg b))) ∧
    (∃ t, exec (.cmpNeI64 d a b g) s = .next t ∧ PredResult s t d (decide (s.reg a ≠ s.reg b))) ∧
    (∃ t, exec (.cmpLtI64 d a b g) s = .next t ∧ PredResult s t d (decide ((s.reg a).toInt < (s.reg b).toInt))) ∧
    (∃ t, exec (.cmpGeI64 d a b g) s = .next t ∧ PredResult s t d (decide ((s.reg b).toInt ≤ (s.reg a).toInt))) ∧
    (∃ t, exec (.cmpLtW64 d a b g) s = .next t ∧ PredResult s t d (decide ((s.reg a).toNat < (s.reg b).toNat))) ∧
    (∃ t, exec (.cmpGeW64 d a b g) s = .next t ∧ PredResult s t d (decide ((s.reg b).toNat ≤ (s.reg a).toNat))) ∧
    (∃ t, exec (.pand d x y g) s = .next t ∧ PredResult s t d (s.pred x && s.pred y)) ∧
    (∃ t, exec (.por d x y g) s = .next t ∧ PredResult s t d (s.pred x || s.pred y)) ∧
    (∃ t, exec (.pxor d x y g) s = .next t ∧ PredResult s t d (Bool.xor (s.pred x) (s.pred y))) ∧
    (∃ t, exec (.pandn d x y g) s = .next t ∧ PredResult s t d (s.pred x && !s.pred y)) ∧
    (∃ t, exec (.pset d a g) s = .next t ∧ PredResult s t d (decide (s.reg a ≠ 0))) ∧
    (∀ i fn, (i, fn) ∈ [(Instr.cmpEqI64 d a b g, 0), (.cmpNeI64 d a b g, 1), (.cmpLtI64 d a b g, 2), (.cmpGeI64 d a b g, 3), (.cmpLtW64 d a b g, 4),
        (.cmpGeW64 d a b g, 5)] →
      encode i = [BitVec.ofNat 32 (0x04000000 + d.toNat * 2 ^ 20 + a.toNat * 2 ^ 15 + b.toNat * 2 ^ 10 + g.toNat * 2 ^ 7 + fn)]) ∧
    ∀ w w1 w2 : W32, w.toNat / 2 ^ 25 = 0x02 → w.toNat % 128 ≤ 5 → w.toNat / 2 ^ 23 % 4 ≠ 0 → decodeAccess w w1 w2 = .error .range

/-- R7, R103: an instruction whose guard is false completes and changes nothing but the place in the program. -/
def Obligations.FalseGuardHasNoEffect : Prop :=
  ∀ (i : Instr) (g : BitVec 3) (s : State), i.guard = some g → s.pred g = false →
    ∃ t, exec i s = .next t ∧ Advances s t ∧ PlaceOnly s t

/-- R307, Table 20.2: a result of the access core's adder, multiplier, divider or shifter (R118 to R120) of which the residue diverges
traps with cause 0x22 and the instruction's word, and nothing is written; one that keeps the residue goes through. That a fault of a unit
is an input of the environment, which the result takes with it, is the model's choice (log entry 36). -/
def Obligations.ResidueDivergenceTraps : Prop :=
  ∀ (s : State) (d a b : BitVec 5) (g : BitVec 3) (x : BitVec 4) (n : BitVec 12) (k : BitVec 6) (u : Upset) (l : List Upset),
    s.pred g = true → s.me.upsets = u :: l → u.unit = 1 →
    let y := s.reg a
    let z := s.reg b
    ∀ i v, (i, v) ∈ [(Instr.addI64 d a b g, y + z), (.subI64 d a b g, y - z), (.mulI64 d a b g, y * z),
        (.mulhI64 d a b g, (y.signExtend 128 * z.signExtend 128).extractLsb' 64 64),
        (.mulhW64 d a b g, (y.setWidth 128 * z.setWidth 128).extractLsb' 64 64),
        (.divI64 d a b g, if z = 0 then -1 else y.sdiv z), (.divW64 d a b g, if z = 0 then -1 else y.udiv z),
        (.remI64 d a b g, if z = 0 then y else y.srem z), (.shlI64 d a b g, y <<< (z.toNat % 64)), (.shrW64 d a b g, y >>> (z.toNat % 64)),
        (.sraI64 d a b g, y.sshiftRight (z.toNat % 64)), (.addiI64 d a g n, y + n.signExtend 64), (.shliI64 d a g k, y <<< k.toNat),
        (.shriW64 d a g k, y >>> k.toNat), (.sraiI64 d a g k, y.sshiftRight k.toNat),
        (.lea d x g n, (s.me.bx[x.toNat]'x.isLt).1 + n.signExtend 64)] →
      let w := s.setMe { s.me with upsets := l }
      ((v + u.flip).toNat % 3 ≠ v.toNat % 3 → s.CanTrap → s.Inv → ∃ t, exec i s = .next t ∧ Trapped w t 0x22 (wordOf i) s.pc) ∧
      ((v + u.flip).toNat % 3 = v.toNat % 3 → ∃ t, exec i s = .next t ∧ RegResult w t d (v + u.flip))

/-- R102, R123: a taken branch goes to its own address plus 4 × the displacement; one not taken goes on; br changes nothing else. -/
def Obligations.BranchesAndJumps : Prop :=
  ∀ (s : State) (g : BitVec 3) (n : BitVec 1) (i : BitVec 21) (a : BitVec 5),
    (s.pred g ≠ decide (n = 1) →
      ∃ t, exec (.br g n i) s = .next t ∧ PlaceOnly s t ∧ t.pc = s.pc + BitVec.ofInt 64 (4 * i.toInt)) ∧
    (s.pred g = decide (n = 1) → ∃ t, exec (.br g n i) s = .next t ∧ PlaceOnly s t ∧ Advances s t) ∧
    (s.pred g = true → (s.reg a).toNat % 4 = 0 → ∃ t, exec (.jr a g) s = .next t ∧ PlaceOnly s t ∧ t.pc = s.reg a) ∧
    (s.pred g = true → (s.reg a).toNat % 4 ≠ 0 → s.CanTrap → s.Inv →
      ∃ t, exec (.jr a g) s = .next t ∧ Trapped s t 0x0B (wordOf (.jr a g)) s.pc)

/-- R124: a call that is not taken goes on and changes nothing else; a taken one pushes the address behind it on the return-address store
and steps CDEPTH; with 16 entries in the store
the oldest one first goes to RSTKPTR in the own scratchpad, and traps with 0x13 where the spill area is full. R123, R124: ret
pops the newest entry, steps CDEPTH back and goes to it; with no entry it refills from below RSTKPTR, and traps with 0x14 where
the spill area holds none; a misaligned target traps with 0x0B and pops nothing. -/
def Obligations.CallsAndReturns : Prop :=
  (∀ (s : State) (g : BitVec 3) (n : BitVec 1) (i : BitVec 21), s.pred g = decide (n = 1) →
    ∃ t, exec (.call g n i) s = .next t ∧ PlaceOnly s t ∧ Advances s t) ∧
  (∀ (s : State) (g : BitVec 3) (n : BitVec 1) (i : BitVec 21), s.pred g ≠ decide (n = 1) →
    (s.me.rstk.length < 16 →
      ∃ t, exec (.call g n i) s = .next t ∧ OnlyMe s t ∧ t.pc = s.pc + BitVec.ofInt 64 (4 * i.toInt) ∧
        t.me = { s.me with
          rstk := (s.pc + 4) :: s.me.rstk, cdepth := s.me.cdepth + 1, pc := t.me.pc, watchdog := t.me.watchdog }) ∧
    (16 ≤ s.me.rstk.length → spillAddr s.me.rstkPtr + 8 ≤ spillAddr s.me.rstkLim → spillAddr s.me.rstkLim ≤ ringRegion →
      s.enc.get? ((padBase s.cur + spillAddr s.me.rstkPtr) / 64) = none → s.cur < 144 * 256 →
      s.raceAt s.cur { pa := padBase s.cur + spillAddr s.me.rstkPtr, left := 8 } 8 = none → s.Inv →
      ∃ t, exec (.call g n i) s = .next t ∧ t.pc = s.pc + BitVec.ofInt 64 (4 * i.toInt) ∧
        t.me.rstk = (s.pc + 4) :: s.me.rstk.dropLast ∧ t.me.cdepth = s.me.cdepth + 1 ∧
        t.me.rstkPtr = BitVec.ofNat 64 (spillAddr s.me.rstkPtr + 8) ∧
        t.mem.read (padBase s.cur + spillAddr s.me.rstkPtr) 8 = wordBytes (s.me.rstk.getLastD 0)) ∧
    (16 ≤ s.me.rstk.length → spillAddr s.me.rstkLim < spillAddr s.me.rstkPtr + 8 → s.CanTrap → s.Inv →
      ∃ t, exec (.call g n i) s = .next t ∧ Trapped s t 0x13 s.me.rstkPtr s.pc)) ∧
  ∀ (s : State) (g : BitVec 3), s.pred g = true →
    (∀ (v : W64) (l : List W64), s.me.rstk = v :: l → v.toNat % 4 = 0 →
      ∃ t, exec (.ret g) s = .next t ∧ OnlyMe s t ∧ t.pc = v ∧
        t.me = { s.me with rstk := l, cdepth := s.me.cdepth - 1, loops := t.me.loops, pc := t.me.pc, watchdog := t.me.watchdog } ∧
        t.me.loops = s.me.loops.filter fun x => x.cdepth.toNat ≤ (s.me.cdepth - 1).toNat) ∧
    (∀ (v : W64) (l : List W64), s.me.rstk = v :: l → v.toNat % 4 ≠ 0 → s.CanTrap → s.Inv →
      ∃ t, exec (.ret g) s = .next t ∧ Trapped s t 0x0B (wordOf (.ret g)) s.pc) ∧
    (s.me.rstk = [] → spillAddr s.me.rstkBase < spillAddr s.me.rstkPtr → spillAddr s.me.rstkPtr ≤ ringRegion → s.poison = [] → s.soft = [] →
      s.cur < 144 * 256 → s.raceAt s.cur { pa := padBase s.cur + (spillAddr s.me.rstkPtr - 8), left := 8 } 8 = none →
      (s.word (padBase s.cur + (spillAddr s.me.rstkPtr - 8))).toNat % 4 = 0 →
      ∃ t, exec (.ret g) s = .next t ∧ t.pc = s.word (padBase s.cur + (spillAddr s.me.rstkPtr - 8)) ∧
        t.me.rstkPtr = BitVec.ofNat 64 (spillAddr s.me.rstkPtr - 8) ∧ t.me.rstk = [] ∧ t.me.cdepth = s.me.cdepth - 1 ∧ t.mem = s.mem) ∧
    (s.me.rstk = [] → spillAddr s.me.rstkPtr ≤ spillAddr s.me.rstkBase → s.CanTrap → s.Inv →
      ∃ t, exec (.ret g) s = .next t ∧ Trapped s t 0x14 s.me.rstkPtr s.pc)

/-- R125: loop with a count of 0 goes behind the body; otherwise it becomes the innermost loop, unless four are active (0x15) or
its end lies beyond that of the loop around it (0x16). R125: at the end of a loop's body a count above 1 goes back to its start
with one less, and a count of 1 leaves the loop; here at a one-word instruction before LEND, li. -/
def Obligations.LoopsBeginAndTurnBack : Prop :=
  (∀ (s : State) (a : BitVec 5) (g : BitVec 3) (i : BitVec 12), s.pred g = true →
    let lend := s.pc + 4 + BitVec.ofNat 64 (4 * i.toNat)
    (s.reg a = 0 → ∃ t, exec (.loop a g i) s = .next t ∧ PlaceOnly s t ∧ (s.me.loops = [] → t.pc = lend)) ∧
    (s.reg a ≠ 0 → s.me.loops.length < 4 →
      (∀ x l, s.me.loops = x :: l → x.cdepth = s.me.cdepth → lend.toNat ≤ x.lend.toNat) →
      ∃ t, exec (.loop a g i) s = .next t ∧ PlaceOnly s t ∧ t.pc = s.pc + 4 ∧
        t.me.loops = { count := s.reg a, sta := s.pc + 4, lend := lend, cdepth := s.me.cdepth } :: s.me.loops) ∧
    (s.reg a ≠ 0 → s.me.loops.length = 4 → s.CanTrap → s.Inv → ∃ t, exec (.loop a g i) s = .next t ∧ Trapped s t 0x15 lend s.pc) ∧
    (∀ x l, s.reg a ≠ 0 → s.me.loops.length < 4 → s.me.loops = x :: l → x.cdepth = s.me.cdepth → x.lend.toNat < lend.toNat →
      s.CanTrap → s.Inv → ∃ t, exec (.loop a g i) s = .next t ∧ Trapped s t 0x16 lend s.pc)) ∧
  ∀ (s : State) (d : BitVec 5) (i : BitVec 20) (x : Loop), s.me.loops = [x] → x.cdepth = s.me.cdepth → x.lend = s.pc + 4 →
    s.pc.toNat < x.lend.toNat →
    (1 < x.count.toNat → ∃ t, exec (.li d i) s = .next t ∧ t.pc = x.sta ∧ t.me.loops = [{ x with count := x.count - 1 }]) ∧
    (x.count.toNat ≤ 1 → ∃ t, exec (.li d i) s = .next t ∧ t.pc = x.lend ∧ t.me.loops = [])

/-- R136, R300: trap delivers cause 0x10 with its immediate and the address behind it; rft clears TRAPH, steps CDEPTH back and
goes to TRAPPC; rft outside a handler traps with 0x19, one to a misaligned TRAPPC with 0x0B; and the words of both. -/
def Obligations.TrapAndReturnFromTrap : Prop :=
  ∀ (s : State) (i : BitVec 20) (g : BitVec 3), s.Inv →
    exec (.trap i) s = .next (s.deliver 0x10 (BitVec.ofNat 64 i.toNat) (s.pc + 4)) ∧
    (s.CanTrap → ∃ t, exec (.trap i) s = .next t ∧ Trapped s t 0x10 (BitVec.ofNat 64 i.toNat) (s.pc + 4)) ∧
    (s.pred g = true → s.me.trapH = true → s.me.trapPc.toNat % 4 = 0 →
      ∃ t, exec (.rft g) s = .next t ∧ OnlyMe s t ∧ t.pc = s.me.trapPc ∧
        t.me = { s.me with trapH := false, cdepth := s.me.cdepth - 1, loops := t.me.loops, pc := t.me.pc, watchdog := t.me.watchdog } ∧
        t.me.loops = s.me.loops.filter fun x => x.cdepth.toNat ≤ (s.me.cdepth - 1).toNat) ∧
    (s.pred g = true → s.me.trapH = true → s.me.trapPc.toNat % 4 ≠ 0 → exec (.rft g) s = .next (s.trap 0x0B (wordOf (.rft g)))) ∧
    (s.pred g = true → s.CanTrap → ∃ t, exec (.rft g) s = .next t ∧ Trapped s t 0x19 0 s.pc) ∧
    encode (.trap i) = [BitVec.ofNat 32 (0xE0000000 + i.toNat)] ∧ encode (.rft g) = [BitVec.ofNat 32 (0xE2000000 + g.toNat * 2 ^ 7)]

/-- R137, R247, R248: end stops the thread's fetching and keeps its registers; yield loads the watchdog with its immediate,
bounded by the slice's limit, and is where a requested stop takes the thread. -/
def Obligations.EndAndYield : Prop :=
  ∀ (s : State) (g : BitVec 3) (i : BitVec 20) (sk : Nat),
    (s.pred g = true → s.me.handling = none →
      ∃ t, exec (.endThread g) s = .next t ∧ OnlyMe s t ∧ t.me = { s.me with run := .ended, pc := t.me.pc }) ∧
    (s.me.slice = some sk → ∃ t, exec (.yield i) s = .next t ∧ OnlyMe s t ∧ Advances s t ∧
      t.me.watchdog = (if i = 0 then s.ylimit sk else min i.toNat (s.ylimit sk)) ∧
      ((s.slice sk).stop = .running → t.me.stop = s.me.stop) ∧
      ((s.slice sk).stop = .stopping → isFirmware s.cur = false → t.me.stop = some 1) ∧
      t.me = { s.me with stop := t.me.stop, pc := t.me.pc, loops := t.me.loops, watchdog := t.me.watchdog })

/-! ### The access core: memory -/

/-- R127: a load whose access is performed with bytes bs puts their number, zero-extended or for the signed forms sign-extended,
into its register, and beside what the access itself does changes nothing else. -/
def Obligations.LoadsWriteTheRegister : Prop :=
  ∀ (s u : State) (d a : BitVec 5) (g : BitVec 3) (i : BitVec 12) (bs : List Byte), s.pred g = true →
    let va := s.reg a + i.signExtend 64
    let n := leNat bs
    (s.load va 1 = .ok bs u → ∃ t, exec (.ldW8 d a g i) s = .next t ∧ RegResult u t d (BitVec.ofNat 64 n)) ∧
    (va.toNat % 2 = 0 → s.load va 2 = .ok bs u → ∃ t, exec (.ldW16 d a g i) s = .next t ∧ RegResult u t d (BitVec.ofNat 64 n)) ∧
    (va.toNat % 4 = 0 → s.load va 4 = .ok bs u → ∃ t, exec (.ldW32 d a g i) s = .next t ∧ RegResult u t d (BitVec.ofNat 64 n)) ∧
    (va.toNat % 8 = 0 → s.load va 8 = .ok bs u → ∃ t, exec (.ldW64 d a g i) s = .next t ∧ RegResult u t d (BitVec.ofNat 64 n)) ∧
    (s.load va 1 = .ok bs u → ∃ t, exec (.ldI8 d a g i) s = .next t ∧ RegResult u t d ((BitVec.ofNat 8 n).signExtend 64)) ∧
    (va.toNat % 4 = 0 → s.load va 4 = .ok bs u →
      ∃ t, exec (.ldI32 d a g i) s = .next t ∧ RegResult u t d ((BitVec.ofNat 32 n).signExtend 64))

/-- R127: the bytes that a load's access gives are those that memory holds at the translated address, where no line of the data
cache holds others; the access changes nothing but the data cache and what a later fence may acquire. R58: the firmware complex uses physical addresses: outside a
handler its accesses are not translated, and NODE 0xFF names its own package. -/
def Obligations.LoadsReadTheTranslatedBytes : Prop :=
  (∀ (s u : State) (va : W64) (n : Nat) (pg : Page), s.dataPage va .read = .ok pg u → PlainAccess u pg n 0 →
    u.me.dcache.get? (pg.pa / 64) = none →
    ∃ v, s.load va n = .ok ((List.range n).map fun k => u.mem.get (pg.pa + k)) v ∧ OnlyMe u v ∧
      v.me = { u.me with dcache := v.me.dcache, fills := v.me.fills, seen := v.me.seen }) ∧
  ∀ (s : State) (va : W64) (k : Kind), s.me.slice = none → (s.pkg s.node).outstanding = [] → s.me.rldLeft = false →
    ∃ pg, s.dataPage va k = .ok pg s ∧ pg.enc = false ∧ pg.chk = false ∧ pg.alt = none ∧
      pg.pa = if va.toNat / 2 ^ 48 = 0xFF then s.node * 2 ^ 48 + va.toNat % 2 ^ 48 else va.toNat

/-- R127: a store whose access is performed, or sent to another node, completes with what the access itself does; the access of an
aligned store is that of the low bytes of its register, little-endian. Where nothing refuses it on its own package, these bytes stand
at the translated address and no other byte of memory changes; no register, predicate or special register changes. -/
def Obligations.StoresWriteTheirBytes : Prop :=
  (∀ (s : State) (d a : BitVec 5) (g : BitVec 3) (i : BitVec 12), s.pred g = true →
    let va := s.reg a + i.signExtend 64
    ∀ n j, (n, j) ∈ [(1, Instr.stW8 d a g i), (2, .stW16 d a g i), (4, .stW32 d a g i), (8, .stW64 d a g i)] → va.toNat % n = 0 →
      ∀ pg v, s.storeOut va (leBytes n (s.reg d).toNat) none = .ok pg v → ∃ t, exec j s = .next t ∧ PlaceOnly v t ∧ Advances v t) ∧
  ∀ (s u : State) (d a : BitVec 5) (g : BitVec 3) (i : BitVec 12) (pg : Page), s.pred g = true → u.Inv →
    let va := s.reg a + i.signExtend 64
    s.dataPage va .write = .ok pg u →
    (PlainAccess u pg 1 1 →
      ∃ t, exec (.stW8 d a g i) s = .next t ∧ Stored u t pg.pa (leBytes 1 (s.reg d).toNat) ∧ StoreOnly u t ∧ Advances u t) ∧
    (va.toNat % 2 = 0 → PlainAccess u pg 2 1 →
      ∃ t, exec (.stW16 d a g i) s = .next t ∧ Stored u t pg.pa (leBytes 2 (s.reg d).toNat) ∧ StoreOnly u t ∧ Advances u t) ∧
    (va.toNat % 4 = 0 → PlainAccess u pg 4 1 →
      ∃ t, exec (.stW32 d a g i) s = .next t ∧ Stored u t pg.pa (leBytes 4 (s.reg d).toNat) ∧ StoreOnly u t ∧ Advances u t) ∧
    (va.toNat % 8 = 0 → PlainAccess u pg 8 1 →
      ∃ t, exec (.stW64 d a g i) s = .next t ∧ Stored u t pg.pa (leBytes 8 (s.reg d).toNat) ∧ StoreOnly u t ∧ Advances u t)

/-- R127, R128, R243: an access whose address is not a multiple of its size traps with 0x12 and the address before anything of it
is performed. -/
def Obligations.MisalignedAccessesTrap : Prop :=
  ∀ (s : State) (d a b : BitVec 5) (g sc : BitVec 3) (i : BitVec 12), s.pred g = true → s.CanTrap → s.Inv →
    let va := s.reg a + i.signExtend 64
    let wa := s.reg a
    (va.toNat % 2 ≠ 0 → ∀ j, j ∈ [Instr.ldW16 d a g i, .stW16 d a g i] → ∃ t, exec j s = .next t ∧ Trapped s t 0x12 va s.pc) ∧
    (va.toNat % 4 ≠ 0 → ∀ j, j ∈ [Instr.ldW32 d a g i, .ldI32 d a g i, .stW32 d a g i] → ∃ t, exec j s = .next t ∧ Trapped s t 0x12 va s.pc) ∧
    (va.toNat % 8 ≠ 0 → ∀ j, j ∈ [Instr.ldW64 d a g i, .stW64 d a g i] → ∃ t, exec j s = .next t ∧ Trapped s t 0x12 va s.pc) ∧
    (wa.toNat % 4 ≠ 0 → ∀ j, j ∈ [Instr.ldAcqW32 d a g sc, .stRelW32 a b g sc] → ∃ t, exec j s = .next t ∧ Trapped s t 0x12 wa s.pc) ∧
    (wa.toNat % 8 ≠ 0 →
      ∀ j, j ∈ [Instr.ldAcqW64 d a g sc, .stRelW64 a b g sc, .amoAddW64 d a b g, .amoMinI64 d a b g, .amoMaxI64 d a b g, .amoAndW64 d a b g,
        .amoOrW64 d a b g, .amoXorW64 d a b g, .amoXchgW64 d a b g, .amoCasW64 d a b g] →
      ∃ t, exec j s = .next t ∧ Trapped s t 0x12 wa s.pc)

/-- R128, R268: an acquire load whose access is performed writes its register; a release store writes its bytes, and at die scope or
wider steps the core's release counter and stamps the location with it; it waits for the data reads of the core's remote loads. -/
def Obligations.AcquireAndRelease : Prop :=
  ∀ (s u : State) (d a b : BitVec 5) (g sc : BitVec 3), s.pred g = true →
    let va := s.reg a
    (∀ bs, va.toNat % 4 = 0 → s.loadHome va 4 sc.toNat = .ok bs u →
      ∃ t, exec (.ldAcqW32 d a g sc) s = .next t ∧ RegResult u t d (BitVec.ofNat 64 (leNat bs))) ∧
    (∀ bs, va.toNat % 8 = 0 → s.loadHome va 8 sc.toNat = .ok bs u →
      ∃ t, exec (.ldAcqW64 d a g sc) s = .next t ∧ RegResult u t d (BitVec.ofNat 64 (leNat bs))) ∧
    (∀ pg, u.Inv → s.dataPage va .write = .ok pg u → (u.pkg u.node).outstanding = [] → u.me.fences = [] → u.me.rc < 2 ^ 40 - 2 →
      (u.me.rldLeft = true → va.toNat % 8 = 0 →
        ∀ j, j ∈ [Instr.stRelW32 a b g sc, .stRelW64 a b g sc] → ∃ t, exec j s = .next t ∧ t.pc = u.pc ∧ t.mem = u.mem) ∧
      (u.me.rldLeft = false → va.toNat % 4 = 0 → PlainAccess u pg 4 1 → ∃ t, exec (.stRelW32 a b g sc) s = .next t ∧ Stored u t pg.pa (leBytes 4 (s.reg b).toNat) ∧ Advances u t ∧
        (if 1 ≤ sc.toNat then t.me.rc = u.me.rc + 1 ∧ t.stamps.get? pg.pa = some [{ ck := u.cur, rc := u.me.rc + 1, scope := sc.toNat }]
          else t.me.rc = u.me.rc)) ∧
      (u.me.rldLeft = false → va.toNat % 8 = 0 → PlainAccess u pg 8 1 → ∃ t, exec (.stRelW64 a b g sc) s = .next t ∧ Stored u t pg.pa (leBytes 8 (s.reg b).toNat) ∧ Advances u t ∧
        (if 1 ≤ sc.toNat then t.me.rc = u.me.rc + 1 ∧ t.stamps.get? pg.pa = some [{ ck := u.cur, rc := u.me.rc + 1, scope := sc.toNat }]
          else t.me.rc = u.me.rc)))

/-- R243, R244, Table 14.1: an atomic gives its register the old word and leaves the new one in memory; s0 takes nothing. -/
def Obligations.AtomicsExchangeTheWord : Prop :=
  ∀ (s u : State) (d a b : BitVec 5) (g : BitVec 3) (pg : Page), s.pred g = true → (s.reg a).toNat % 8 = 0 → u.Inv →
    s.dataPage (s.reg a) .atomic = .ok pg u → PlainAccess u pg 8 2 →
    let old := bytesWord (u.mem.read pg.pa 8)
    let x := s.reg b
    ∀ j new, (j, new) ∈ [(Instr.amoAddW64 d a b g, old + x), (.amoMinI64 d a b g, if old.toInt < x.toInt then old else x),
        (.amoMaxI64 d a b g, if old.toInt < x.toInt then x else old), (.amoAndW64 d a b g, old &&& x), (.amoOrW64 d a b g, old ||| x),
        (.amoXorW64 d a b g, old ^^^ x), (.amoXchgW64 d a b g, x), (.amoCasW64 d a b g, if old = s.reg d then x else old)] →
      ∃ t, exec j s = .next t ∧ Stored u t pg.pa (wordBytes new) ∧ (∀ q, t.reg q = if q = d ∧ q ≠ 0 then old else u.reg q) ∧
        (∀ q, t.pred q = u.pred q) ∧ (u.me.fences = [] → t.stamps = u.stamps) ∧ Advances u t

/-- R246: a fence waits for the core's stores on their way and for the data reads of its remote loads (fence.r: for those that touch
its range), and then completes; at die scope or wider it is a release, and drops the data cache (fence.r: no line that was present is
used for an address of its range any more); fence.r of an empty range has no effect. The model's own (log entry 76) are that a fence of
core scope drops the lines of the core's own scratchpad, which its engines write, and no other, and that the lines a fence.r passes over
stay in the table, hidden from its range by the number of fills at the fence. -/
def Obligations.FencesReleaseAndDropTheCache : Prop :=
  ∀ (s : State) (a b : BitVec 5) (g sc : BitVec 3), s.pred g = true →
    (s.postedLeft = true ∨ s.me.rldLeft = true → exec (.fence g sc) s = .next s) ∧
    (s.postedLeft = false → s.me.rldLeft = false → s.me.rc < 2 ^ 40 - 2 → s.me.seen = [] →
      ∃ t, exec (.fence g sc) s = .next t ∧ OnlyMe s t ∧ Advances s t ∧
        t.me.rc = s.me.rc + (if 1 ≤ sc.toNat then 1 else 0) ∧ (1 ≤ sc.toNat → t.me.dcache = []) ∧
        (sc.toNat = 0 → ∀ e, e ∈ t.me.dcache ↔ e ∈ s.me.dcache ∧ (padBase s.cur + padSize ≤ e.1 * 64 ∨ e.1 * 64 + 64 ≤ padBase s.cur)) ∧
        (1 ≤ sc.toNat → t.me.fences.head? = some { scope := sc.toNat, rc := s.me.rc + 1, lo := 0, hi := 2 ^ 64 }) ∧
        t.me.s = s.me.s ∧ t.me.p = s.me.p) ∧
    (s.postedLeft = false → s.me.rldLeft = false → ∃ t, exec (.fence g sc) s = .next t ∧ Advances s t ∧ t.me.s = s.me.s ∧ t.me.p = s.me.p) ∧
    (s.reg b = 0 → ∃ t, exec (.fenceR a b g sc) s = .next t ∧ PlaceOnly s t ∧ Advances s t) ∧
    (s.reg b ≠ 0 →
      let lo := (s.reg a).toNat
      let hi := min (lo + (s.reg b).toNat) (2 ^ 48)
      (s.leftIn lo hi = true → exec (.fenceR a b g sc) s = .next s) ∧
      (s.leftIn lo hi = false → s.me.rc < 2 ^ 40 - 2 → s.me.seen = [] →
        ∃ t, exec (.fenceR a b g sc) s = .next t ∧ OnlyMe s t ∧ Advances s t ∧
          t.me.rc = s.me.rc + (if 1 ≤ sc.toNat then 1 else 0) ∧ t.me.dcache = s.me.dcache ∧
          (1 ≤ sc.toNat → ∀ va pg n, va < hi → lo < va + n → (∀ l, s.me.dcache.get? (pg.pa / 64) = some l → l.born < s.me.fills) →
            t.me.cacheHit va pg n = none) ∧
          t.me.s = s.me.s ∧ t.me.p = s.me.p) ∧
      (s.leftIn lo hi = false → ∃ t, exec (.fenceR a b g sc) s = .next t ∧ Advances s t ∧ t.me.s = s.me.s ∧ t.me.p = s.me.p))

/-! ### Remote loads, tokens, tagged words, groups and barriers -/

/-- R129: rld takes the next place of its load queue for its bytes, and the core goes on; the bytes arrive later
(LOAD_QUEUE_FILL). An empty range, one of more than 512 bytes and one across a 4 KiB page trap with 0x12; a full queue of which
nothing is claimed traps with 0x1B. R129: the bytes of an rld arrive in its place with the format of its page; a byte that is refused
leaves an error mark with its input address, and an allocation that has been lost since the issue one with the first address and the
cause 0xBB (R80). R130: pop takes the oldest unclaimed place: its first eight
bytes go to the register and the predicate becomes 0; an error mark traps with 0x60; with no place unclaimed it traps with 0x1C;
while the bytes are on their way it times out with the predicate 1. -/
def Obligations.LoadQueuesTakeAndDeliver : Prop :=
  (∀ (s u : State) (d : BitVec 2) (a b : BitVec 5) (g : BitVec 3) (pg : Page), s.pred g = true →
    let va := s.reg a
    let len := (s.reg b).toNat
    (len = 0 ∨ 512 < len ∨ 4096 < va.toNat % 4096 + len → s.CanTrap → s.Inv →
      ∃ t, exec (.rld d a b g) s = .next t ∧ Trapped s t 0x12 va s.pc) ∧
    (0 < len → len ≤ 512 → va.toNat % 4096 + len ≤ 4096 → s.dataPage va .read len = .ok pg u → fmtBytes pg.fmt ≠ 0 → pg.fmt ≠ 0 →
      blockCode pg.fmt = false → len % fmtBytes pg.fmt = 0 → va.toNat % fmtBytes pg.fmt = 0 →
      let l := u.me.lq[d.toNat]'d.isLt
      let fill := Happening.event (.loadQueueFill u.node (ckCore u.cur) d.toNat l.issued)
      (l.issued - l.taken < 16 → u.checked u.cur pg = false →
        ∃ t, exec (.rld d a b g) s = .next t ∧ OnlyMe u t ∧ Advances u t ∧
          (t.me.lq[d.toNat]'d.isLt).slots.get? l.issued = some (.pending (BitVec.ofNat 64 pg.pa) va len pg.fmt pg.enc) ∧
          (t.me.lq[d.toNat]'d.isLt).issued = l.issued + 1 ∧ t.me.s = u.me.s ∧ t.me.p = u.me.p ∧ fill ∈ t.agenda) ∧
      (l.issued - l.taken < 16 → u.checked u.cur pg = true → ∀ bs v, u.performRld u.cur pg va.toNat len = (.bytes bs, v) →
        ∃ t, exec (.rld d a b g) s = .next t ∧ OnlyMe v t ∧ Advances v t ∧
          (t.me.lq[d.toNat]'d.isLt).slots.get? l.issued = some (.sent (.data bs pg.fmt)) ∧
          (t.me.lq[d.toNat]'d.isLt).issued = l.issued + 1 ∧ fill ∈ t.agenda) ∧
      (16 ≤ l.issued - l.taken → l.claimed ≤ l.taken → u.CanTrap → u.Inv →
        ∃ t, exec (.rld d a b g) s = .next t ∧ Trapped u t 0x1B (BitVec.ofNat 64 d.toNat) u.pc))) ∧
  (∀ (s : State) (node core idx : Nat) (q : Fin 4),
    let ck := node * 256 + core
    (∀ (len fmt : Nat) (pa va : W64) (enc : Bool) w, (s.core ck).lq[q].slots.get? idx = some (.pending pa va len fmt enc) →
      s.lostAt node (s.party ck).func va.toNat = some w →
      ∃ t, exec (.loadQueueFill node core q.val idx) s = .next t ∧ (t.core ck).lq[q].slots.get? idx = some (.mark va 0xBB)) ∧
    (∀ (len fmt : Nat) (pa va : W64) (enc : Bool) bs u, (s.core ck).lq[q].slots.get? idx = some (.pending pa va len fmt enc) →
      s.lostAt node (s.party ck).func va.toNat = none →
      s.performRld ck { pa := pa.toNat, left := len, enc := enc } va.toNat len = (.bytes bs, u) →
      ∃ t, exec (.loadQueueFill node core q.val idx) s = .next t ∧ (t.core ck).lq[q].slots.get? idx = some (.data bs fmt) ∧ t.mem = u.mem) ∧
    (∀ (len fmt : Nat) (pa va : W64) (enc : Bool) h x u, (s.core ck).lq[q].slots.get? idx = some (.pending pa va len fmt enc) →
      s.lostAt node (s.party ck).func va.toNat = none →
      s.performRld ck { pa := pa.toNat, left := len, enc := enc } va.toNat len = (.refused h x, u) →
      ∃ t, exec (.loadQueueFill node core q.val idx) s = .next t ∧
        (t.core ck).lq[q].slots.get? idx = some (.mark (BitVec.ofNat 64 (va.toNat + (x - pa.toNat))) h) ∧ t.mem = u.mem) ∧
    ∀ x, (s.core ck).lq[q].slots.get? idx = some (.sent x) →
      ∃ t, exec (.loadQueueFill node core q.val idx) s = .next t ∧ (t.core ck).lq[q].slots.get? idx = some x ∧ t.mem = s.mem) ∧
  ∀ (s : State) (p : BitVec 3) (q : BitVec 7) (t d : BitVec 5),
    let n : Fin 4 := Fin.ofNat 4 q.toNat
    let l := s.me.lq[n]
    s.me.wait = none →
    (∀ bs f, l.standing = none → l.claimed < l.issued → l.slots.get? l.claimed = some (.data bs f) →
      ∃ u, exec (.pop p q t d) s = .next u ∧ OnlyMe s u ∧ Advances s u ∧ (∀ r, u.reg r = if r = d ∧ r ≠ 0 then bytesWord bs else s.reg r) ∧
        (∀ r, u.pred r = if r = p ∧ r ≠ 0 then false else s.pred r) ∧ u.me.lq[n].taken = l.taken + 1 ∧ u.me.lq[n].claimed = l.claimed + 1 ∧
        u.me.lq[n].standing = none ∧ u.me.wait = none) ∧
    (∀ va h, l.standing = none → l.claimed < l.issued → l.slots.get? l.claimed = some (.mark va h) → s.CanTrap → s.Inv →
      ∃ u, exec (.pop p q t d) s = .next u ∧ u.me.trapCause = 0x60 ∧ u.me.trapAddr = va ∧ u.me.trapPc = s.pc ∧ u.pc = s.me.tvec ∧
        (∀ r, u.reg r = s.reg r) ∧ u.me.lq[n].taken = l.taken + 1) ∧
    (l.standing = none → l.issued ≤ l.claimed → s.CanTrap → s.Inv →
      ∃ u, exec (.pop p q t d) s = .next u ∧ Trapped s u 0x1C (BitVec.ofNat 64 n.val) s.pc) ∧
    (∀ w x y z e, l.standing = none → l.claimed < l.issued → l.slots.get? l.claimed = some (.pending w x y z e) → s.reg t = 0 →
      ∃ u, exec (.pop p q t d) s = .next u ∧ OnlyMe s u ∧ Advances s u ∧ (∀ r, u.reg r = s.reg r) ∧
        (∀ r, u.pred r = if r = p ∧ r ≠ 0 then true else s.pred r) ∧ u.me.lq[n].standing = some l.claimed)

/-- R147, R235: sig.tk adds 1 to VALUE; a VALUE that is all ones stays so and is recorded as 0x93; it is a release, and waits for the
data reads of the core's remote loads and for its stores on their way. R236: wait.tk on a token that no other claim stands before takes 1 from VALUE and clears its
predicate; where VALUE with the raises owed cannot meet it, it sets the predicate at once and takes nothing; where nothing meets it in
s[T] cycles, here 0, its claim goes and the predicate is set. -/
def Obligations.TokensCountAndWait : Prop :=
  (∀ (s : State) (k : BitVec 7),
    (s.me.rldLeft = true ∨ s.postedLeft = true → exec (.sigTk k) s = .next s) ∧
    (s.me.rldLeft = false → s.postedLeft = false → (s.me.token k.toNat).value = BitVec.allOnes 32 →
      ∃ t, exec (.sigTk k) s = .next t ∧ (∀ j, t.me.token j = s.me.token j) ∧ t.me.s = s.me.s ∧ t.me.p = s.me.p ∧ Advances s t ∧
        t.out = s.out ∧ PlaceOnly (s.record s.node { s.coreRec s.cur 0x93 1 with addr := BitVec.ofNat 64 k.toNat }) t) ∧
    (s.me.rldLeft = false → s.postedLeft = false → (s.me.token k.toNat).value ≠ BitVec.allOnes 32 →
      ∃ t, exec (.sigTk k) s = .next t ∧ OnlyMe s t ∧ Advances s t ∧ (t.me.token k.toNat).value = (s.me.token k.toNat).value + 1 ∧
        (∀ j, j ≠ k.toNat → t.me.token j = s.me.token j) ∧ t.me.s = s.me.s ∧ t.me.p = s.me.p)) ∧
  ∀ (s : State) (p : BitVec 3) (k : BitVec 7) (t : BitVec 5), s.me.wait = none →
    let x := s.me.token k.toNat
    (x.claims = [] → x.value ≠ 0 → 1 + x.pwait ≤ x.value.toNat + x.praise →
      ∃ u, exec (.waitTk p k t) s = .next u ∧ OnlyMe s u ∧ Advances s u ∧ (u.me.token k.toNat).value = x.value - 1 ∧
        (u.me.token k.toNat).claims = [] ∧ (∀ r, u.pred r = if r = p ∧ r ≠ 0 then false else s.pred r) ∧ u.me.s = s.me.s ∧
        ∀ e ∈ u.me.dcache, e ∈ s.me.dcache ∧ (padBase s.cur + padSize ≤ e.1 * 64 ∨ e.1 * 64 + 64 ≤ padBase s.cur)) ∧
    (x.value.toNat + x.praise < 1 + x.pwait →
      ∃ u, exec (.waitTk p k t) s = .next u ∧ PredResult s u p true) ∧
    (1 + x.pwait ≤ x.value.toNat + x.praise → x.value = 0 ∨ x.claims ≠ [] → Claim.access ∉ x.claims → s.reg t = 0 →
      ∃ u, exec (.waitTk p k t) s = .next u ∧ OnlyMe s u ∧ Advances s u ∧ (∀ j, u.me.token j = s.me.token j) ∧ u.me.wait = none ∧
        (∀ r, u.pred r = if r = p ∧ r ≠ 0 then true else s.pred r) ∧ u.me.s = s.me.s)

/-- R237, R238: ldwf of a full word takes its value and leaves the word empty; stwe of an empty word stores its register and leaves
the word full; here on a word of a scratchpad of the core's own package. -/
def Obligations.TaggedWordsFillAndEmpty : Prop :=
  ∀ (s u : State) (p : BitVec 3) (a t d : BitVec 5) (pg : Page) (home off : Nat), s.me.wait = none → s.tagQ = [] →
    (s.reg a).toNat % 8 = 0 → u.Inv → region pg.pa = .pad home off → (u.pkg u.node).outstanding = [] → u.tagQ = [] → u.me.wait = none →
    NSet.sorted u.tags = true →
    (s.dataPage (s.reg a) .read = .ok pg u → PlainAccess u pg 8 2 → u.tags.has (pg.pa / 8) = true → u.stamps = [] →
      ∃ v, exec (.ldwfW64 p a t d) s = .next v ∧ v.tags.has (pg.pa / 8) = false ∧ v.mem = u.mem ∧ Advances u v ∧
        (∀ r, v.reg r = if r = d ∧ r ≠ 0 then bytesWord (u.mem.read pg.pa 8) else u.reg r) ∧
        (∀ r, v.pred r = if r = p ∧ r ≠ 0 then false else u.pred r) ∧ v.me.dcache = [] ∧ v.me.wait = none) ∧
    (s.dataPage (s.reg a) .write = .ok pg u → PlainAccess u pg 8 2 → u.tags.has (pg.pa / 8) = false → u.me.rldLeft = false →
      u.me.rc < 2 ^ 40 - 2 →
      ∃ v, exec (.stweW64 p a t d) s = .next v ∧ v.tags.has (pg.pa / 8) = true ∧ Stored u v pg.pa (wordBytes (u.reg d)) ∧ Advances u v ∧
        (∀ r, v.reg r = u.reg r) ∧ (∀ r, v.pred r = if r = p ∧ r ≠ 0 then false else u.pred r) ∧ v.me.rc = u.me.rc + 1 ∧ v.me.wait = none)

/-- R239: join makes the core a member of a group of its slice and counts it as arrived in each generation of the group's two barriers that
has begun; leave ends the membership and takes the core out of both generations, of which one completes that some remaining member has
arrived in and all have. R240: a firmware core traps with 0x11 at each of the four. R241: an arrival of a member is pending for the
generation it names and joins ARR; GEN steps and ARR empties exactly when ARR with the core covers the group. R242: a wait on a completed
generation clears the pending arrival and its predicate. An arrival is a release: it stalls while an earlier access of the core is still to
be performed. An arrival outside the group traps with 0x90, a second one in a generation with 0x91. -/
def Obligations.GroupsAndBarriers : Prop :=
  (∀ (s : State) (p : BitVec 3) (k : BitVec 7) (r : BitVec 5) (sk : Nat),
    (s.me.slice = some sk → isFirmware s.cur = false → NSet.sorted ((s.slice sk).group k.toNat) = true →
      let g := (s.slice sk).group k.toNat
      let me := s.me.slcore
      (∃ t, exec (.join k) s = .next t ∧ (∀ c, ((t.slice sk).group k.toNat).has c = (decide (c = me) || g.has c)) ∧
        (∀ b, b = k.toNat ∨ b = k.toNat + 64 → let x := (s.slice sk).bar b
          (t.slice sk).bar b = if g.has me = false ∧ x.arr ≠ [] then { x with arr := x.arr.add me } else x) ∧
        (∀ b, b ≠ k.toNat → b ≠ k.toNat + 64 → (t.slice sk).bar b = (s.slice sk).bar b) ∧
        (∀ j, j ≠ k.toNat → (t.slice sk).group j = (s.slice sk).group j) ∧ (∀ j, j ≠ sk → t.slice j = s.slice j) ∧ t.mem = s.mem ∧
        Advances s t ∧ t.me.s = s.me.s ∧ t.me.p = s.me.p) ∧
      (∃ t, exec (.leave k) s = .next t ∧ (∀ c, ((t.slice sk).group k.toNat).has c = (!decide (c = me) && g.has c)) ∧
        (∀ b, b = k.toNat ∨ b = k.toNat + 64 → let x := (s.slice sk).bar b
          let left := x.arr.del me
          (g.has me = false → (t.slice sk).bar b = x) ∧
          (g.has me = true → left ≠ [] → (∀ c ∈ g.del me, left.has c = true) → (t.slice sk).bar b = { gen := x.gen + 1, arr := [], rels := x.rels }) ∧
          (g.has me = true → left = [] ∨ (∃ c ∈ g.del me, left.has c = false) → (t.slice sk).bar b = { x with arr := left })) ∧
        (∀ b, b ≠ k.toNat → b ≠ k.toNat + 64 → (t.slice sk).bar b = (s.slice sk).bar b) ∧
        (∀ j, j ≠ k.toNat → (t.slice sk).group j = (s.slice sk).group j) ∧ (∀ j, j ≠ sk → t.slice j = s.slice j) ∧ t.mem = s.mem ∧
        Advances s t ∧ t.me.s = s.me.s ∧ t.me.p = s.me.p)) ∧
    (isFirmware s.cur = true → s.CanTrap → s.Inv → ∀ i ∈ [Instr.join k, .leave k, .barArrive k, .barWait p k r],
      ∃ t, exec i s = .next t ∧ Trapped s t 0x11 (wordOf i) s.pc)) ∧
  ∀ (s : State) (p : BitVec 3) (k : BitVec 7) (t : BitVec 5) (sk : Nat), s.me.slice = some sk → isFirmware s.cur = false →
    let x := (s.slice sk).bar k.toNat
    let c := s.me.bar k.toNat
    let g := (s.slice sk).group (k.toNat % 64)
    (s.me.rldLeft = true ∨ s.postedLeft = true → exec (.barArrive k) s = .next s) ∧
    (s.me.rldLeft = false → s.postedLeft = false → g.has s.me.slcore = true → ¬(c.pend = true ∧ c.tgt = x.gen) → s.me.rc < 2 ^ 40 - 2 →
      ∃ u, exec (.barArrive k) s = .next u ∧ (u.me.bar k.toNat).pend = true ∧ (u.me.bar k.toNat).tgt = x.gen ∧
        u.me.rc = s.me.rc + 1 ∧ u.mem = s.mem ∧ Advances s u ∧ u.me.s = s.me.s ∧ u.me.p = s.me.p ∧
        (let all := x.arr.add s.me.slcore
         ((∀ m ∈ g, all.has m = true) → ((u.slice sk).bar k.toNat).gen = x.gen + 1 ∧ ((u.slice sk).bar k.toNat).arr = []) ∧
         ((∃ m ∈ g, all.has m = false) → ((u.slice sk).bar k.toNat).gen = x.gen ∧ ((u.slice sk).bar k.toNat).arr = all)) ∧
        (∀ b, b ≠ k.toNat → (u.slice sk).bar b = (s.slice sk).bar b) ∧ (∀ j, (u.slice sk).group j = (s.slice sk).group j) ∧
        ∀ j, j ≠ sk → u.slice j = s.slice j) ∧
    (s.me.rldLeft = false → s.postedLeft = false → g.has s.me.slcore = false → s.CanTrap → s.Inv →
      ∃ u, exec (.barArrive k) s = .next u ∧ Trapped s u 0x90 (BitVec.ofNat 64 k.toNat) s.pc) ∧
    (s.me.rldLeft = false → s.postedLeft = false → g.has s.me.slcore = true → c.pend = true → c.tgt = x.gen → s.CanTrap → s.Inv →
      ∃ u, exec (.barArrive k) s = .next u ∧ Trapped s u 0x91 (BitVec.ofNat 64 k.toNat) s.pc) ∧
    (s.me.wait = none → c.pend = true → c.tgt ≠ x.gen → x.rels = [] →
      ∃ u, exec (.barWait p k t) s = .next u ∧ OnlyMe s u ∧ Advances s u ∧ (u.me.bar k.toNat).pend = false ∧ u.me.dcache = [] ∧
        (∀ r, u.pred r = if r = p ∧ r ≠ 0 then false else s.pred r) ∧ u.me.s = s.me.s) ∧
    (s.me.wait = none → c.pend = false → c.gc ≠ 0 →
      ∃ u, exec (.barWait p k t) s = .next u ∧ OnlyMe s u ∧ Advances s u ∧ (u.me.bar k.toNat).gc = c.gc - 1 ∧
        (∀ r, u.pred r = if r = p ∧ r ≠ 0 then false else s.pred r) ∧ u.me.s = s.me.s) ∧
    (s.me.wait = none → c.pend = true → c.tgt = x.gen → s.reg t = 0 →
      ∃ u, exec (.barWait p k t) s = .next u ∧ OnlyMe s u ∧ Advances s u ∧ (u.me.bar k.toNat).pend = true ∧
        (∀ r, u.pred r = if r = p ∧ r ≠ 0 then true else s.pred r) ∧ u.me.s = s.me.s)

/-! ### System instructions -/

/-- R49 to R51, Tables 4.2 and 4.4: setshape.v grants at most the lanes of the format, pads to its granule, writes the shape
register and answers the granted lanes; a format that is none of the vector's traps with 0x33, an extent of 0 with 0x34. R49 to
R54, Tables 4.3 and 4.4: setshape.m grants M, N and K within the maxima of the part and the format and answers the granted K;
here at bf16, whose K has at most 128 in granules of 16. -/
def Obligations.ShapesAreGranted : Prop :=
  (∀ (s : State) (d a b : BitVec 5) (g n : BitVec 3), s.pred g = true →
    (∀ F max gran, (F, max, gran) ∈ [(0x10, 512, 64), (0x11, 256, 32), (0x12, 128, 16)] → b.toNat = F → s.reg a ≠ 0 →
      ∃ t, exec (.setshapeV d a b g n) s = .next t ∧ OnlyMe s t ∧ Advances s t ∧
        (let L := min max (s.reg a).toNat
         let v := t.me.sh[n.toNat]'n.isLt
         v.fld 63 1 = 1 ∧ v.fld 62 1 = 0 ∧ v.fld 61 1 = 0 ∧ v.fld 56 5 = F ∧ shLGR v = L ∧ shLPAD v = (L + gran - 1) / gran * gran ∧
         (∀ q, t.reg q = if q = d ∧ q ≠ 0 then BitVec.ofNat 64 L else s.reg q) ∧
         t.me = { s.me with s := t.me.s, sh := s.me.sh.set n.toNat v n.isLt, pc := t.me.pc, loops := t.me.loops, watchdog := t.me.watchdog })) ∧
    (vectorCode b.toNat = false → s.CanTrap → s.Inv →
      ∃ t, exec (.setshapeV d a b g n) s = .next t ∧ Trapped s t 0x33 (BitVec.ofNat 64 b.toNat) s.pc) ∧
    (vectorCode b.toNat = true → s.reg a = 0 → s.CanTrap → s.Inv →
      ∃ t, exec (.setshapeV d a b g n) s = .next t ∧ Trapped s t 0x34 (BitVec.ofNat 64 a.toNat) s.pc)) ∧
  ∀ (s : State) (d a : BitVec 5) (g n : BitVec 3), s.pred g = true → a.toNat < 30 →
    let m := (s.reg a).toNat
    let c := (s.reg (a + 1)).toNat
    let k := (s.reg (a + 2)).toNat
    (0 < m → 0 < c → 0 < k →
      ∃ t, exec (.setshapeM d a 0x01 g n) s = .next t ∧ OnlyMe s t ∧ Advances s t ∧
        (let v := t.me.sh[n.toNat]'n.isLt
         v.fld 63 1 = 1 ∧ v.fld 62 1 = 0 ∧ v.fld 61 1 = 1 ∧ shFMT v = 0x01 ∧
         shMGR v = min 128 m ∧ shMPAD v = (min 128 m + 7) / 8 * 8 ∧ shNGR v = min s.nMax c ∧ shNPAD v = (min s.nMax c + 7) / 8 * 8 ∧
         shKGR v = min 128 k ∧ shKPAD v = (min 128 k + 15) / 16 * 16 ∧
         (∀ q, t.reg q = if q = d ∧ q ≠ 0 then BitVec.ofNat 64 (min 128 k) else s.reg q) ∧
         t.me = { s.me with s := t.me.s, sh := s.me.sh.set n.toNat v n.isLt, pc := t.me.pc, loops := t.me.loops, watchdog := t.me.watchdog })) ∧
    (m = 0 → s.CanTrap → s.Inv → ∃ t, exec (.setshapeM d a 0x01 g n) s = .next t ∧ Trapped s t 0x34 (BitVec.ofNat 64 a.toNat) s.pc)

/-- R132, R133, R95: asnap answers an element of an accumulator slot, zero-extended, and the slot's pass count; tstat answers the
slot's status bits, NAN in bit 0, INF in bit 1, OVF in bit 2, of which one may be missing until 24 cycles have passed since the drain
that set it. -/
def Obligations.AccumulatorsAreRead : Prop :=
  ∀ (s : State) (d a b : BitVec 5) (g n : BitVec 3), s.pred g = true →
    let x := s.me.mat.slots[n.toNat]'n.isLt
    (0 < d.toNat → d.toNat < 31 →
      ∃ t, exec (.asnap d a b g n) s = .next t ∧ RegsOnly s t ∧ Advances s t ∧
        t.reg d = (Tab.getD x.elems ((s.reg a).toNat % 128 * 64 + (s.reg b).toNat % s.nMax) (0 : W32)).setWidth 64 ∧ t.reg (d + 1) = x.pass ∧
        ∀ q, q ≠ d → q ≠ d + 1 → t.reg q = s.reg q) ∧
    ∃ t, exec (.tstat d g n) s = .next t ∧ Advances s t ∧ t.me.p = s.me.p ∧ (∀ q, q ≠ d → t.reg q = s.reg q) ∧
      (d ≠ 0 → ∀ k b since, (k, b, since) ∈ [(0, x.nan, x.nanAt), (1, x.inf, x.infAt), (2, x.ovf, x.ovfAt)] →
        (b = false → bit (t.reg d).toNat k = false) ∧ (b = true → since + 24 ≤ s.clock → bit (t.reg d).toNat k = true)) ∧
      (x.nanAt + 24 ≤ s.clock → x.infAt + 24 ≤ s.clock → x.ovfAt + 24 ≤ s.clock →
        RegResult s t d (BitVec.ofNat 64 (x.nan.toNat + 2 * x.inf.toNat + 4 * x.ovf.toNat)))

/-- R134, Table 8.5: csrr of a CSR that every thread may read answers its value and changes nothing else; on csrr and csrw alike every
number that the table does not list traps with 0x17, one that it keeps from threads ("—") with 0x11 for a thread, a fault handler included,
and one of the Handle's alone with 0x11 for a worker core. R135, R124, R136, Table 8.5: csrw of a thread's own CSR writes its defined bits;
RSTKBASE also sets RSTKPTR; csrw of a CSR that is read-only for the writer traps with 0x18. R54: SHAPEMAX by part. That a worker core
outside a handler counts as a thread at S1ROOT is the model's reading of R61 (log entry 34). -/
def Obligations.CsrsAreReadAndWritten : Prop :=
  let unlisted (n : Nat) : Prop := (0x009 ≤ n ∧ n ≤ 0x00F) ∨ (0x01A ≤ n ∧ n ≤ 0x01F) ∨ (0x024 ≤ n ∧ n ≤ 0x02F) ∨ (0x035 ≤ n ∧ n ≤ 0x03F) ∨
    (0x041 ≤ n ∧ n ≤ 0x047) ∨ (0x049 ≤ n ∧ n ≤ 0x04F) ∨ (0x053 ≤ n ∧ n ≤ 0x0FF) ∨ (0x109 ≤ n ∧ n ≤ 0x10F) ∨ (0x114 ≤ n ∧ n ≤ 0x17F) ∨ 0x1C0 ≤ n
  let handles (n : Nat) : Prop := (0x104 ≤ n ∧ n ≤ 0x108) ∨ (0x180 ≤ n ∧ n ≤ 0x1BF)
  let firmwares (n : Nat) : Prop := (0x100 ≤ n ∧ n ≤ 0x108) ∨ (0x110 ≤ n ∧ n ≤ 0x113) ∨ (0x180 ≤ n ∧ n ≤ 0x1BF)
  (∀ (s : State) (d : BitVec 5) (g : BitVec 3), s.pred g = true →
    (∀ n v, (n, v) ∈ [(0x001, nat64 s.me.slcore), (0x002, nat64 s.node), (0x003, nat64 (s.cycle s.node)),
        (0x004, if (s.pkg s.node).uv720 then 0x0020200400802080 else 0x0020200400804080), (0x005, (s.pkg s.node).ready),
        (0x010, s.me.sh[0]), (0x011, s.me.sh[1]), (0x012, s.me.sh[2]), (0x013, s.me.sh[3]), (0x014, s.me.sh[4]), (0x015, s.me.sh[5]),
        (0x016, s.me.sh[6]), (0x017, s.me.sh[7]), (0x018, nat64 s.me.loops.length), (0x019, s.me.cdepth.setWidth 64),
        (0x020, s.me.rstkBase), (0x021, s.me.rstkLim), (0x022, s.me.rstkPtr), (0x023, nat64 s.me.rstk.length),
        (0x030, s.me.trapCause.setWidth 64), (0x031, s.me.trapAddr), (0x032, s.me.trapPc), (0x033, s.me.tvec),
        (0x034, if s.me.trapH then 1 else 0), (0x050, s.me.skCells), (0x051, s.me.skGrow), (0x052, s.me.skRounds)] →
      ∃ t, exec (.csrr d g n) s = .next t ∧ RegResult s t d v) ∧
    (isFirmware s.cur = false → ∃ t, exec (.csrr d g 0x000) s = .next t ∧ RegResult s t d (BitVec.ofNat 64 (s.cur % 256))) ∧
    (∀ sk, s.me.slice = some sk →
      (isFirmware s.cur = false →
        ∃ t, exec (.csrr d g 0x006) s = .next t ∧ RegResult s t d (BitVec.ofNat 64 ((s.slice sk).model s.me.slot).condBase)) ∧
      ∀ n v, (n, v) ∈ [(0x007, (s.slice sk).s1root), (0x008, (s.slice sk).fltbase), (0x040, BitVec.ofNat 64 ((s.bindWord sk 7).fld 0 24)),
          (0x048, if (s.bindWord sk 7).fld 24 1 = 1 then 1 else 0)] → ∃ t, exec (.csrr d g n) s = .next t ∧ RegResult s t d v) ∧
    (s.me.slice = none → ∀ n ∈ [(0x040 : BitVec 12), 0x048], ∃ t, exec (.csrr d g n) s = .next t ∧ RegResult s t d 0) ∧
    (isFirmware s.cur = true → s.me.handling = none →
      ∀ n v, (n, v) ∈ [(0x100, 0x00FF020001000000), (0x101, 0x00FF020000010000), (0x102, s.pcsr s.node 0x102), (0x103, 0x00FF020000400000)] →
        ∃ t, exec (.csrr d g n) s = .next t ∧ RegResult s t d v)) ∧
  (∀ (s : State) (d : BitVec 5) (g : BitVec 3) (n : BitVec 12), s.pred g = true → s.CanTrap → s.Inv → ∀ i ∈ [Instr.csrr d g n, .csrw d g n],
    (unlisted n.toNat → ∃ t, exec i s = .next t ∧ Trapped s t 0x17 (n.setWidth 64) s.pc) ∧
    (firmwares n.toNat → isFirmware s.cur = false ∨ s.me.handling ≠ none → ∃ t, exec i s = .next t ∧ Trapped s t 0x11 (wordOf i) s.pc) ∧
    (handles n.toNat → isHandle s.cur = false → ∃ t, exec i s = .next t ∧ Trapped s t 0x11 (wordOf i) s.pc)) ∧
  ∀ (s : State) (a : BitVec 5) (g : BitVec 3), s.pred g = true →
    let v := s.reg a
    let b : W64 := BitVec.ofNat 64 (v.toNat / 8 % 2 ^ 19 * 8)
    (∀ n c, (n, c) ∈ [(0x020, { s.me with rstkBase := b, rstkPtr := b }), (0x021, { s.me with rstkLim := b }),
        (0x032, { s.me with trapPc := v }), (0x033, { s.me with tvec := v }), (0x050, { s.me with skCells := BitVec.ofNat 64 (v.toNat % 2 ^ 18) }),
        (0x051, { s.me with skGrow := BitVec.ofNat 64 (v.toNat % 16) }), (0x052, { s.me with skRounds := BitVec.ofNat 64 (v.toNat % 16) })] →
      ∃ t, exec (.csrw a g n) s = .next t ∧ OnlyMe s t ∧ Advances s t ∧
        t.me = { c with pc := t.me.pc, loops := t.me.loops, watchdog := t.me.watchdog }) ∧
    (s.CanTrap → s.Inv → ∀ n : BitVec 12,
      (n.toNat ≤ 6 ∨ (0x010 ≤ n.toNat ∧ n.toNat ≤ 0x019) ∨ n ∈ [(0x022 : BitVec 12), 0x023, 0x030, 0x031, 0x034, 0x040, 0x048] ∨
        (n = 0x007 ∧ isHandle s.cur = false ∧ s.me.handling = none) ∨ (n = 0x008 ∧ (isFirmware s.cur = false ∨ s.me.handling ≠ none)) ∨
        (n ∈ [(0x100 : BitVec 12), 0x101, 0x103, 0x111] ∧ isFirmware s.cur = true ∧ s.me.handling = none)) →
      ∃ t, exec (.csrw a g n) s = .next t ∧ Trapped s t 0x18 (n.setWidth 64) s.pc)

/-- R138, R139: resume by the Handle of a parked copy ring of a core takes the record of the park out of its queue, sets the ring
going and answers 1; a thread traps with 0x11. qreset by a thread empties the rings of its mask and answers the mask. -/
def Obligations.RingsResumeAndReset : Prop :=
  ∀ (s : State) (d a : BitVec 5) (g : BitVec 3), s.pred g = true →
    (∀ (m : Nat) (k : Park), isHandle s.cur = true → s.me.handling = none → m < 144 → (s.reg a).toNat = m * 256 + 4 →
      (s.core (s.node * 256 + m)).cring.park = some k → k.handle = true → k.cause ∉ [0x6C, 0xE1, 0xE2] →
      ∃ t, exec (.resume d a g) s = .next t ∧ (t.core (s.node * 256 + m)).cring.park = none ∧ t.mem = s.mem ∧ Advances s t ∧
        (∀ q, t.reg q = if q = d ∧ q ≠ 0 then 1 else s.reg q) ∧
        (t.pkg s.node).faults = (s.pkg s.node).faults.filter fun f => f.fnum ≠ k.fnum) ∧
    (isFirmware s.cur = false → s.CanTrap → s.Inv → ∃ t, exec (.resume d a g) s = .next t ∧ Trapped s t 0x11 (wordOf (.resume d a g)) s.pc) ∧
    (isFirmware s.cur = false → (s.reg a).toNat / 256 % 256 = 0 →
      ∃ t, exec (.qreset d a g) s = .next t ∧ (d ≠ 0 → t.reg d = BitVec.ofNat 64 ((s.reg a).toNat % 8)) ∧
        ((s.reg a).toNat % 2 = 1 → t.me.vring.queue = [] ∧ t.me.vring.park = none) ∧
        ((s.reg a).toNat / 2 % 2 = 1 → t.me.mring.queue = [] ∧ t.me.mring.park = none) ∧
        ((s.reg a).toNat / 4 % 2 = 1 → t.me.cring.queue = [] ∧ t.me.cring.park = none))

/-- R140, R69: an invalidation stalls while an access that used a translation of its range is still to be performed; then no core of
the slice holds a cached translation of the range, and every other translation stays: the stage-1 forms by a thread or a fault handler for
its own slice, by the Handle for every slice of the package; the stage-2 forms by the Handle for the slice it names. A thread's stage-2
form, and a stage-1 form of a worker that runs no handler, trap with 0x11. That every form empties the die walk caches, though only
covered entries have to go, is the model's choice (log entry 41). -/
def Obligations.InvalidationDropsTranslations : Prop :=
  ∀ (s : State) (a b : BitVec 5) (g : BitVec 3) (sk : Nat), s.pred g = true →
    let va := (s.reg a).toNat
    let dropped (t : State) (l : List Nat) (f : TlbEntry → Bool) : Prop :=
      t.mem = s.mem ∧ t.me.s = s.me.s ∧ t.me.p = s.me.p ∧ Advances s t ∧ (∀ x ∈ l, (t.pkg (skNode x)).walkCache = []) ∧
        ∀ ck, (t.core ck).tlb = if l.any fun x => s.coreOf x ck (s.core ck) then (s.core ck).tlb.filter fun e => !f e else (s.core ck).tlb
    let forms1 : List (Instr × (TlbEntry → Bool)) :=
      [(.tinvPg1 a g, fun e : TlbEntry => decide (e.base ≤ va ∧ va < e.base + e.size)),
       (.tinvRg1 a b g, fun e => decide (e.base < va + (s.reg b).toNat ∧ va < e.base + e.size)), (.tinvAll1 g, fun _ => true)]
    (s.me.slice = some sk → isFirmware s.cur = false ∨ s.inHandler = true → ∀ i f, (i, f) ∈ forms1 →
      (s.usedLeft sk f = true → exec i s = .next s) ∧ (s.usedLeft sk f = false → ∃ t, exec i s = .next t ∧ dropped t [sk] f)) ∧
    (s.me.slice = none → isHandle s.cur = true → ∀ i f, (i, f) ∈ forms1 →
      let all := (List.range 36).map (skOf s.node)
      ((∃ x ∈ all, s.usedLeft x f = true) → exec i s = .next s) ∧
      ((∀ x ∈ all, s.usedLeft x f = false) → ∃ t, exec i s = .next t ∧ dropped t all f)) ∧
    (isFirmware s.cur = true → isHandle s.cur = false → s.inHandler = false → s.CanTrap → s.Inv → ∀ i f, (i, f) ∈ forms1 →
      ∃ t, exec i s = .next t ∧ Trapped s t 0x11 (wordOf i) s.pc) ∧
    (isHandle s.cur = true → (s.reg b).toNat < 36 → ∀ (i : Instr) (f : TlbEntry → Bool), (i, f) ∈
        [(Instr.tinvPg2 a b g, fun e : TlbEntry => e.meets2 va 1), (.tinvRg2 a b g, fun e => e.meets2 va 65536), (.tinvAll2 b g, fun _ => true)] →
      let x := skOf s.node (s.reg b).toNat
      (s.usedLeft x f = true → exec i s = .next s) ∧ (s.usedLeft x f = false → ∃ t, exec i s = .next t ∧ dropped t [x] f)) ∧
    (isFirmware s.cur = false → s.CanTrap → s.Inv → ∀ i, i ∈ [Instr.tinvPg2 a b g, .tinvRg2 a b g, .tinvAll2 b g] →
      ∃ t, exec i s = .next t ∧ Trapped s t 0x11 (wordOf i) s.pc)

/-- R141: einj, where the slice enables it, gives an own scratchpad word a correctable (kind 1) or an uncorrectable (kind 2) error or a
line of the own package's HBM an uncorrectable one (kind 3), or turns over one bit of an accumulator element (kind 0) once no earlier
command may still write the slot; with the record written into memory (R311), a line that the record covers reads well again. Where it is
not enabled it traps with 0x1A. -/
def Obligations.ErrorsAreInjected : Prop :=
  ∀ (s : State) (a b : BitVec 5) (g : BitVec 3), s.pred g = true →
    let pad := padBase s.cur + (s.reg b).toNat
    let regs (t : State) : Prop := t.me.s = s.me.s ∧ t.me.p = s.me.p
    (∀ k : Nat, k < 64 → s.einjen = true → s.reg a = BitVec.ofNat 64 (1 + k * 2 ^ 24) → (s.reg b).toNat % 8 = 0 → (s.reg b).toNat < padSize →
      ∃ t, exec (.einj a b g) s = .next t ∧ Advances s t ∧ regs t ∧ (s.relSize s.node = none → t.soft = s.soft.put pad k)) ∧
    (s.einjen = true → s.reg a = 2 → (s.reg b).toNat % 8 = 0 → (s.reg b).toNat < padSize →
      ∃ t, exec (.einj a b g) s = .next t ∧ Advances s t ∧ regs t ∧ (s.relSize s.node = none → t.poison = s.poison.add pad)) ∧
    (∀ pg u n c, s.einjen = true → s.reg a = 3 → s.dataPage (s.reg b) .write = .ok pg u → pg.pa / 2 ^ 48 = u.node →
      u.homeRefuses (u.party u.cur) pg.pa 1 1 pg.enc = none → region pg.pa = .hbm n c →
      ∃ t, exec (.einj a b g) s = .next t ∧ Advances u t ∧ t.me.s = u.me.s ∧ t.me.p = u.me.p ∧
        (u.relSize u.node = none → t.poison = u.poison.add (pg.pa / 64 * 64))) ∧
    (∀ n m c k : Nat, s.einjen = true → n < 8 → m < 128 → c < s.nMax → k < 32 → s.reg b = 0 →
      s.reg a = BitVec.ofNat 64 (n * 2 ^ 4 + m * 2 ^ 8 + c * 2 ^ 16 + k * 2 ^ 24) →
      (s.me.slotBusy n = true → exec (.einj a b g) s = .next s) ∧
      (s.me.slotBusy n = false → ∃ t, exec (.einj a b g) s = .next t ∧ Advances s t ∧ regs t ∧
        Tab.getD (t.me.mat.slots[Fin.ofNat 8 n]).elems (m * 64 + c) 0 =
          Tab.getD (s.me.mat.slots[Fin.ofNat 8 n]).elems (m * 64 + c) 0 ^^^ BitVec.ofNat 32 (2 ^ k))) ∧
    (s.einjen = false → s.CanTrap → s.Inv → ∃ t, exec (.einj a b g) s = .next t ∧ Trapped s t 0x1A (s.reg a) s.pc)

/-- R28: take.ib puts the function's next command in the firmware's hand and answers VALID, REPRISE, SEQ and where it stands, or 0
where there is none; commit.ib of a command in hand answers 1 and of any other 0; a thread traps with 0x11. -/
def Obligations.FirmwareTakesAndCommitsCommands : Prop :=
  ∀ (s : State) (d a b : BitVec 5) (g : BitVec 3), s.pred g = true →
    let f := (s.reg a).toNat % 64
    (∀ i e, s.asFirmware = true → 1 ≤ f → f ≤ 36 → (s.inbox s.node f).eligible = some (i, e) → firmwareOp e.op = true → e.wellFormed = true →
      e.inhand = false →
      ∃ t, exec (.takeIb d a g) s = .next t ∧ t.mem = s.mem ∧ Advances s t ∧
        (∀ q, t.reg q = if q = d ∧ q ≠ 0 then
          BitVec.ofNat 64 (2 ^ 63 + (if e.reprise then 2 ^ 62 else 0) + e.seq * 65536 + f * 256 + e.seq % 256) else s.reg q) ∧
        (t.inbox s.node f).entries.get? i = some { e with inhand := true }) ∧
    (s.asFirmware = true → (s.inbox s.node f).eligible = none → ∃ t, exec (.takeIb d a g) s = .next t ∧ RegResult s t d 0) ∧
    (s.asFirmware = true → (s.inbox s.node ((s.reg a).toNat / 256 % 64)).entries.get? ((s.reg a).toNat % 256) = none →
      ∃ t, exec (.commitIb d a b g) s = .next t ∧ RegResult s t d 0) ∧
    (∀ e, s.asFirmware = true → (s.reg a).toNat / 256 % 64 ≤ 36 →
      (s.inbox s.node ((s.reg a).toNat / 256 % 64)).entries.get? ((s.reg a).toNat % 256) = some e → e.inhand = true →
      ∃ t u, exec (.commitIb d a b g) s = .next t ∧ RegResult u t d 1 ∧
        u = (s.commitEntry s.node ((s.reg a).toNat / 256 % 64) ((s.reg a).toNat % 256) e ((s.reg b).toNat % 256)
          (BitVec.ofNat 64 ((s.reg b).toNat / 256))).runInbox s.node ((s.reg a).toNat / 256 % 64)) ∧
    (isFirmware s.cur = false → s.CanTrap → s.Inv → ∀ i, i ∈ [Instr.takeIb d a g, .commitIb d a b g] →
      ∃ t, exec i s = .next t ∧ Trapped s t 0x11 (wordOf i) s.pc)

/-- R337, R338: attest by the Handle extends measurement register 4 to 14 with the 64 bytes at its address and answers 1; another
register answers 0; any other core traps with 0x11. SHA-512 is a free function of the model (log entry 5). -/
def Obligations.AttestExtendsAMeasurement : Prop :=
  ∀ (s u : State) (d a b : BitVec 5) (g : BitVec 3) (bs : List Byte), s.pred g = true →
    (∀ r : Fin 16, isHandle s.cur = true → 4 ≤ r.val → r.val ≤ 14 → s.reg a = BitVec.ofNat 64 r.val → (s.reg b).toNat % 64 = 0 →
      s.loadAt s.cur { pa := normPa s.node (s.reg b).toNat, left := 64 } 64 = .ok bs u → u.cur = s.cur →
      ∃ t, exec (.attest d a b g) s = .next t ∧ (t.pkg s.node).mr[r] = Config.sha512 (leBytes 64 ((u.pkg s.node).mr[r]).toNat ++ bs) ∧
        (d ≠ 0 → t.reg d = 1)) ∧
    (isHandle s.cur = true → (s.reg b).toNat % 64 = 0 → ((s.reg a).toNat < 4 ∨ 14 < (s.reg a).toNat) →
      ∃ t, exec (.attest d a b g) s = .next t ∧ RegResult s t d 0) ∧
    (isHandle s.cur = false → s.CanTrap → s.Inv → ∃ t, exec (.attest d a b g) s = .next t ∧ Trapped s t 0x11 (wordOf (.attest d a b g)) s.pc)

/-- R250 (R77 to R79): an invalid swalloc traps with 0xB7 and its length. A valid one answers the first status that applies: 1 with no free
entry, 2 above a LIMIT, 3 where a charged switch does not serve or answer, 4 where a switch has no place for the bytes, 5 where the window
has none; otherwise a free entry becomes live at the lowest place of the window, at offsets in free places of the switches, USED of every
charged switch grows by its bytes, these read as zero, and the answer is VBASE. R251: swfree of an address that is no allocation answers 6;
of one that is it frees the entry and answers 0, takes the charge back, and every switch that released it holds its place no more; it stalls
while an access of its slice through the entry is still to be performed. R252: swquota answers LIMIT and USED of a switch, word 0 and LEN of
the entry that covers a window address or zeros, and traps with 0xB7 on others. The model's own are the function of a firmware core's
allocations (State.myFunc, log entry 43), the stall while 4,096 requests are outstanding to a switch (R281), and that of the free entries
any may be taken (log entry 3). A slice that the fabric's ports are barred to is left to R44 (log entry 57). -/
def Obligations.SwitchMemoryIsAllocated : Prop :=
  ∀ (s : State) (d a b : BitVec 5) (g : BitVec 3), s.pred g = true →
    let node := s.node
    let f := s.myFunc
    let va := (s.reg a).toNat
    let used (s : State) (sw : Nat) : Nat := (s.word (quotaAddr node f sw + 8)).toNat
    let limit (sw : Nat) : Nat := (s.word (quotaAddr node f sw)).toNat
    (badRequest va (s.reg b) = true → s.CanTrap → s.Inv → ∃ t, exec (.swalloc d a b g) s = .next t ∧ Trapped s t 0xB7 (s.reg a) s.pc) ∧
    (badRequest va (s.reg b) = false →
      let x := wantedEntry va (s.reg b)
      let sws := x.spaces.map (·.1)
      ((∀ e, e < 256 → s.satFree node f e = false) → ∃ t, exec (.swalloc d a b g) s = .next t ∧ RegResult s t d 1) ∧
      ((∃ e, e < 256 ∧ s.satFree node f e = true) →
        ((∃ c ∈ x.spaces, limit c.1 < used s c.1 + c.2.2) → ∃ t, exec (.swalloc d a b g) s = .next t ∧ RegResult s t d 2) ∧
        ((∀ c ∈ x.spaces, used s c.1 + c.2.2 ≤ limit c.1) →
          ((∃ c ∈ x.spaces, s.switchServes node f c.1 = false) → ∃ t, exec (.swalloc d a b g) s = .next t ∧ RegResult s t d 3) ∧
          ((∀ c ∈ x.spaces, s.switchServes node f c.1 = true) →
            (s.switchFull node sws = true → exec (.swalloc d a b g) s = .next s) ∧
            (s.switchFull node sws = false → ∀ answered u, s.askSwitches node sws = (answered, u) →
              let on := if x.place = 1 then List.range 18 else [x.swa]
              let need := if x.place = 1 then stripe va else va
              let fits (l : List Nat) (n o : Nat) : Prop := o % 65536 = 0 ∧ o + n ≤ 2 ^ 37 ∧ ∀ sw ∈ l, ∀ r ∈ (u.switch sw).used, o + n ≤ r.lo ∨ r.hi ≤ o
              let inWindow (p : Nat) : Prop := p % 65536 = 0 ∧ 0xF00000000000 ≤ p ∧ p + va ≤ 2 ^ 48 ∧ ∀ e, e < 256 → u.satFree node f e = false →
                p + va ≤ (u.satEntry node f e).vbase ∨ (u.satEntry node f e).vbase + (u.satEntry node f e).len ≤ p
              (answered = false → ∃ t, exec (.swalloc d a b g) s = .next t ∧ RegResult u t d 3) ∧
              (answered = true → (∀ o, ¬fits on need o) ∨ (x.place = 2 ∧ ∀ o, ¬fits [x.swb] va o) →
                ∃ t, exec (.swalloc d a b g) s = .next t ∧ RegResult u t d 4) ∧
              (answered = true → ∀ oa ob v w, u.pickOffset on need = (some oa, v) →
                (if x.place = 2 then v.pickOffset [x.swb] va else (some 0, v)) = (some ob, w) →
                ((∀ p, ¬inWindow p) → ∃ t, exec (.swalloc d a b g) s = .next t ∧ RegResult u t d 5) ∧
                ∀ p, inWindow p → (∀ q, inWindow q → p ≤ q) → u.Inv →
                  let y : SatEntry := { x with vbase := p, offa := oa, offb := ob }
                  ∃ t e, exec (.swalloc d a b g) s = .next t ∧ Advances u t ∧ (∀ q, t.reg q = if q = d ∧ q ≠ 0 then BitVec.ofNat 64 p else u.reg q) ∧
                    e < 256 ∧ s.satFree node f e = true ∧ t.satEntry node f e = y ∧
                    (∀ i w, i < 256 → w < 4 → i ≠ e → t.satWord node f i w = u.satWord node f i w) ∧
                    fits on need oa ∧ (x.place = 2 → fits [x.swb] va ob) ∧
                    ∀ c ∈ y.spaces, t.word (quotaAddr node f c.1 + 8) = BitVec.ofNat 64 (used u c.1 + c.2.2) ∧
                      ({ lo := c.2.1, hi := c.2.1 + c.2.2, holders := [(node, f, p)] } : SwSpace) ∈ (t.switch c.1).used ∧
                      ∀ z, swPa c.1 c.2.1 ≤ z → z < swPa c.1 c.2.1 + c.2.2 → t.mem.get z = 0)))))) ∧
    ((∀ e, e < 256 → s.satFree node f e = false → (s.satEntry node f e).vbase ≠ va) →
      ∃ t, exec (.swfree d a g) s = .next t ∧ RegResult s t d 6) ∧
    (∀ e, e < 256 → s.satFree node f e = false → (s.satEntry node f e).vbase = va →
      (∀ i, i < e → s.satFree node f i = true ∨ (s.satEntry node f i).vbase ≠ va) →
      let x := s.satEntry node f e
      let sws := x.spaces.map (·.1)
      (∀ sk, s.me.slice = some sk → s.entryUsed sk x = true → exec (.swfree d a g) s = .next s) ∧
      ((∀ sk, s.me.slice = some sk → s.entryUsed sk x = false) → s.rejoins node = false → s.portBarred s.cur = false →
        (s.switchFull node sws = true → exec (.swfree d a g) s = .next s) ∧
        (s.switchFull node sws = false → sws.Nodup → ∀ done u, s.askEach node x.spaces = (done, u) → u.Inv →
          ∃ t, exec (.swfree d a g) s = .next t ∧ Advances u t ∧ (∀ q, t.reg q = if q = d ∧ q ≠ 0 then 0 else u.reg q) ∧
            t.satFree node f e = true ∧ (∀ i w, i < 256 → w < 4 → i ≠ e → t.satWord node f i w = u.satWord node f i w) ∧
            (bit (leNat (u.bytes (satBlock node f + 0x2000 + e / 8) 1)) (e % 8) = false →
              ∀ c ∈ x.spaces, t.word (quotaAddr node f c.1 + 8) = BitVec.ofNat 64 (used u c.1 - c.2.2)) ∧
            ∀ c ∈ done, (∀ r ∈ (u.switch c.1).used, r.lo = c.2.1 → r.holders = [(node, f, x.vbase)]) → ∀ r ∈ (t.switch c.1).used, r.lo ≠ c.2.1))) ∧
    (0 < d.toNat → d.toNat < 31 →
      (va < 18 → ∃ t, exec (.swquota d a g) s = .next t ∧ RegsOnly s t ∧ Advances s t ∧
        ∀ q, t.reg q = if q = d + 1 then s.word (quotaAddr node f va + 8) else if q = d then s.word (quotaAddr node f va) else s.reg q) ∧
      (0xF00000000000 ≤ va → va < 2 ^ 48 →
        let covers (e : Nat) : Prop := (s.satEntry node f e).state ≠ 0 ∧ (s.satEntry node f e).vbase ≤ va ∧ va < (s.satEntry node f e).vbase + (s.satEntry node f e).len
        (∀ e, e < 256 → covers e → (∀ i, i < e → ¬covers i) → ∃ t, exec (.swquota d a g) s = .next t ∧ RegsOnly s t ∧ Advances s t ∧
          ∀ q, t.reg q = if q = d + 1 then s.satWord node f e 1 else if q = d then s.satWord node f e 0 else s.reg q) ∧
        ((∀ e, e < 256 → ¬covers e) → ∃ t, exec (.swquota d a g) s = .next t ∧ RegsOnly s t ∧ Advances s t ∧
          ∀ q, t.reg q = if q = d + 1 ∨ q = d then 0 else s.reg q))) ∧
    (18 ≤ va → va < 0xF00000000000 ∨ 2 ^ 48 ≤ va → s.CanTrap → s.Inv → ∃ t, exec (.swquota d a g) s = .next t ∧ Trapped s t 0xB7 (s.reg a) s.pc)

/-- R102, R142 to R144, R148: a push whose checks pass writes one entry behind those of its ring, with its tokens, its tile-start
marker and the thread's sequence number, and its bytes at the entry's place of the ring region; a copy with a follow-on writes a second
one, without tokens, behind those of the matrix ring. It steps the sequence number by one for each, and counts its wait and its raise.
R145, R301: on a full ring it stalls, its checks stay passed, and the core's next turns try the write alone. A prefix that names no engine traps with 0x04, a wait that can never
be met with 0x80, ranges in the ring region with 0x82, a check that fails with its cause. -/
def Obligations.PushWritesAnEntry : Prop :=
  ∀ (s u : State) (e : BitVec 2) (w k : BitVec 6) (m : BitVec 1) (a b : BitVec 5) (w1 w2 : W32) (p : Plan), e ≠ 0 →
    let ranges := p.e.reads ++ p.e.writes ++ (match p.follow with | some f => f.reads | none => [])
    let meets := w = 0 ∨ (u.me.token w.toNat).pwait + 1 ≤ (u.me.token w.toNat).value.toNat + (u.me.token w.toNat).praise
    let ent : Entry := { p.e with waitk := w, raisek := k, tsm := m == 1, seq := u.me.seq }
    let counted (t : State) : Prop :=
      t.me.s = u.me.s ∧ t.me.p = u.me.p ∧ t.me.pushHeld = none ∧
        (w ≠ 0 → w ≠ k → (t.me.token w.toNat).pwait = (u.me.token w.toNat).pwait + 1) ∧
        (k ≠ 0 → w ≠ k → (t.me.token k.toNat).praise = (u.me.token k.toNat).praise + 1)
    (s.planPush e (s.reg a) (s.reg b) w1 w2 = .ok (.ok p) u → ringOverlap ranges = none → meets → p.r < 3 →
      ((u.ring p.r).full = false → p.follow = none →
        ∃ t, exec (.enqueuePrefix e w k m a b w1 w2) s = .next t ∧ (t.ring p.r).queue = (u.ring p.r).queue ++ [ent] ∧
          t.me.seq = u.me.seq + 1 ∧ counted t ∧
          (u.Inv → u.enc = [] → Stored u t (entryAddr u.cur p.r (u.ring p.r).wp) ent.bytes)) ∧
      (∀ f, (u.ring p.r).full = false → (u.ring 1).full = false → p.follow = some f → p.r = 2 →
        ∃ t, exec (.enqueuePrefix e w k m a b w1 w2) s = .next t ∧ (t.ring 2).queue = (u.ring 2).queue ++ [ent] ∧
          (t.ring 1).queue = (u.ring 1).queue ++ [{ f with tsm := m == 1, seq := u.me.seq + 1 }] ∧ t.me.seq = u.me.seq + 2 ∧ counted t) ∧
      ((u.ring p.r).full = true ∨ p.follow ≠ none ∧ (u.ring 1).full = true → u.stopAsked = false →
        exec (.enqueuePrefix e w k m a b w1 w2) s = .next (u.setMe { u.me with
          pushHeld := some (p.marked w k m u.me.seq, s.pc + (if (e == 3 && w1.fld 20 1 == 1) = true then 12 else 8)) }))) ∧
    (∀ x, s.agenda = [] → s.fetches = true → s.me.pushHeld = some x → step s = .next (s.tick.retryPush x.1 x.2)) ∧
    (s.planPush e (s.reg a) (s.reg b) w1 w2 = .ok (.ok p) u → u.CanTrap → u.Inv →
      (∀ x, ringOverlap ranges = some x →
        ∃ t, exec (.enqueuePrefix e w k m a b w1 w2) s = .next t ∧ Trapped u t 0x82 (BitVec.ofNat 64 x) u.pc) ∧
      (ringOverlap ranges = none → ¬meets →
        ∃ t, exec (.enqueuePrefix e w k m a b w1 w2) s = .next t ∧ Trapped u t 0x80 (w.setWidth 64) u.pc)) ∧
    (∀ c v, s.planPush e (s.reg a) (s.reg b) w1 w2 = .ok (.error (c, v)) u → u.CanTrap → u.Inv →
      ∃ t, exec (.enqueuePrefix e w k m a b w1 w2) s = .next t ∧ Trapped u t c v u.pc) ∧
    (s.CanTrap → s.Inv → ∃ t, exec (.enqueuePrefix 0 w k m a b w1 w2) s = .next t ∧ Trapped s t 0x04 (wordOf (.enqueuePrefix 0 w k m a b 0 0)) s.pc)

/-! ### The vector engine -/

/-- R157, R158, R165: a source of a vector entry that is a register, a queue place or a captured constant gives its lanes below L
and 0 above; of a destination that is a register the produced lanes are replaced, and the result, over zeros, is shifted into the
queue; a destination that is no register and no port takes nothing. -/
def Obligations.VectorSourcesAndDestinations : Prop :=
  ∀ (s : State) (ent : Entry) (e : Nat), ent.lg ≤ ent.lp → ent.lp * e ≤ 4096 →
    (∀ v, v < 0x30 ∨ 0x38 ≤ v → s.sources ent e [v] = .ok ([lanesOf e ent.lg ent.lp (s.me.source ent [] e ent.lp v)], []) s) ∧
    (∀ v j, v < 0x20 → j < ent.lg → lane (lanesOf e ent.lg ent.lp (s.me.source ent [] e ent.lp v)) j =
      (s.me.vec.v[Fin.ofNat 32 v]).toNat / 2 ^ (e * j) % 2 ^ e) ∧
    (∀ v j, 0x20 ≤ v → v < 0x30 → j < ent.lg → lane (lanesOf e ent.lg ent.lp (s.me.source ent [] e ent.lp v)) j =
      (s.me.vec.q[Fin.ofNat 16 v]).toNat / 2 ^ (e * j) % 2 ^ e) ∧
    (∀ j, j < ent.lg → lane (lanesOf e ent.lg ent.lp (s.me.source ent [] e ent.lp 0x38)) j = ent.capa.toNat % 2 ^ e) ∧
    (∀ j, j < ent.lg → lane (lanesOf e ent.lg ent.lp (s.me.source ent [] e ent.lp 0x39)) j = ent.capb.toNat % 2 ^ e) ∧
    (∀ v j, ent.lg ≤ j → lane (lanesOf e ent.lg ent.lp (s.me.source ent [] e ent.lp v)) j = 0) ∧
    (∀ d l, d < 0x20 → e * l.length ≤ 4096 → ∃ t, s.deliverV d [] (.lanes e l false) = .ok () t ∧ OnlyMe s t ∧
      (∀ k : Fin 32, k.val ≠ d → t.me.vec.v[k] = s.me.vec.v[k]) ∧
      (∀ j, j < l.length → (t.me.vec.v[Fin.ofNat 32 d]).toNat / 2 ^ (e * j) % 2 ^ e =
        (match l.getD j none with
          | some x => x % 2 ^ e
          | none => (s.me.vec.v[Fin.ofNat 32 d]).toNat / 2 ^ (e * j) % 2 ^ e)) ∧
      (∀ j, j < l.length → (t.me.vec.q[0]).toNat / 2 ^ (e * j) % 2 ^ e = ((l.getD j none).getD 0) % 2 ^ e) ∧
      (∀ k : Fin 15, t.me.vec.q[k.val + 1] = s.me.vec.q[k.val])) ∧
    (∀ d r, (0x20 ≤ d ∧ d < 0x30) ∨ 0x34 ≤ d →
      s.deliverV d [] r = .ok () (s.setMe { s.me with vec := s.me.vec.push (r.onto 0) }))

/-- R112, R159, R169 to R172, R177: the lane-wise forms of the vector engine complete with the function of their sources' lanes
that their rule gives: f32 arithmetic and its function tables, integer arithmetic, logic, moves, selects, conversions, permutes. -/
def Obligations.VectorLanesTakeTheirFunction : Prop :=
  ∀ (s : State) (d a b t : BitVec 6) (sh m : BitVec 3) (x : BitVec 2) (u : BitVec 1),
    let e := (s.entry 0).e
    let L := (s.entry 0).lg
    let no : List (List Nat) → Nat → Bool := fun _ _ => false
    let at0 : (Nat → Nat) → List (List Nat) → Nat → Nat := fun f xs j => f (lane (xs.getD 0 []) j)
    let at1 : (Nat → Nat → Nat) → List (List Nat) → Nat → Nat := fun f xs j => f (lane (xs.getD 0 []) j) (lane (xs.getD 1 []) j)
    let at2 : (Nat → Nat → Nat → Nat) → List (List Nat) → Nat → Nat :=
      fun f xs j => f (lane (xs.getD 0 []) j) (lane (xs.getD 1 []) j) (lane (xs.getD 2 []) j)
    let one (i : Instr) (f : Nat → Nat) : Prop := LaneForm s i e e d.toNat m.toNat [a.toNat] false (at0 f) no
    let two (i : Instr) (f : Nat → Nat → Nat) : Prop := LaneForm s i e e d.toNat m.toNat [a.toNat, b.toNat] false (at1 f) no
    let shadow (i : Instr) (f : Nat → Nat → Nat) (g : Nat → Nat → Nat → Bool) : Prop :=
      LaneForm s i e e d.toNat m.toNat [a.toNat, b.toNat] false (at1 f)
        fun xs j => g (lane (xs.getD 0 []) j) (lane (xs.getD 1 []) j) (at1 f xs j)
    let fused (i : Instr) (vs : List Nat) : Prop :=
      LaneForm s i e e d.toNat m.toNat vs false (at2 fmaF)
        fun xs j => divFma (lane (xs.getD 0 []) j) (lane (xs.getD 1 []) j) (lane (xs.getD 2 []) j) (at2 fmaF xs j)
    let si : Nat → Int := fun v => if x.toNat % 2 = 0 then (BitVec.ofNat e v).toInt else ((v % 2 ^ e : Nat) : Int)
    let ui : Nat → Int := fun v => if u = 0 then (BitVec.ofNat e v).toInt else ((v % 2 ^ e : Nat) : Int)
    (shadow (.vaddF32 d a b sh m x) (addF x.toNat) divAdd ∧ shadow (.vmulF32 d a b sh m x) (mulF x.toNat) divMul ∧
      shadow (.vsubF32 d a b sh m x) (subF x.toNat) (fun p q r => divAdd p (negF q) r) ∧
      fused (.vfmaF32 d a b sh m x) [a.toNat, b.toNat, tSpec x.toNat] ∧
      fused (.vfmaF32TMultiplier d a b sh m x) [a.toNat, tSpec x.toNat, b.toNat]) ∧
    (two (.vminF32 d a b sh m) minF ∧ two (.vmaxF32 d a b sh m) maxF ∧ one (.vabsF32 d a sh m) absF ∧ one (.vnegF32 d a sh m) negF) ∧
    (one (.vrcpF32 d a sh m) rcpF ∧ one (.vrsqrtF32 d a sh m) rsqrtF ∧ one (.vexp2F32 d a sh m) exp2F ∧
      one (.vlog2F32 d a sh m) log2F ∧ one (.vtanhF32 d a sh m) tanhF) ∧
    (two (.vaddInt d a b sh m x) (fun p q => narrow x.toNat e (si p + si q)) ∧
      two (.vsubInt d a b sh m x) (fun p q => narrow x.toNat e (si p - si q)) ∧
      two (.vmulInt d a b sh m x) (fun p q => narrow x.toNat e (si p * si q)) ∧
      two (.vmulh d a b sh m u) (fun p q => (BitVec.ofInt e (ui p * ui q / 2 ^ e)).toNat) ∧
      two (.vminInt d a b sh m u) (fun p q => if ui q < ui p then q else p) ∧
      two (.vmaxInt d a b sh m u) (fun p q => if ui p < ui q then q else p) ∧
      one (.vabsInt d a sh m) (fun p => (BitVec.ofInt e (BitVec.ofNat e p).toInt.natAbs).toNat) ∧
      two (.vshl d a b sh m) (fun p q => p * 2 ^ (q % e) % 2 ^ e) ∧
      two (.vshr d a b sh m u) (fun p q => (BitVec.ofInt e (ui p / 2 ^ (q % e))).toNat)) ∧
    (two (.vand d a b sh m) (· &&& ·) ∧ two (.vor d a b sh m) (· ||| ·) ∧ two (.vxor d a b sh m) (· ^^^ ·) ∧
      one (.vmov d a sh m) id ∧
      LaneForm s (.vrot d a sh m) e e d.toNat m.toNat [a.toNat] false
        (fun xs j => lane (xs.getD 0 []) ((j + (s.entry 0).capa.toNat) % L)) no ∧
      LaneForm s (.vperm d a b sh m) e e d.toNat m.toNat [a.toNat, b.toNat] false
        (fun xs j => if lane (xs.getD 1 []) j < L then lane (xs.getD 0 []) (lane (xs.getD 1 []) j) else 0) no ∧
      LaneForm s (.viota d sh m) e e d.toNat m.toNat [] false (fun _ j => j % 2 ^ e) no ∧
      LaneForm s (.vsplat d sh m x) e e d.toNat m.toNat [] false
        (fun _ _ => (if x = 0 then (s.entry 0).capa else (s.entry 0).capb).toNat % 2 ^ e) no ∧
      ∀ xs vals r v, (s.wakeBanks (s.entry 0).word).sources (s.entry 0) e [a.toNat, b.toNat] = .ok (xs, vals) r →
        r.deliverV d.toNat vals (.lanes e ((List.range (s.entry 0).lp).map fun j => if j < L then
          some (if r.me.maskBit m.toNat j then lane (xs.getD 0 []) j else lane (xs.getD 1 []) j) else none) false) = .ok () v →
        exec (.vsel d a b sh m) s = .next (v.entryDone 0)) ∧
    (let from_ := bits t.toNat 0 3
     let to_ := bits t.toNat 3 3
     let src := floatOf from_
     let tgt := floatOf to_
     let iw := intWidth from_
     let ow := intWidth to_
     let cvt (i : Instr) (sw tw : Nat) (g : Nat → Nat) : Prop :=
       LaneForm s i sw tw d.toNat m.toNat [a.toNat] (decide (tw < sw)) (at0 g) no
     cvt (.vcvt d a t sh m x) src.width tgt.width (fun c => (tgt.convert x.toNat false (src.value c)).1) ∧
      cvt (.vcvtSat d a t sh m x) src.width tgt.width (fun c => (tgt.convert x.toNat true (src.value c)).1) ∧
      cvt (.vcvtFloatToInt d a t sh m x) src.width ow
        (fun c => (toInteger (intSigned to_) ow x.toNat (src.value c)).1) ∧
      cvt (.vcvtIntToFloat d a t sh m x) iw tgt.width
        (fun c => tgt.round x.toNat (ofInteger (intOf (intSigned from_) iw c))) ∧
      cvt (.vcvtIntToInt d a t sh m x) iw ow
        (fun c => narrow (if intSigned to_ then 2 else 3) ow (intOf (intSigned from_) iw c)))

/-- R168, R175, R176: a compare sets the bits of a mask register below L that its write mask selects, keeps the others below L, and
clears those from L; vmask combines two mask registers; a reduction gives the root of the fixed tree in lane 0, a scan the
running values, each of a unit without a fault in store (R307) and unless the shadow finds a divergence; then the entry completes. -/
def Obligations.VectorMasksReductionsAndScans : Prop :=
  ∀ (s : State) (d a b : BitVec 6) (sh m : BitVec 3) (c o : BitVec 2) (n : BitVec 1),
    let ent := s.entry 0
    let e := ent.e
    let w := s.wakeBanks ent.word
    let old (u : State) (j : Nat) : Bool := (u.me.vec.m[Fin.ofNat 8 d.toNat]).toNat / 2 ^ j % 2 == 1
    let compare (i : Instr) (f : Nat → Nat → Bool) : Prop :=
      ∀ xs vals u, w.sources ent e [a.toNat, b.toNat] = .ok (xs, vals) u →
        ∃ t, exec i s = .next (t.entryDone 0) ∧
          t = u.setMe { u.me.popPorts vals with vec := { (u.me.popPorts vals).vec with m := t.me.vec.m } } ∧
          (∀ k : Fin 8, k.val ≠ d.toNat % 8 → t.me.vec.m[k] = u.me.vec.m[k]) ∧
          ∀ j, j < 512 → (t.me.vec.m[Fin.ofNat 8 d.toNat]).getLsbD j =
            if ent.lg ≤ j then false
            else if u.me.maskBit m.toNat j then f (lane (xs.getD 0 []) j) (lane (xs.getD 1 []) j)
            else (u.me.vec.m[Fin.ofNat 8 d.toNat]).getLsbD j
    let across (i : Instr) (f : List (Option Nat) → Nat → Nat) (ok : List (Option Nat) → Prop) : Prop :=
      ∀ xs vals u v, w.sources ent e [a.toNat] = .ok (xs, vals) u → u.Healthy 2 →
        let l := (List.range ent.lp).map fun j => if j < ent.lg ∧ u.me.maskBit m.toNat j = true then some (lane (xs.getD 0 []) j) else none
        ok l → u.deliverV d.toNat vals (.lanes e ((List.range ent.lp).map fun j => if j < ent.lg then some (f l j) else none) false) = .ok () v →
        exec i s = .next (v.entryDone 0)
    compare (.vcmpF32 d a b sh m c) (condF c.toNat) ∧
    compare (.vcmpSigned d a b sh m c) (fun p q => condI c.toNat (BitVec.ofNat e p).toInt (BitVec.ofNat e q).toInt) ∧
    compare (.vcmpUnsigned d a b sh m c) (fun p q => condI c.toNat ((p % 2 ^ e : Nat) : Int) ((q % 2 ^ e : Nat) : Int)) ∧
    (∃ t, exec (.vmask d a b sh o) s = .next (t.entryDone 0) ∧ t = w.setMe { w.me with vec := { w.me.vec with m := t.me.vec.m } } ∧
      (∀ k : Fin 8, k.val ≠ d.toNat % 8 → t.me.vec.m[k] = w.me.vec.m[k]) ∧
      ∀ j, j < 512 → (t.me.vec.m[Fin.ofNat 8 d.toNat]).getLsbD j =
        (decide (j < ent.lg) && (
          let x := w.me.maskBit a.toNat j
          let y := w.me.maskBit b.toNat j
          if o = 0 then x && y else if o = 1 then x || y else if o = 2 then Bool.xor x y else x && !y))) ∧
    across (.vredF32 d a sh m o) (fun l j => if j = 0 then (tree (redOpF o.toNat) 10 l).getD (redIdF o.toNat) else 0)
      (fun l => treeDiverges (redOpF o.toNat) (divOp o.toNat) 10 1 l = none) ∧
    across (.vredInt d a n sh m o) (fun l j => if j = 0 then (tree (redOpI n.toNat o.toNat e) 10 l).getD (redIdI n.toNat o.toNat e) else 0)
      (fun _ => True) ∧
    across (.vscanF32 d a sh m o) (fun l j => lane (scanList (redOpF o.toNat) (redIdF o.toNat) l) j)
      (fun l => scanDiverges (redOpF o.toNat) (divOp o.toNat) 0 (redIdF o.toNat) l = none) ∧
    across (.vscanInt d a n sh m o) (fun l j => lane (scanList (redOpI n.toNat o.toNat e) (redIdI n.toNat o.toNat e) l) j) (fun _ => True)

/-- R154, R161, R162, R173, R174, R178: vbscale gives the scaled elements of a block image, vquant the image of its lanes, vpart
two packed lists and their counts, vport and vportd the walk their push captured, vrep runs its body entries in turn as often as
CAPA says, and vnop does nothing; then the entry completes. -/
def Obligations.VectorBlocksPortsAndRepeats : Prop :=
  ∀ (s : State) (d a b f : BitVec 6) (sh m : BitVec 3) (x : BitVec 2),
    let ent := s.entry 0
    let w := s.wakeBanks ent.word
    let lanes (g : Nat → Nat) : List (Option Nat) := (List.range ent.lp).map fun j => if j < ent.lg then some (g j) else none
    (∀ vals u v, w.readPorts (imageBytes f.toNat (blocksOf f.toNat ent.lp)) [a.toNat] [] = .ok vals u → u.Healthy 2 →
      u.deliverV d.toNat vals (.lanes 32 (lanes fun j =>
        f32.round x.toNat (imageElem f.toNat (blocksOf f.toNat ent.lp) (u.me.source ent vals 32 128 a.toNat) j)) false) = .ok () v →
      exec (.vbscale d a f sh x) s = .next (v.entryDone 0)) ∧
    (∀ xs vals u v, w.sources ent 32 [a.toNat] = .ok (xs, vals) u →
      let nb := blocksOf f.toNat ent.lp
      u.deliverV d.toNat vals (.image (imageOf f.toNat ((chunks (blockG f.toNat) nb
        (xs.getD 0 [] ++ List.replicate (nb * blockG f.toNat - ent.lp) 0)).map (quantise f.toNat x.toNat)))) = .ok () v →
      exec (.vquant d a f sh x) s = .next (v.entryDone 0)) ∧
    (∀ xs vals u u1 u2 u3, w.sources ent 32 [a.toNat] = .ok (xs, vals) u →
      let sel := u.me.maskBit m.toNat
      let yes := (List.range ent.lg).filter sel
      let nay := (List.range ent.lg).filter fun j => !sel j
      let out (l : List Nat) : VRes := .lanes 32 (lanes fun j => lane
        (l.map (lane (xs.getD 0 [])) ++ List.replicate (ent.lg - l.length) 0xFFFFFFFF) j) false
      u.portMay (b.toNat - 8) (if b = d then 1 else 0) (4 * ent.lg) = .ok () u1 → u1.portWrite (d.toNat - 8) (out yes) = .ok () u2 →
      u2.portWrite (b.toNat - 8) (out nay) = .ok () u3 →
      exec (.vpart d a b sh m) s = .next ((u3.setMe { u3.me.popPorts vals with
        vec := (u3.me.popPorts vals).vec.push (yes.length + 2 ^ 32 * (ent.lg - yes.length)) }).entryDone 0)) ∧
    (∀ p, ent.walk = some p →
      exec (.vport d sh) s = .next ((w.setMe { w.me with vec := { w.me.vec with ports := w.me.vec.ports.put d.toNat p } }).entryDone 0) ∧
      exec (.vportd d sh) s = .next ((w.setMe { w.me with vec := { w.me.vec with ports := w.me.vec.ports.put d.toNat p } }).entryDone 0)) ∧
    exec .vnop s = .next (w.entryDone 0) ∧
    (∀ (n : BitVec 6) (σ : Nat → State), 0 < n.toNat → σ 0 = s → (s.ring 0).prog = {} → ((s.ring 0).before n.toNat).length = n.toNat →
      (∀ k, k < ent.capa.toNat % 65536 * n.toNat → ∃ body i u, ((s.ring 0).before n.toNat)[k % n.toNat]? = some body ∧
        decodeVector body.word = .ok i ∧ vbody i body ((σ k).wakeBanks body.word) = .ok () u ∧ u.ring 0 = (σ k).ring 0 ∧
        σ (k + 1) = u.setRing 0 { u.ring 0 with prog := { rep := (k + 1) / n.toNat, pos := (k + 1) % n.toNat } }) →
      exec (.vrep n) s = .next ((σ (ent.capa.toNat % 65536 * n.toNat)).entryDone 0))

/-- R145, R146, R149, R183, R235: an entry that completes leaves the head of its ring and the read pointer steps; one that has executed
ahead of a running entry of another unit stays behind that one, completed, until the read pointer passes it. Its raise adds 1 to the
token it names, where that is not at its greatest value, and takes one from the raises promised. -/
def Obligations.EntriesRetireAndRaise : Prop :=
  ∀ (s : State) (r : Nat) (e : Entry) (l : List Entry), (s.ring r).queue = e :: l → r < 3 →
    let t := s.entryDone r
    let ahead := (s.ring r).aside
    (ahead = [] → (t.ring r).queue = l ∧ (t.ring r).rp = (s.ring r).rp + 1 ∧ (t.ring r).prog = (l.headD {}).prog ∧
      (t.ring r).past.head? = some e) ∧
    (ahead ≠ [] → (t.ring r).queue = ahead ++ { e with finished := true, raised := true } :: l ∧ (t.ring r).aside = [] ∧
      (t.ring r).rp = (s.ring r).rp ∧ (t.ring r).past = (s.ring r).past) ∧
    (t.ring r).wp = (s.ring r).wp ∧ (∀ o, o < 3 → o ≠ r → t.ring o = s.ring o) ∧
    t.me.s = s.me.s ∧ t.me.p = s.me.p ∧ t.me.pc = s.me.pc ∧ t.me.vec = s.me.vec ∧ t.me.mat = s.me.mat ∧ t.me.lq = s.me.lq ∧
    (e.raisek = 0 → t.me.tokens = s.me.tokens ∧ t.mem = s.mem) ∧
    (∀ k, k ≠ e.raisek.toNat → t.me.token k = s.me.token k) ∧
    (e.raisek ≠ 0 → e.raised = false → (s.me.token e.raisek.toNat).value.toNat < 2 ^ 32 - 1 →
      (t.me.token e.raisek.toNat).value = (s.me.token e.raisek.toNat).value + 1 ∧
      (t.me.token e.raisek.toNat).praise = (s.me.token e.raisek.toNat).praise - 1 ∧ t.mem = s.mem)

/-! ### The matrix engine -/

/-- R182, R183, R186 to R188: a tile load puts the granted elements of its stream, with a block format's scales, into a tile
register, from the own scratchpad or from its load-queue claim, and records the stream's order in TR; mmov copies a tile, mtr
transposes one, each of a tile register without an error in store (R305), mnop does nothing; then the entry completes. -/
def Obligations.TilesAreLoadedAndMoved : Prop :=
  ∀ (s : State) (a b sh : BitVec 3) (k : BitVec 1),
    let e := s.entry 1
    let f := shFMT e.shape
    let w := fmtBits f
    let K := shKPAD e.shape
    let base := e.capa.toNat % 2 ^ 22
    let loads (i : Instr) (tr : Bool) (G R : Nat) : Prop :=
      let per := if tr then R else K
      let total := (R * K * w + 7) / 8
      let code (bs : List Byte) (j n : Nat) : Nat := getBits (streamOf bs) w (if tr then n * R + j else j * K + n)
      let as := (List.range total).map fun o => base + (if k = 1 then skewed (per * w / 8 / 64) o else o)
      (∀ bs u, e.lqClaim = none → blockCode f = false → s.padRead 1 as = .ok bs u →
        exec i s = .next (u.matDone (u.me.mat.setTile a.toNat { (u.me.mat.tile a.toNat).load e.shape G (code bs) with tr := tr }))) ∧
      (∀ bs sc u v, e.lqClaim = none → blockCode f = true → s.padRead 1 as = .ok bs u →
        u.padRead 1 (span (base + up64 total) (R * K / blockG f)) = .ok sc v →
        exec i s = .next (v.matDone (v.me.mat.setTile a.toNat
          { ((v.me.mat.tile a.toNat).load e.shape G (code bs)).loadScales e.shape G (fun i => sc.getD i 0) with tr := tr }))) ∧
      (∀ first n bs u, e.lqClaim = some (first, n) → blockCode f = false → s.claimBytes (e.capa.fld 0 2) first n = .ok bs u →
        exec i s = .next ((u.setMe (u.me.takeClaim (e.capa.fld 0 2) first n)).matDone
          (u.me.mat.setTile a.toNat { (u.me.mat.tile a.toNat).load e.shape G (code bs) with tr := tr })))
    loads (.mld a sh k) false (shMGR e.shape) (shMPAD e.shape) ∧ loads (.mldt a sh k) true (shMGR e.shape) (shMPAD e.shape) ∧
    loads (.mwld a sh k) false (shNGR e.shape) (shNPAD e.shape) ∧ loads (.mwldt a sh k) true (shNGR e.shape) (shNPAD e.shape) ∧
    (s.Healthy 5 → ∃ v, exec (.mmov a b sh) s = .next (s.matDone v) ∧ v.slots = s.me.mat.slots ∧ v.tile a.toNat = s.me.mat.tile b.toNat ∧
      ∀ i : Fin 8, i.val ≠ a.toNat → v.tiles[i] = s.me.mat.tiles[i]) ∧
    (s.Healthy 5 → ∃ v, exec (.mtr a b sh) s = .next (s.matDone v) ∧ v.slots = s.me.mat.slots ∧
      v.tile a.toNat = { (s.me.mat.tile a.toNat).load e.shape (shMGR e.shape)
        (fun m n => getBits (s.me.mat.tile b.toNat).elems w (n * shMPAD e.shape + m)) with tr := true } ∧
      ∀ i : Fin 8, i.val ≠ a.toNat → v.tiles[i] = s.me.mat.tiles[i]) ∧
    exec .mnop s = .next (s.entryDone 1)

/-- R189, R190: a multiply gives each granted element the sum of its products over the granted K, an accumulating one adds it to the
old element, the pass count becomes 1 or steps, and a checked one keeps row and column checksums with CKV; nothing else changes and
the entry completes. -/
def Obligations.MultipliesSumTheProducts : Prop :=
  ∀ (s : State) (a b c sh : BitVec 3) (k : BitVec 1), s.Healthy 3 → s.Healthy 5 → shNGR (s.entry 1).shape ≤ 64 →
    (∀ z, s.me.mat.frozen = some z → z.seq ≠ (s.entry 1).seq) →
    let shape := (s.entry 1).shape
    let u := s.me.mat
    let old := u.slot c.toNat
    let sum (m n : Nat) : Nat := sumOf (products (u.tile a.toNat) (u.tile b.toNat) shape m n)
    (∃ v, exec (.mmulOvw a b c sh k) s = .next (s.matDone v) ∧ SlotTakes u v shape c.toNat sum ∧ v.frozen = none ∧
      v.weights = some (Fin.ofNat 8 b.toNat) ∧ (v.slot c.toNat).pass = 1 ∧ (v.slot c.toNat).ckv = decide (k = 1) ∧
      (v.slot c.toNat).nan = false ∧ (v.slot c.toNat).inf = false ∧ (v.slot c.toNat).ovf = false ∧
      (k = 1 → ∀ m, m < shMGR shape → Tab.getD (v.slot c.toNat).rows m 0 =
        BitVec.ofNat 32 (sumOf ((List.range (shNGR shape)).flatMap fun n => products (u.tile a.toNat) (u.tile b.toNat) shape m n))) ∧
      (k = 1 → ∀ n, n < shNGR shape → Tab.getD (v.slot c.toNat).cols n 0 =
        BitVec.ofNat 32 (sumOf ((List.range (shMGR shape)).flatMap fun m => products (u.tile a.toNat) (u.tile b.toNat) shape m n)))) ∧
    (∃ v, exec (.mmulAcc a b c sh k) s = .next (s.matDone v) ∧
      SlotTakes u v shape c.toNat (fun m n => addF 0 (old.at_ m n) (sum m n)) ∧ v.frozen = none ∧
      v.weights = some (Fin.ofNat 8 b.toNat) ∧ (v.slot c.toNat).pass = old.pass + 1 ∧
      (v.slot c.toNat).ckv = (decide (k = 1) && old.ckv) ∧
      (v.slot c.toNat).nan = old.nan ∧ (v.slot c.toNat).inf = old.inf ∧ (v.slot c.toNat).ovf = old.ovf)

/-- R192 to R194, R241: a ganged multiply runs its own part and sends one to every other member; a part that arrives takes its place
in the member's matrix order, and one whose turn has come runs on the member's matrix unit and is noted done with the issuer; once
all are done the completion counts in GC of the barrier on every member, once however often a replay executes the entry, and the entry
completes. -/
def Obligations.GangedMultipliesRunOnEveryMember : Prop :=
  ∀ (s u : State) (a b c sh g h : BitVec 3) (n : BitVec 7) (k : BitVec 1), s.Healthy 3 → s.Healthy 5 → s.cur < 144 * 256 →
    let e := s.entry 1
    let me := s.me.slcore
    let issue (i : Instr) (acc : Bool) : Prop :=
      ∀ x v, (s.ring 1).queue ≠ [] →
        (e.gang.done.has me = false ∧
          (s.me.mat.begin acc c.toNat).multiply acc (k == 1) a.toNat b.toNat c.toNat e.shape none = .ok v ∧
          x = ((s.setMe { s.me with mat := s.me.mat.begin acc c.toNat }).setMe { s.me with mat := v }).setEntry 1
            { e with gang := { e.gang with done := e.gang.done.add me } }) ∨
        (e.gang.done.has me = true ∧ x = s) →
        ((∀ m ∈ e.gang.members, (x.entry 1).gang.done.has m = true) →
          (e.raised = true → exec i s = .next (x.sendParts.entryDone 1)) ∧
          (e.raised = false → exec i s = .next (((e.gang.members.filterMap fun m => x.me.slice.bind fun sk => x.sendParts.sliceCoreKey sk m).foldl
            (fun t ck => t.gangComplete n.toNat ck) x.sendParts).entryDone 1))) ∧
        ((∃ m ∈ e.gang.members, (x.entry 1).gang.done.has m = false) →
          exec i s = .next (if 1 < (x.sendParts.ring 1).queue.length then x.sendParts.wake (.ring s.cur 1) else x.sendParts) ∧
            x.sendParts.me.mat = x.me.mat ∧ (x.sendParts.entry 1).gang.done = (x.entry 1).gang.done ∧
            x.sendParts.mem = s.mem ∧
            ∀ m ∈ e.gang.members, (x.entry 1).gang.done.has m = false → e.gang.sent.has m = false →
              .event (.gangPartArrive (ckNode s.cur) (ckCore s.cur) m) ∈ x.sendParts.agenda)
    issue (.mgangOvw a b c sh g h n k) false ∧ issue (.mgangAcc a b c sh g h n k) true ∧
    (∀ node core member mk, u.cur = node * 256 + core → core < 256 → (u.me.slice.bind fun sk => u.sliceCoreKey sk member) = some mk →
      let p := (u.entry 1)
      let m := u.core mk
      (p.gang.members.has member = true → p.gang.done.has member = false → m.run ≠ .idle → m.slice = u.me.slice →
        Tab.getD p.gang.ids member 0 = m.thread →
        ∃ t, exec (.gangPartArrive node core member) u = .next t ∧
          (t.core mk).mat.parts = m.mat.parts ++ [{ issuer := u.cur, seq := p.seq, word := p.word, shape := p.shape, after := m.mring.wp }] ∧
          .event (.gangPartCommit node core member) ∈ t.agenda ∧ t.mem = u.mem) ∧
      (∀ q v, mk ≠ u.cur → m.mat.parts.find? (fun q => q.issuer == u.cur) = some q → m.partWaits q = false → m.upsets = [] →
        (u.ring 1).queue ≠ [] →
        let acc := q.word.fld 27 5 == 0x08
        (m.mat.begin acc (q.word.fld 18 3)).multiply acc (q.word.fld 0 1 == 1) (q.word.fld 24 3) (q.word.fld 21 3) (q.word.fld 18 3) q.shape none
          = .ok v →
        ∃ t, exec (.gangPartCommit node core member) u = .next t ∧
          (t.core mk).mat = { v with parts := m.mat.parts.filter fun r => r.issuer != u.cur } ∧
          (t.entry 1).gang.done = p.gang.done.add member ∧ t.mem = u.mem))

/-- R195 to R198: the epilogue forms give each granted element of the slot the function of it that their rule gives, set NAN, INF and
OVF by what they read and wrote (R95), and clear the pass count and CKV; mzero sets the elements to +0 with CKV; then the entry
completes. -/
def Obligations.EpiloguesWriteTheSlot : Prop :=
  ∀ (s : State) (b c sh : BitVec 3) (t : BitVec 1) (r : BitVec 2) (f : BitVec 5) (x : BitVec 4), s.Healthy 3 →
    shNGR (s.entry 1).shape ≤ 64 →
    let e := s.entry 1
    let shape := e.shape
    let at_ (m n : Nat) : Nat := (s.me.mat.slot c.toNat).at_ m n
    let olds := (granted shape).map fun p => at_ p.1 p.2
    let base := e.capa.toNat % 2 ^ 22
    let other := s.me.mat.slot b.toNat
    EpilogueDone s (exec (.macc b c sh) s) c.toNat (fun m n => addF 0 (at_ m n) (other.at_ m n))
      (olds ++ (granted shape).map fun p => other.at_ p.1 p.2) false ∧
    EpilogueDone s (exec (.mescale c sh) s) c.toNat (fun m n => mulF 0 (at_ m n) (e.capa.toNat % 2 ^ 32)) olds false ∧
    EpilogueDone s (exec (.meact c sh x) s) c.toNat (fun m n => actF x.toNat (at_ m n)) olds false ∧
    EpilogueDone s (exec (.meclamp c sh) s) c.toNat (fun m n => clampF (e.capa.toNat % 2 ^ 32) (e.capb.toNat % 2 ^ 32) (at_ m n)) olds false ∧
    (let fm := (fmtOf f.toNat).getD f32
     let conv (m n : Nat) := fm.convert r.toNat (t == 1) (v32 (at_ m n))
     EpilogueDone s (exec (.mecvt c sh t r f) s) c.toNat (fun m n => f32.round 0 (fm.value (conv m n).1)) olds
      ((granted shape).any fun p => (conv p.1 p.2).2)) ∧
    (∀ bs, s.padRead 1 (span base (4 * shNGR shape)) = .ok bs s →
      EpilogueDone s (exec (.mescv c sh) s) c.toNat (fun m n => mulF 0 (at_ m n) ((unpackBytes 32 (shNGR shape) bs).getD n 0)) olds false ∧
      EpilogueDone s (exec (.mebias c sh) s) c.toNat (fun m n => addF 0 (at_ m n) ((unpackBytes 32 (shNGR shape) bs).getD n 0)) olds false) ∧
    (∀ bs, s.padRead 1 ((granted shape).flatMap fun p => span (base + 4 * (p.1 * shNPAD shape + p.2)) 4) = .ok bs s →
      EpilogueDone s (exec (.mldacc c sh) s) c.toNat
        (fun m n => (unpackBytes 32 (shMGR shape * shNGR shape) bs).getD (m * shNGR shape + n) 0) [] false) ∧
    (∃ v, exec (.mzero c sh) s = .next (s.matDone v) ∧ SlotTakes s.me.mat v shape c.toNat (fun _ _ => 0) ∧
      (v.slot c.toNat).pass = 0 ∧ (v.slot c.toNat).ckv = true ∧ (v.slot c.toNat).rows = [] ∧ (v.slot c.toNat).cols = [] ∧
      (v.slot c.toNat).nan = false ∧ (v.slot c.toNat).inf = false ∧ (v.slot c.toNat).ovf = false)

/-- R183, R186, R197, R198, R200: mst, mstn, msnap and mstt write the granted elements at the captured address, in the layout of their
rule, and no other byte of memory outside the control regions; mstn writes nothing where NAN is set; then the entry completes. -/
def Obligations.TileStoresWriteTheirElements : Prop :=
  ∀ (s : State) (a c sh : BitVec 3) (t : BitVec 1) (r : BitVec 2) (f : BitVec 5),
    let e := s.entry 1
    let shape := e.shape
    let base := e.capa.toNat % 2 ^ 22
    let old := s.me.mat.slot c.toNat
    let seen := old.examine s.clock ((granted shape).map fun p => old.at_ p.1 p.2)
    let img := storeImage old shape f.toNat r.toNat (t == 1)
    let MN := shMPAD shape * shNPAD shape
    (∀ u, s.streamWrite base (fmtBits f.toNat) img.1 img.2.1 = .ok () u →
      exec (.mst c sh t r f) s = .next (u.matDone (u.me.mat.setSlot c.toNat (seen.overflowed u.clock img.2.2))) ∧
      (seen.nan = false →
        exec (.mstn c sh t r f) s = .next (u.matDone (u.me.mat.setSlot c.toNat (seen.overflowed u.clock img.2.2))))) ∧
    (seen.nan = true → exec (.mstn c sh t r f) s = .next (s.matDone (s.me.mat.setSlot c.toNat seen))) ∧
    (∀ u, s.streamWrite base 32
        ((granted shape).map (fun p => (p.1 * shNPAD shape + p.2, seen.at_ p.1 p.2)) ++
          (List.range (shMGR shape)).map (fun m => (MN + m, (Tab.getD seen.rows m 0).toNat)) ++
          (List.range (shNGR shape)).map fun n => (MN + shMPAD shape + n, (Tab.getD seen.cols n 0).toNat))
        ((List.range 64).zip (wordBytes seen.pass ++ wordBytes seen.status ++ wordBytes (BitVec.ofNat 64 seen.ckv.toNat) ++
          List.replicate 40 0) |>.map fun x => (snapBytes shape - 64 + x.1, x.2)) = .ok () u →
      exec (.msnap c sh) s = .next (u.matDone (u.me.mat.setSlot c.toNat seen))) ∧
    (let fm := shFMT shape
     let K := shKPAD shape
     let tile := s.me.mat.tile a.toNat
     let els := (List.range (shMGR shape)).flatMap fun j => (List.range (shKGR shape)).map fun k =>
       (j * K + k, getBits tile.elems (fmtBits fm) (j * K + k))
     (∀ u, s.Healthy 5 → blockCode fm = false → s.streamWrite base (fmtBits fm) els [] = .ok () u → exec (.mstt a sh) s = .next (u.entryDone 1)) ∧
     (∀ u, s.Healthy 5 → blockCode fm = true →
       s.streamWrite base (fmtBits fm) els ((List.range (shMGR shape)).flatMap fun j =>
         (List.range ((shKGR shape + blockG fm - 1) / blockG fm)).map fun i =>
           (up64 (shMPAD shape * K * fmtBits fm / 8) + j * (K / blockG fm) + i, tile.scales.get (j * (K / blockG fm) + i))) = .ok () u →
       exec (.mstt a sh) s = .next (u.entryDone 1))) ∧
    (∀ (o w : Nat) (els : List (Nat × Nat)) (u : State), w = 8 ∨ w = 16 ∨ w = 32 → els.Pairwise (fun x y => x.1 ≠ y.1) →
      (∀ x ∈ els, o + (x.1 + 1) * (w / 8) ≤ padSize) → s.Inv → s.enc = [] → s.cur < 144 * 256 → ckCore s.cur < 144 →
      s.streamWrite o w els [] = .ok () u →
      (∀ x ∈ els, u.mem.read (padBase s.cur + o + x.1 * (w / 8)) (w / 8) = leBytes (w / 8) x.2) ∧
      ∀ p, (∀ m q, region p ≠ .control m q) →
        (∀ x ∈ els, ¬(padBase s.cur + o + x.1 * (w / 8) ≤ p ∧ p < padBase s.cur + o + (x.1 + 1) * (w / 8))) → u.mem.get p = s.mem.get p)

/-! ### The copy engine -/

/-- R202, R207, R208, R217: the loads and stores between global memory and the own scratchpad complete once every page is translated
and every line moved: raw formats byte for byte, block frames as images, rows of a rectangle each to its place. A range within one
line moves exactly its bytes. A misaligned frame range parks with 0x66. -/
def Obligations.CopiesMoveTheirRanges : Prop :=
  ∀ (s : State) (q r fo : BitVec 1) (sc : BitVec 3) (x : BitVec 20),
    let e := s.entry 2
    let va := e.capa.toNat
    let n := e.capb.toNat
    let X := fieldAddr x
    let load (i : Instr) (sw : Bool) : Prop :=
      ∀ l u f, s.segs 2 .read va n (segFuel n) sw = .ok l u → l ≠ [] → (∀ g ∈ l, g.pg.fmt = f) →
        let a := u.copyAcquire q sc (allLines l).head?
        (∀ v, blockCode f = false → a.moveIn 2 l (fun o => X + o) va = .ok () v → exec i s = .next (v.copyDone r sc (v.padLast X n))) ∧
        (∀ bs b v, blockCode f = true → va % 4096 = 0 → n % 4096 = 0 → State.gather 2 (allLines l) a = .ok bs b →
          b.padWrite 2 (span X (frameToImage f bs).length) (frameToImage f bs) = .ok () v →
          exec i s = .next (v.copyDone r sc (v.padLast X (imageLen f (n / 4096))))) ∧
        (blockCode f = true → va % 4096 ≠ 0 ∨ n % 4096 ≠ 0 → exec i s = .next (a.park 2 0x66 (BitVec.ofNat 64 va) 0))
    let store (i : Instr) (sw : Bool) : Prop :=
      let a := s.copyAcquire q sc (s.padSeg X n)
      ∀ l u f, a.segs 2 .write va n (segFuel n) sw = .ok l u → l ≠ [] → (∀ g ∈ l, g.pg.fmt = f) →
        (∀ v, blockCode f = false → u.moveOut 2 l (fun o => X + o) va = .ok () v → exec i s = .next (v.copyDone r sc (lastPa l))) ∧
        (∀ img b v, blockCode f = true → va % 4096 = 0 → n % 4096 = 0 → u.padRead 2 (span X (imageLen f (n / 4096))) = .ok img b →
          State.scatter 2 (allLines l) (imageToFrame f (n / 4096) img) b = .ok () v → exec i s = .next (v.copyDone r sc (lastPa l))) ∧
        (blockCode f = true → va % 4096 ≠ 0 ∨ n % 4096 ≠ 0 → exec i s = .next (u.park 2 0x66 (BitVec.ofNat 64 va) 0))
    let rb := rowBytesOf e.capb
    let rows := rowsOf e.capb
    load (.cldHbm q r sc fo x) false ∧ load (.cldSw q r sc fo x) true ∧
    store (.cstHbm q r sc x) false ∧ store (.cstSw q r sc x) true ∧
    (∀ σ : Nat → State, σ 0 = s →
      (∀ j, j < rows → (σ j).rowIn 2 (va + j * pitchOf e.capb) rb X j (skewOf e.capb)
        (fun s l => if j = 0 then s.copyAcquire q sc l.head? else s) = .ok () (σ (j + 1))) →
      exec (.cld2d q r sc fo x) s = .next ((σ rows).copyDone r sc ((σ rows).padLast X (rows * rb)))) ∧
    (∀ (σ : Nat → State) (pg : Page) (v : State), σ 0 = s.copyAcquire q sc (s.padSeg X (rows * rb)) →
      (∀ j, j < rows → ∃ l u, (σ j).segs 2 .write (va + j * pitchOf e.capb) rb (segFuel rb) = .ok l u ∧
        (∀ g ∈ l, blockCode g.pg.fmt = false ∧ g.pg.fmt ≠ 0x06) ∧
        u.moveOut 2 l (fun o => rectPlace (skewOf e.capb) rb X (j * rb + o)) (va + j * pitchOf e.capb) = .ok () (σ (j + 1))) →
      (σ rows).translate (σ rows).cur (BitVec.ofNat 64 (va + (rows - 1) * pitchOf e.capb + rb - 1)) .write = .ok pg v →
      exec (.cst2d q r sc x) s = .next (v.copyDone r sc (some pg.pa))) ∧
    (∀ pg : Page, 0 < n → va % 64 + n ≤ 64 → va < 0xF00000000000 → n ≤ pg.left → pg.fmt = 0 → pg.enc = false → s.enc = [] → s.Inv →
      s.cur < 144 * 256 → X + n ≤ padSize → s.padRace (span X n) = none → (s.ring 2).queue ≠ [] → e.raisek = 0 →
      (s.translate s.cur e.capa .read = .ok pg s → PlainAccess s pg n 0 →
        ∃ t, exec (.cldHbm 0 0 sc fo x) s = .next t ∧ t.mem.read (padBase s.cur + X) n = s.mem.read pg.pa n ∧
          (t.ring 2).queue = (s.ring 2).queue.tail ∧ t.me.s = s.me.s ∧
          ∀ p, (∀ m o, region p ≠ .control m o) → ¬(padBase s.cur + X ≤ p ∧ p < padBase s.cur + X + n) → t.mem.get p = s.mem.get p) ∧
      (s.translate s.cur e.capa .write = .ok pg s → PlainAccess s pg n 1 →
        ∃ t, exec (.cstHbm 0 0 sc x) s = .next t ∧ t.mem.read pg.pa n = s.mem.read (padBase s.cur + X) n ∧
          (t.ring 2).queue = (s.ring 2).queue.tail ∧ t.me.s = s.me.s ∧
          ∀ p, (∀ m o, region p ≠ .control m o) → ¬(pg.pa ≤ p ∧ p < pg.pa + n) → t.mem.get p = s.mem.get p))

/-- R209, R210, R213: ccpy moves its lines in order, ccvt writes the frames of its values in the target format, cgat and csct move the
elements that their list names, all ones being skipped, and a batch atomic performs its records in order from the progress on;
then the entry completes. That a gather or a scatter keeps the element width of the page it begins in, whatever the width of the page that
an index reaches, is the model's reading (log entry 91). -/
def Obligations.CopiesWorkThroughTheirLists : Prop :=
  ∀ (s : State) (q r fo : BitVec 1) (sc : BitVec 3) (x : BitVec 20),
    let e := s.entry 2
    let va := e.capa.toNat
    let src := e.capb.toNat
    let X := fieldAddr x
    let n := e.capb.fld 32 20
    let L := e.capb.fld 0 22
    (∀ a b u (σ : Nat → State), s.pairFmt src va (64 * x.toNat) = .ok (a, b) u → σ 0 = u.copyAcquire q sc (allLines a).head? →
      (∀ j, j < x.toNat → ∃ bs w, (σ j).rangeRead 2 (src + 64 * j) 64 = .ok bs w ∧ w.rangeWrite 2 .write (va + 64 * j) bs = .ok () (σ (j + 1))) →
      exec (.ccpy q r sc x) s = .next ((σ x.toNat).copyDone r sc (lastPa b))) ∧
    (let N := x.fld 8 12
     let T := x.fld 0 5
     ∀ a u f b v bs w z, s.segs 2 .read src (4096 * N) (segFuel (4096 * N)) = .ok a u → a ≠ [] → (∀ g ∈ a, g.pg.fmt = f) → ccvtCode f = true →
      let out := (N * perFrame f + perFrame T - 1) / perFrame T * 4096
      u.segs 2 .write va out (segFuel out) = .ok b v → (∀ g ∈ b, g.pg.fmt = T) →
      State.gather 2 (allLines a) (v.copyAcquire q sc (allLines a).head?) = .ok bs w → w.Healthy 4 →
      State.scatter 2 (allLines b) (toFrames T (x.fld 5 2) (x.fld 7 1 == 1) (frameValues f bs)) w = .ok () z →
      exec (.ccvt q r sc x) s = .next (z.copyDone r sc (lastPa b))) ∧
    (let a := s.copyAcquire q sc (s.padSeg L (4 * n))
     ∀ lst w u v (σ : Nat → State), a.padRead 2 (span L (4 * n)) = .ok lst u →
      let idx (j : Nat) : Nat := (unpackBytes 32 n lst).getD j 0
      (u.elemBytes .read va = .ok w v → σ 0 = v →
        (∀ j, j < n →
          (idx j = 0xFFFFFFFF → (σ j).padWrite 2 (span (X + j * w) w) (List.replicate w 0) = .ok () (σ (j + 1))) ∧
          (idx j ≠ 0xFFFFFFFF → inWindow (va + idx j * w) = false ∧ ∃ b1 z1 bs z2, (σ j).elemBytes .read (va + idx j * w) = .ok b1 z1 ∧
            z1.rangeRead 2 (va + idx j * w) w = .ok bs z2 ∧ z2.padWrite 2 (span (X + j * w) w) bs = .ok () (σ (j + 1)))) →
        exec (.cgat q r sc fo x) s = .next ((σ n).copyDone r sc ((σ n).padLast X (n * w)))) ∧
      (u.elemBytes .write va = .ok w v → σ 0 = v →
        (∀ j, j < n →
          (idx j = 0xFFFFFFFF → σ (j + 1) = σ j) ∧
          (idx j ≠ 0xFFFFFFFF → inWindow (va + idx j * w) = false ∧ ∃ b1 z1 bs z2, (σ j).elemBytes .write (va + idx j * w) = .ok b1 z1 ∧
            z1.padRead 2 (span (X + j * w) w) = .ok bs z2 ∧ z2.rangeWrite 2 .write (va + idx j * w) bs = .ok () (σ (j + 1)))) →
        ((∀ j, j < n → idx j = 0xFFFFFFFF) → exec (.csct q r sc x) s = .next ((σ n).copyDone r sc none)) ∧
        (∀ k pg z, k < n → idx k ≠ 0xFFFFFFFF → (∀ j, k < j → j < n → idx j = 0xFFFFFFFF) →
          (σ n).translate (σ n).cur (BitVec.ofNat 64 (va + idx k * w)) .write = .ok pg z →
          exec (.csct q r sc x) s = .next (z.copyDone r sc (some (pg.pa + w - 1)))))) ∧
    (let N := e.capb.toNat
     let p := (s.ring 2).prog.pos
     let batch (i : Instr) (op : Nat) : Prop :=
       ∀ σ : Nat → State, σ 0 = s.copyAcquire q sc (s.padSeg X (16 * N)) → p ≤ N →
         (∀ j, j < N - p → ((σ j).ring 2).prog.pos = p + j ∧ ∃ u, (σ j).batchOne op X (p + j) = .ok () u ∧
           σ (j + 1) = u.setRing 2 { u.ring 2 with prog := { (u.ring 2).prog with pos := p + j + 1 } }) →
         exec i s = .next ((σ (N - p)).copyDone r sc ((σ (N - p)).padLast X (16 * N)))
     batch (.cbatAdd q r sc x) 0 ∧ batch (.cbatMin q r sc x) 1 ∧ batch (.cbatMax q r sc x) 2 ∧ batch (.cbatOr q r sc x) 3 ∧
       batch (.cbatXchg q r sc x) 4)

/-- R202, R205, R210 to R212: cfill writes the value in each page's element width, cfill.sp repeats a word, cmov.sp and cmst copy
scratchpad bytes to the own and to every member's scratchpad, ctag sets or clears tags, csig adds or stores a word, and cpref, cfence
and cnop change nothing; a copy entry that ends releases its follow-on and completes. -/
def Obligations.CopiesFillTagAndSignal : Prop :=
  ∀ (s : State) (q r fo : BitVec 1) (sc : BitVec 3) (x : BitVec 20) (k : BitVec 2),
    let e := s.entry 2
    let va := e.capa.toNat
    let n := e.capb.toNat
    let X := fieldAddr x
    let src := e.capa.fld 0 22
    (∀ l u v, s.segs 2 .write va (64 * x.toNat) (segFuel (64 * x.toNat)) = .ok l u →
      (∀ g ∈ l, g.pg.fmt ≠ 0 ∧ blockCode g.pg.fmt = false) →
      State.each (fun g t => t.lineWrite 2 g (fillBytes (fmtBits g.pg.fmt) e.capb g.len)) (allLines l) u = .ok () v →
      exec (.cfill q r sc x) s = .next (v.copyDone r sc (lastPa l))) ∧
    (∀ u, s.padWrite 2 (span X n) ((List.replicate (n / 8) (wordBytes e.capa)).flatten) = .ok () u →
      exec (.cfillSp q r sc x) s = .next (u.copyDone r sc (u.padLast X n)) ∧
      (n % 8 = 0 → X + n ≤ padSize → s.Inv → s.enc = [] → s.cur < 144 * 256 → ∀ j, j < n / 8 → u.word (padBase s.cur + X + 8 * j) = e.capa)) ∧
    (let a := s.copyAcquire q sc (s.padSeg src n)
     ∀ bs u v, a.padRead 2 (span src n) = .ok bs u → u.padWrite 2 (span X n) bs = .ok () v →
      exec (.cmovSp q r sc fo x) s = .next (v.copyDone r sc (v.padLast X n)) ∧
      (s.Inv → s.enc = [] → s.soft = [] → q = 0 → X + n ≤ padSize → s.cur < 144 * 256 →
        v.mem.read (padBase s.cur + X) n = s.mem.read (padBase s.cur + src) n)) ∧
    (let a := s.copyAcquire q sc (s.padSeg X n)
     let keys := e.group.filterMap fun m => s.me.slice.bind fun sk => s.sliceCoreKey sk m
     ∀ bs u v, a.padRead 2 (span X n) = .ok bs u →
      State.each (fun mk t => t.windowWrite mk src bs) keys u = .ok () v →
      exec (.cmst q r sc x) s = .next (v.copyDone r sc (keys.getLast?.map fun mk => padBase mk + src + n - 1))) ∧
    (s.tagQ = [] → s.Inv →
      ∃ t : State, exec (.ctag q r sc x) s = .next (t.copyDone r sc (s.padLast X n)) ∧ t = { s with tags := t.tags } ∧
        ∀ w, t.tags.has w = if (padBase s.cur + X) / 8 ≤ w ∧ w < (padBase s.cur + X) / 8 + n / 8 then decide (e.capa.fld 0 1 = 1) else s.tags.has w) ∧
    (∀ pg u old v, s.engPage 2 va .atomic = .ok pg u →
      let a := u.copyAcquire q sc (some { va := va, len := 8, pg := pg })
      let b := if pg.pa / 2 ^ 48 = a.node then a else (a.nextIndex a.cur 3 (pg.pa / 2 ^ 48)).2
      engAcc 2 va pg.pa (b.atomicAt b.cur pg (· + e.capb)) = .ok old v →
      exec (.csig q r sc 0) s = .next (v.copyDone r sc (some (pg.pa + 7)))) ∧
    (∀ pg u v, k ≠ 0 → s.engPage 2 va .write = .ok pg u → u.lineWrite 2 { va := va, len := 8, pg := pg } (wordBytes e.capb) = .ok () v →
      exec (.csig q r sc k) s = .next (v.copyDone r sc (some (pg.pa + 7)))) ∧
    (∀ σ : Nat → State, σ 0 = s →
      (∀ i, i < 64 * x.toNat / 65536 + 1 →
        let look := (σ i).translate (σ i).cur (e.capa + BitVec.ofNat 64 (65536 * i)) .read
        (∃ pg, look = .ok pg (σ (i + 1))) ∨ ((∀ pg z, look ≠ .ok pg z) ∧ σ (i + 1) = σ i)) →
      exec (.cpref q r sc x) s = .next ((σ (64 * x.toNat / 65536 + 1)).copyDone r sc none)) ∧
    exec (.cfence q r sc) s = .next (s.copyDone r sc none) ∧ exec .cnop s = .next (s.copyDone 0 0 none) ∧
    (∀ (f : Entry) (l : List Entry) (last : Option Nat), (s.ring 1).queue = f :: l → f.held = true → f.seq = e.seq + 1 → e.raisek = 0 →
      ((s.copyDone 0 sc last).ring 1).queue.head? = some { f with held := false } ∧ (s.copyDone 0 sc last).mem = s.mem ∧
      ((s.copyDone 0 sc last).ring 2).queue = (s.ring 2).queue.tail)

/-! ### Sketches, reductions, transfers -/

/-- R221 to R228: each csk form takes LOCK, reads the descriptor (a broken one parks with 0xC0), does its work part by part and ends with
its result word and the LOCK given back; csk.send checks the peer's room first (0xCB), csk.xchg and csk.peel the header (0xC7), csk.rsz
its bounds (0xC2) and rounds (0xC6). -/
def Obligations.SketchFormsRunUnderLock : Prop :=
  ∀ (s : State) (q r b : BitVec 1) (sc : BitVec 3),
    let e := s.entry 2
    let under (i : Instr) (init : Bool) (body : SetDesc → State → Res (Option Nat)) : Prop :=
      ∀ u, (s.descAcquire q sc).takeLock e.capa.toNat = .ok () u →
        (∀ v, u.readSet init = .stop v → exec i s = .next v) ∧
        ∀ d v last w, u.readSet init = .ok d v → body d v = .ok last w → exec i s = .next (w.copyDone r sc last)
    let n := e.capb.fld 32 20
    let from_ := e.capb.fld 0 22
    let c := s.me.skCells.fld 0 18
    let grow := s.me.skGrow.fld 0 4
    (c % 3 = 0 → 3 ≤ c → c ≤ 196605 → under (.cskInit q r sc b) true fun d v =>
      if d.skmax < c then .stop (v.park 2 0xC2 (BitVec.ofNat 64 c) 0)
      else ((v.setProg fun p => { p with pos := 0, n := 0 }).zeroHeader d).then_ fun _ x =>
        (if b = 1 then x.clearSlots d 0 d.cap else .ok () x).then_ fun _ x =>
          (x.rebuild d c (c + d.cap + 1)).then_ fun _ x => x.setDone d 0x1E 0 x.prog.n 0 c 0 0 none) ∧
    (c % 3 ≠ 0 ∨ c < 3 ∨ 196605 < c → exec (.cskInit q r sc b) s = .next (s.park 2 0xC1 0x050 0)) ∧
    under (.cskIns q r sc) false (fun d v =>
      if ringRegion < from_ + n * d.esize then .stop (v.park 2 0x82 (BitVec.ofNat 64 (max from_ ringRegion)) 0)
      else (v.padRead 2 (span from_ (n * d.esize))).then_ fun bs x =>
        (x.setEach (fun z t => t.setInsert d z) 0 (pieces d.esize n bs)).then_ fun k x =>
          x.setDone d 0x1F 0 k (n - k) d.c d.round d.nout none) ∧
    under (.cskDel q r sc) false (fun d v => (v.padRead 2 (span from_ (8 * n))).then_ fun bs x =>
      (x.setEach (fun z t => t.setDelete d (bytesWord z)) 0 (pieces 8 n bs)).then_ fun k x =>
        x.setDone d 0x20 0 k (n - k) d.c d.round d.nout none) ∧
    under (.cskXchg q r sc) false (fun d v => (v.readHeader d).then_ fun h x =>
      if x.prog.pos = 0 ∧ ¬(hdrValid h = true ∧ hdrDiff h = false ∧ h.fld 0 18 = d.c ∧ h.fld 20 4 = d.round) then .stop (x.park 2 0xC7 h 0)
      else (x.subtract d (d.c + 1)).then_ fun _ x =>
        (x.putAll [(.write, d.rx, wordBytes (h ||| BitVec.ofNat 64 (2 ^ 25)))]).then_ fun _ x =>
          x.setDone d 0x22 0 0 0 d.c d.round d.nout none) ∧
    under (.cskPeel q r sc) false (fun d v => (v.readHeader d).then_ fun h x =>
      if hdrDiff h = false then .stop (x.park 2 0xC7 h 0)
      else (x.peel d ((d.outcap + 2) * (d.c + 1))).then_ fun full x =>
        (x.cellsLeft d 0 (List.range d.c)).then_ fun left x =>
          let code := if full = 3 then 3 else if left = 0 then 0 else 1
          (x.putAll [(.write, d.rx, wordBytes (h &&& ~~~(BitVec.ofNat 64 (2 ^ 24))))]).then_ fun _ x =>
            x.setDone d 0x23 code x.prog.n left d.c d.round x.prog.n (if code = 3 then some 0xCC else if code = 1 then some 0xC5 else none)) ∧
    under (.cskFetch q r sc b) false (fun d v => (v.fetchAll d (b == 1) (d.nout + 1)).then_ fun _ x =>
      x.setDone d 0x24 0 x.prog.a x.prog.b d.c d.round d.nout none) ∧
    (s.prog.flag = false → grow < 2 → exec (.cskRsz q r sc) s = .next (s.park 2 0xC1 0x051 0)) ∧
    (s.prog.flag = true ∨ 2 ≤ grow → under (.cskRsz q r sc) false fun d v =>
      if v.prog.flag = true then (v.rebuild d d.c (d.c + d.cap + 1)).then_ fun _ x => x.setDone d 0x25 0 x.prog.n d.c d.c d.round d.nout none
      else if d.round = s.me.skRounds.fld 0 4 then v.setDone d 0x25 2 0 d.c d.c d.round d.nout (some 0xC6)
      else if d.skmax < d.c * grow ∨ 196605 < d.c * grow then .stop (v.park 2 0xC2 (BitVec.ofNat 64 (d.c * grow)) 0)
      else (v.allMay [(.write, d.at_ + 24, List.replicate 8 0)]).then_ fun _ x =>
        (x.zeroHeader d).then_ fun _ x =>
          (x.putAll [(.write, d.at_ + 24, wordBytes (d.word3 true (d.c * grow) (d.round + 1) d.nout))]).then_ fun _ x =>
            ((x.setProg fun p => { p with flag := true, pos := 0, n := 0 }).rebuild d (d.c * grow) (d.c * grow + d.cap + 1)).then_ fun _ x =>
              x.setDone d 0x25 0 x.prog.n (d.c * grow) (d.c * grow) (d.round + 1) d.nout none) ∧
    (∀ d u w1 v x1 d2 x2 bs x3 x4 x5 pg x6 x7 last z, (s.descAcquire q sc).readSet false = .ok d u → u.setWordAt (d.peerRx + 8) = .ok w1 v →
      (w1.fld 0 18 < d.c → exec (.cskSend q r sc) s = .next (v.park 2 0xCB (BitVec.ofNat 64 d.peerRx) 0)) ∧
      (d.c ≤ w1.fld 0 18 → v.takeLock d.at_ = .ok () x1 → x1.readSet false = .ok d2 x2 → x2.setRead d2.sketch (32 * d2.c) = .ok bs x3 →
        x3.giveLock d2 d2.c d2.round d2.nout = .ok () x4 → x4.putAll [(.write, d2.peerRx + 32, bs)] = .ok () x5 → inWindow d2.peerRx = false →
        x5.engPage 2 d2.peerRx .write = .ok pg x6 →
        x6.lineWrite 2 { va := d2.peerRx, len := 8, pg := pg } (wordBytes (header d2.c d2.round true false)) = .ok () x7 →
        ((x7.countRelease x7.cur).stamp x7.cur 3 pg.pa 8).setDone d2 0x21 0 0 0 d2.c d2.round d2.nout none = .ok last z →
        exec (.cskSend q r sc) s = .next (z.copyDone r sc last)))

/-- R222, R225, R228: a cell sums keys; an inserted entry goes to the slot that linear probing finds and its key into three cells, an
equal key changes nothing, a key that cannot be a member parks with 0xC3 and a full region with 0xC4. -/
def Obligations.SetsInsertAndDelete : Prop :=
  (∀ (x : Cell) (k : W64) (p : Bool), (x.add k p).add k (!p) = x) ∧
  (∀ c k, 3 ≤ c → c % 3 = 0 → ∀ i ∈ cellsOf c k, i < c) ∧ (∀ c k, 3 ≤ c → c % 3 = 0 → (cellsOf c k).Nodup) ∧
  (∀ k : W64, ((⟨0, 0, 0⟩ : Cell).add k true).pure = true ∧ ((⟨0, 0, 0⟩ : Cell).add k false).pure = true) ∧
  ∀ (s : State) (d : SetDesc) (en : List Byte),
    let k := bytesWord en
    (k = 0 ∨ k = BitVec.allOnes 64 → s.setInsert d en = .stop (s.park 2 0xC3 k 0) ∧ s.setDelete d k = .stop (s.park 2 0xC3 k 0)) ∧
    (k ≠ 0 → k ≠ BitVec.allOnes 64 → ∀ u,
      (∀ j, s.find d d.region k = .ok (true, j) u → s.setInsert d en = .ok false u) ∧
      (∀ j, s.find d d.region k = .ok (false, j) u → s.setDelete d k = .ok false u) ∧
      (s.find d d.region k = .ok (false, none) u → s.setInsert d en = .stop (u.park 2 0xC4 k 0)) ∧
      (∀ j l v w, s.find d d.region k = .ok (false, some j) u → u.addPuts d.sketch k true (cellsOf d.c k) = .ok l v →
        v.putAll ((.set, d.region + j * d.esize, en) :: l) = .ok () w → s.setInsert d en = .ok true w) ∧
      (∀ j l v w, s.find d d.region k = .ok (true, some j) u → u.addPuts d.sketch k false (cellsOf d.c k) = .ok l v →
        v.putAll ((.set, d.region + j * d.esize, List.replicate 8 (BitVec.allOnes 8) ++ List.replicate (d.esize - 8) 0) :: l) = .ok () w →
        s.setDelete d k = .ok true w))

/-- R218 to R220, R287: a reduction context is set up at its switch; a contribution joins the open round, is refused with 0xB3 to 0xB6, or
completes the round, which answers every waiting cldr.sw with the members' elements combined in member order; a round that outlasts
its TMO ends with STATE 1, one that is dropped with STATE 2; a cldr.sw whose round has ended writes its answer, be the allocation live or
lost. The model's own are the cycles of TMO's microseconds (log entry 16), and that an answer that has come is written without
translating its address again (log entry 28). -/
def Obligations.ReductionsCombineInMemberOrder : Prop :=
  ∀ (s : State) (q r fo : BitVec 1) (sc : BitVec 3) (x : BitVec 20) (sw off : Nat) (c : RedCtx),
    let e := s.entry 2
    let va := e.capa.toNat
    let X := fieldAddr x
    let line64 (sw off left : Nat) : Seg := { va := va, len := 64, pg := { pa := swPa sw off, left := left } }
    let here (cm : Bool) (b : W64) (bs : List Byte) : Except (Nat × Option Nat) State := s.redContribute sw off cm b bs
    ((s.switch sw).ctxs.get? off = some c → c.op < 3 →
      (∀ cm b bs, c.valid = false ∨ b.fld 16 16 ≠ c.n ∨ cm = true → here cm b bs = .error (0xB3, none)) ∧
      (∀ b bs, c.valid = true → b.fld 16 16 = c.n →
        (c.m ≤ b.fld 0 8 → here false b bs = .error (0xB4, some (b.fld 0 8))) ∧
        (b.fld 0 8 < c.m → b.fld 32 32 ≠ c.round → here false b bs = .error (0xB6, some (b.fld 32 32))) ∧
        (b.fld 0 8 < c.m → b.fld 32 32 = c.round → (c.parts.get? (b.fld 0 8)).isSome = true →
          here false b bs = .error (0xB5, some (b.fld 0 8))) ∧
        (b.fld 0 8 < c.m → b.fld 32 32 = c.round → c.parts.get? (b.fld 0 8) = none →
          ((∃ j, j < c.m ∧ j ≠ b.fld 0 8 ∧ c.parts.get? j = none) → ∃ t, here false b bs = .ok t ∧ t.mem = s.mem ∧
            ∃ c', (t.switch sw).ctxs.get? off = some c' ∧ c'.parts.get? (b.fld 0 8) = some bs ∧ c'.round = c.round ∧
              ∀ j, j ≠ b.fld 0 8 → c'.parts.get? j = c.parts.get? j) ∧
          ((∀ j, j < c.m → j ≠ b.fld 0 8 → c.parts.get? j ≠ none) → ∃ t, here false b bs = .ok t ∧ t.mem = s.mem ∧
            ∃ c' en, (t.switch sw).ctxs.get? off = some c' ∧ c'.parts = [] ∧ c'.round = (c.round + 1) % 2 ^ 32 ∧ c'.last = some en ∧
              en.round = c.round ∧ en.state = 0 ∧ en.result = ({ c with parts := c.parts.put (b.fld 0 8) bs } : RedCtx).result ∧
              ∀ ck ∈ c.waiters, (t.switch sw).answers.get? ck = some en.answer ∧ .ring ck 2 ∈ t.agenda)))) ∧
    (∀ node core form ctx b bs t, region ctx.toNat = .switch sw off → here form b bs = .ok t →
      exec (.reductionContribution node core form ctx b bs) s = .next t) ∧
    (∀ node core form ctx b bs f v, region ctx.toNat = .switch sw off → here form b bs = .error (f, v) →
      exec (.reductionContribution node core form ctx b bs) s =
        .next ({ s with cur := node * 256 + core }.park 2 f (BitVec.ofNat 64 (v.getD ctx.toNat)) 0)) ∧
    (∀ node core ctx b, region ctx.toNat = .switch sw off → (s.switch sw).answers.get? (node * 256 + core) = none →
      (s.switch sw).ctxs.get? off = some c → c.valid = true → b.fld 16 16 = c.n →
      (b.fld 32 32 = c.round → ∃ t, exec (.reductionLoad node core ctx b) s = .next t ∧ t.mem = s.mem ∧
        ∃ c', (t.switch sw).ctxs.get? off = some c' ∧ c'.waiters.has (node * 256 + core) = true) ∧
      (∀ en, c.last = some en → en.round = b.fld 32 32 → b.fld 32 32 ≠ c.round → ∃ t, exec (.reductionLoad node core ctx b) s = .next t ∧
        (t.switch sw).answers.get? (node * 256 + core) = some en.answer ∧ .ring (node * 256 + core) 2 ∈ t.agenda)) ∧
    ((s.switch sw).ctxs.get? off = some c → c.parts ≠ [] →
      (c.tmo * usCycles ≤ s.clock - c.start → ∃ t c' en, exec (.reductionRoundTimeout sw off) s = .next t ∧
        (t.switch sw).ctxs.get? off = some c' ∧ c'.last = some en ∧ en.state = 1 ∧ en.round = c.round ∧ c'.parts = [] ∧ c'.valid = c.valid ∧
        en.missing = (List.range c.m).filter fun i => (c.parts.get? i).isNone)) ∧
    (∀ cm i, i = (if cm = true then Instr.cmstSw q r sc x else Instr.credSw q r sc x) → ∀ a u bs v l w,
      s.redPlace va = .ok (some (sw, off, a)) u →
      (u.copyAcquire q sc (u.padSeg X (4 * e.capb.fld 16 16))).padRead 2 (span X (e.capb.fld 16 16 *
        (match (u.switch sw).ctxs.get? off with | some c => c.bits | none => 0) / 8)) = .ok bs v →
      (v.atSwitch va sw off fun t => match t.redContribute sw off cm e.capb bs with
        | .ok t => .ok (some (swPa sw off), t)
        | .error f => .error f) = .ok l w →
      exec i s = .next (w.copyDone r sc l)) ∧
    (∀ bs w, s.answer = some bs → s.redPlace va = .ok none s → s.padWrite 2 (span X bs.length) bs = .ok () w →
      exec (.cldrSw q r sc fo x) s = .next (w.dropAnswer.copyDone r sc (w.padLast X bs.length))) ∧
    (∀ bs a w, s.answer = some bs → s.redPlace va = .ok (some (sw, off, a)) s →
      (s.copyAcquire q sc (some (line64 sw off 64))).padWrite 2 (span X bs.length) bs = .ok () w →
      exec (.cldrSw q r sc fo x) s = .next (w.dropAnswer.copyDone r sc (w.padLast X bs.length))) ∧
    (∀ w, s.answer = none → s.redPlace va = .ok none s →
      s.padWrite 2 (span X (redAnswer 3 (e.capb.fld 32 32) [] []).length) (redAnswer 3 (e.capb.fld 32 32) [] []) = .ok () w →
      exec (.cldrSw q r sc fo x) s = .next (w.copyDone r sc (w.padLast X (redAnswer 3 (e.capb.fld 32 32) [] []).length)) ∧
      exec (.credDrop q r sc fo) s = .next (s.copyDone r sc none)) ∧
    (∀ a u w n, s.redPlace va = .ok (some (sw, off, a)) u → (w.switch sw).ctxs.get? off = some c → c.valid = true →
      (∀ f : State → Except (Nat × Option Nat) (Option Nat × State), (u.copyAcquire q sc (some (line64 sw off 64))).atSwitch va sw off f = (match f w with
          | .ok (v, t) => .ok v (t.cacheOwn t.cur (swPa sw off) n 0)
          | .error (f, v) => .stop (w.park 2 f (BitVec.ofNat 64 (v.getD va)) 0))) →
      exec (.credDrop q r sc fo) s =
        .next (((w.redFinish sw off 2 (fo == 1)).cacheOwn (w.redFinish sw off 2 (fo == 1)).cur (swPa sw off) n 0).copyDone r sc (some (swPa sw off)))) ∧
    (∀ a u n, (s.me.slice.bind fun sk => s.swEntry sk va) = some a → (s.word a).fld 62 2 = 1 → (s.word a).fld 60 2 = 0 →
      (s.word a).fld 59 1 = 1 → (s.word a).fld 58 1 = 1 →
      let room := (s.word a).fld 0 48 + (s.word (a + 8)).toNat - va
      let sw := (s.word (a + 16)).fld 37 5
      let off := (s.word (a + 16)).fld 0 37 + (va - (s.word a).fld 0 48)
      64 + (x.fld 0 8 + 2) * up64 (4 * e.capb.fld 0 16) ≤ room →
      (∀ f : State → Except (Nat × Option Nat) (Option Nat × State), (s.copyAcquire q sc (some (line64 sw off room))).atSwitch va sw off f = (match f u with
          | .ok (v, t) => .ok v (t.cacheOwn t.cur (swPa sw off) n 0)
          | .error (f, v) => .stop (u.park 2 f (BitVec.ofNat 64 (v.getD va)) 0))) →
      (u.switch sw).ctxs.get? off = none → ((u.switch sw).ctxs.filter fun c => c.2.valid).length < 4096 →
      ∃ t : State, exec (.credInit q r sc x) s = .next (t.copyDone r sc (some (swPa sw off))) ∧ t.mem = u.mem ∧
        (t.switch sw).ctxs.get? off = some
          { valid := true, op := x.fld 16 4, fmt := x.fld 11 5, wide := x.fld 10 1 == 1, m := x.fld 0 8, n := e.capb.fld 0 16, tmo := e.capb.fld 48 16 })

/-- R214 to R216: a posted half joins the transfers and zeroes its status word, halves that name each other match, pages land in order
until both halves end with CODE 1, a half past its TMO ends with CODE 2, halves that disagree with CODE 3; a core's 65th half waits;
ckv.sync ends once the transfers of earlier entries have ended. The model's own are that the pages land one after the other in list
order, line by line with the checks of each (log entries 29 and 96) and the cycles of TMO's milliseconds (log entry 16). -/
def Obligations.TransfersMatchMoveAndEnd : Prop :=
  ∀ (s : State) (q r p : BitVec 1) (sc : BitVec 3),
    let e := s.entry 2
    let post (i : Instr) (pull : Bool) : Prop :=
      (64 ≤ (s.transfers.filter fun h => h.core == s.cur).length → exec i s = .next s) ∧
      ∀ bs u lbs v pages used w pg x y, (s.transfers.filter fun h => h.core == s.cur).length < 64 →
        (s.descAcquire q sc).rangeRead 2 e.capa.toNat 64 = .ok bs u →
        let ws := wordsOf bs
        ((kvBroken ws = true ∨ ∃ h ∈ u.transfers, h.core = s.cur ∧ kvXid h.words = kvXid ws ∧ kvPeer h.words = kvPeer ws) →
          exec i s = .next (u.park 2 0xC8 e.capa 0)) ∧
        (kvBroken ws = false → (∀ h ∈ u.transfers, ¬(h.core = s.cur ∧ kvXid h.words = kvXid ws ∧ kvPeer h.words = kvPeer ws)) →
          u.rangeRead 2 (kvList ws) (8 * kvPages ws) = .ok lbs v → (∀ a ∈ wordsOf lbs, a.toNat % kvPageSize ws = 0) →
          (v.pkg (ckNode s.cur)).ready.fld (36 + dieOf (ckCore s.cur)) 1 ≠ 0 →
          (∀ sk, v.me.slice = some sk → v.etherBarred sk = false) →
          v.kvTranslate (if pull then .write else .read) (kvParts ws (wordsOf lbs)) = .ok (pages, used) w →
          w.engPage 2 (e.capa.toNat + 32) .write = .ok pg x →
          x.lineWrite 2 { va := e.capa.toNat + 32, len := 8, pg := pg } (List.replicate 8 0) = .ok () y →
          ∃ (t : State) (h : KvHalf), exec i s = .next (t.copyDone r sc (some (pg.pa + 7))) ∧ t.transfers = y.transfers ++ [h] ∧ t.mem = y.mem ∧
            h.id = y.nextKv ∧ h.core = s.cur ∧ h.seq = e.seq ∧ h.pull = pull ∧ h.words = ws ∧ h.pages = pages ∧ h.used = used ∧ h.peer = none ∧
            h.desc = (pg.pa - 32, pg.enc) ∧ h.posted = y.clock ∧ .event (.kvTransferTimeout h.id) ∈ t.agenda)
    post (.ckvSend q r sc) false ∧ post (.ckvPull q r sc p) true ∧
    ((∀ h ∈ s.transfers, h.core = s.cur → e.seq.toNat ≤ h.seq.toNat) → exec (.ckvSync q r sc) s = .next (s.copyDone r sc none)) ∧
    ((∃ h ∈ s.transfers, h.core = s.cur ∧ h.seq.toNat < e.seq.toNat) → exec (.ckvSync q r sc) s = .next s) ∧
    (∀ send pull a b, s.kvHalf send = some a → s.kvHalf pull = some b → a.pull = false → b.pull = true → s.kvMeet a b = true →
      (kvPsz a.words = kvPsz b.words → kvPages a.words = kvPages b.words →
        exec (.kvHalvesMatch send pull) s =
          .next (((s.setHalf { a with peer := some pull }).setHalf { b with peer := some send }).later (.event (.kvPageLanded pull 0)))) ∧
      (kvPsz a.words ≠ kvPsz b.words ∨ kvPages a.words ≠ kvPages b.words →
        exec (.kvHalvesMatch send pull) s = .next ((s.endHalf a 3).endHalf b 3))) ∧
    (∀ pull a b k x y, s.kvHalf pull = some b → b.peer.bind s.kvHalf = some a → b.landed = k → kvPsz b.words = 0 →
      a.pages[k]? = some x → b.pages[k]? = some y →
      (s.kvFull a b k 1 = true → exec (.kvPageLanded pull k) s = .next (s.wake (.event (.kvPageLanded pull k)))) ∧
      -- the lines move one after the other, as far as line j, where one of the sides fails
      ∀ (j : Nat) (line : Nat → State), s.kvFull a b k 1 = false → j ≤ 64 → line 0 = s →
        (∀ i, i < j → (line i).kvMove a b (kvAt x i) (kvAt y i) = (none, line (i + 1))) →
        (j = 64 →
          let marked := ((line 64).setHalf { a with landed := k + 1 }).setHalf { b with landed := k + 1 }
          (k + 1 < kvPages b.words → exec (.kvPageLanded pull k) s = .next (marked.later (.event (.kvPageLanded pull (k + 1))))) ∧
          (kvPages b.words ≤ k + 1 → exec (.kvPageLanded pull k) s =
            .next ((marked.later (.event (.kvTransferEnd pull 1))).later (.event (.kvTransferEnd a.id 1))))) ∧
        (j < 64 → ∀ side u, (line j).kvMove a b (kvAt x j) (kvAt y j) = (some side, u) →
          exec (.kvPageLanded pull k) s = .next (u.endHalf (if side then b else a) 5))) ∧
    -- a line within a package that nothing refuses or races with is copied with its key, and noted as the transfer's write
    (∀ a b pg pg', s.kvRefused a pg 0 = none → s.poisonAt pg.pa 64 = none → pg.pa / 2 ^ 48 = ckNode a.core → pg'.pa / 2 ^ 48 = ckNode b.core →
      s.kvRefused b pg' 1 = none → s.raceAt a.core pg 64 = none → s.raceAt (kvWriter a b) pg' 64 = none →
      s.kvMove a b pg pg' = (none, (s.poke (if pg'.enc then s.lineKey pg'.pa else none) pg'.pa
        (s.keyBytes (if pg.enc then s.lineKey pg.pa else none) pg.pa 64)).noteWrite (kvWriter a b) pg' 64)) ∧
    (∀ half h, s.kvHalf half = some h →
      (s.clock - h.posted < kvTmo h.words * 1000 * usCycles →
        exec (.kvTransferTimeout half) s = .next (s.later (.event (.kvTransferTimeout half)))) ∧
      (kvTmo h.words * 1000 * usCycles ≤ s.clock - h.posted → h.pull = false ∨ h.peer = none →
        exec (.kvTransferTimeout half) s = .next (s.endHalf h 2)) ∧
      (∀ code, 2 ≤ code → code ≤ 6 → exec (.kvTransferEnd half code) s = .next (s.endHalf h code)) ∧
      (h.peer.isSome = true → h.landed = kvPages h.words → exec (.kvTransferEnd half 1) s = .next (s.endHalf h 1)))

/-! ### Events: commands, graphs, threads -/

/-- R25 to R31, R33, R34, R38, R39: a command message at an attached endpoint is stored at its place of the window and delivered in
sequence; the eligible command is carried out, its KIND 1 completion is sent with its status and the entry freed; a command of bad
form has status 2 and no effect, and each other one the effect and the status that Tables 3.2 to 3.4 give. The model's own are a slot
load in two steps, of which the first asks to be taken up again (log entry 46), the order of the checks of ADMIT, CANCEL and SCHED_SET and
what their numbers count (log entry 47), NOTREADY of an ADMIT whose pack lies elsewhere behind a barred or unready fabric port (log entry
57), a SCHED_SET that waits for the boundary of a removed slot (log entry 75), and OK of a PACK_DROP of an id that is not registered (log
entry 89). -/
def Obligations.CommandsAreCarriedOut : Prop :=
  (∀ (s : State) (node func ep host seq op len bytes sk : Nat) (tag : BitVec 64) (p : List (BitVec 64)) (b : Inbox), 0 < func → func < 37 →
    s.sliceOfFunc node func = some sk → (s.slice sk).stop ≠ .held → (s.slice sk).await = false →
    (s.pkg node).endpoints.get? ep = some func → op ∈ [0x01, 0x02, 0x03, 0x20, 0x30, 0x31] → len ≤ 62 → p.length = len → bytes = len * 8 + 16 →
    s.inbox node func = b → b.entries = [] → b.next = seq → seq < 2 ^ 32 →
    (s.setBytes (entryPlace node func (seq % 256)) ((BitVec.ofNat 64 (seq * 2 ^ 32 + op * 2 ^ 24 + len * 2 ^ 16) :: tag :: p).flatMap wordBytes)).sliceOfFunc
      node func = some sk →
    ∃ t, exec (.commandMessage node func ep host seq op len 0 bytes tag p) s = .next t ∧
      (t.inbox node func).next = (seq + 1) % 2 ^ 32 ∧
      (t.inbox node func).entries = [(seq % 256, {
        seq := seq, op := op, tag := tag, ep := host, hdr := BitVec.ofNat 64 (seq * 2 ^ 32 + op * 2 ^ 24 + len * 2 ^ 16), payload := p
        wellFormed := true, delivered := true })]) ∧
  (∀ (s : State) (node func idx sk op : Nat) (e : InboxEntry) (i : Instr) (f : State → Nat → InboxEntry → Done),
    (i, op, f) ∈ [(Instr.slotLoad node func idx, 0x01, State.slotLoadCmd), (.slotUnload node func idx, 0x02, State.slotUnloadCmd),
      (.slotQuery node func idx, 0x03, State.slotQueryCmd), (.invoke node func idx, 0x10, State.invokeCmd),
      (.schedSet node func idx, 0x20, State.schedSetCmd), (.admitRequest node func idx, 0x21, State.admitCmd),
      (.cancel node func idx, 0x22, State.cancelCmd), (.packRegister node func idx, 0x30, State.packRegisterCmd),
      (.packDrop node func idx, 0x31, State.packDropCmd)] →
    (s.inbox node func).eligible = some (idx, e) → s.sliceOfFunc node func = some sk → e.op = op → e.wellFormed = true → s.inboxHeld node func = false →
    ((f s sk e).again = false →
      exec i s = .next (((f s sk e).state.commitEntry node func idx e (f s sk e).status (f s sk e).detail).runInbox node func)) ∧
    ((f s sk e).again = true → exec i s = .next (f s sk e).state)) ∧
  (∀ (s : State) (node func i status : Nat) (e : InboxEntry) (d : W64), ((s.pkg node).endpoints.any fun x => x.2 == func) = true →
    let t := s.commitEntry node func i e status d
    t.out = s.out ++
      [{ node := node, ep := e.ep, words := [BitVec.ofNat 64 (e.seq % 2 ^ 32 * 2 ^ 32 + 1 * 2 ^ 24 + status % 256 * 2 ^ 16 + func), e.tag, d, 0] }] ∧
    (t.inbox node func).entries = (s.inbox node func).entries.del i ∧ t.mem = s.mem ∧ t.slices = s.slices) ∧
  (∀ (s : State) (sk : Nat) (e : InboxEntry),
    let sl := s.slice sk
    let w := e.payload.headD 0
    let slot := w.fld 0 8
    (∀ op f, (op, f) ∈ [(0x01, State.slotLoadCmd), (0x02, State.slotUnloadCmd), (0x03, State.slotQueryCmd), (0x10, State.invokeCmd),
        (0x20, State.schedSetCmd), (0x21, State.admitCmd), (0x22, State.cancelCmd), (0x30, State.packRegisterCmd), (0x31, State.packDropCmd)] →
      formOk op e.payload = false → (f s sk e).status = 2 ∧ (f s sk e).state = s ∧ (f s sk e).again = false) ∧
    (formOk 0x01 e.payload = true → (sl.model slot).state = .resident ∨ (sl.model slot).state = .unloading →
      (s.slotLoadCmd sk e).status = 7 ∧ (s.slotLoadCmd sk e).state = s ∧ (s.slotLoadCmd sk e).again = false) ∧
    (formOk 0x01 e.payload = true → (sl.model slot).state = .empty →
      let ws := (e.payload.drop 1).take 8
      (s.slotLoadCmd sk e).again = true ∧ (s.slotLoadCmd sk e).state = s.putSlice sk { sl with slots := sl.slots.put slot {
        words := BitVec.ofNat 64 ((ws.headD 0).fld 0 62) :: ws.tail, state := .loading, pinned := true } }) ∧
    (formOk 0x01 e.payload = true → (sl.model slot).state = .loading → (s.slotLoadCmd sk e).again = false ∧
      (s.loadCheck sk slot (sl.model slot) = none → (s.slotLoadCmd sk e).status = 0 ∧
        let t := s.putSlice sk { sl with slots := sl.slots.put slot { sl.model slot with state := .resident } }
        (s.slotLoadCmd sk e).state = if slot = 0 then t.askHandler sk else t) ∧
      (∀ n a, s.loadCheck sk slot (sl.model slot) = some (n, a) → (s.slotLoadCmd sk e).status = 8 ∧
        (s.slotLoadCmd sk e).detail = BitVec.ofNat 64 ((if n = 6 then a / 65536 * 65536 else 0) + n) ∧
        (s.slotLoadCmd sk e).state = s.putSlice sk { sl with slots := sl.slots.del slot })) ∧
    (formOk 0x02 e.payload = true → (sl.model slot).state ≠ .resident → (s.slotUnloadCmd sk e).status = 7 ∧ (s.slotUnloadCmd sk e).state = s) ∧
    (formOk 0x02 e.payload = true → (sl.model slot).state = .resident → sl.busySlot slot = false → sl.scheds.get? slot = none →
      (s.slotUnloadCmd sk e).status = 0 ∧ ((s.slotUnloadCmd sk e).state.slice sk).slots = (sl.slots.put slot { sl.model slot with state := .unloading }).del slot) ∧
    (formOk 0x03 e.payload = true → (s.slotQueryCmd sk e).status = 0 ∧ (s.slotQueryCmd sk e).state = s ∧
      (s.slotQueryCmd sk e).detail = BitVec.ofNat 64 (sl.model slot).state.code) ∧
    (formOk 0x10 e.payload = true → s.sliceReady sk = false → (s.invokeCmd sk e).status = 3 ∧ (s.invokeCmd sk e).state = s) ∧
    (formOk 0x10 e.payload = true → s.sliceReady sk = true → (sl.model (w.fld 56 8)).state ≠ .resident →
      (s.invokeCmd sk e).status = 4 ∧ (s.invokeCmd sk e).detail = 0 ∧ (s.invokeCmd sk e).state = s) ∧
    (∀ a, formOk 0x10 e.payload = true → s.sliceReady sk = true → (sl.model (w.fld 56 8)).state = .resident →
      s.absentPage sk (sl.model (w.fld 56 8)) false = some a →
      (s.invokeCmd sk e).status = 4 ∧ (s.invokeCmd sk e).detail = BitVec.ofNat 64 a ∧ (s.invokeCmd sk e).state = s) ∧
    (formOk 0x10 e.payload = true → s.sliceReady sk = true → (sl.model (w.fld 56 8)).state = .resident → s.absentPage sk (sl.model (w.fld 56 8)) false = none →
      sl.scheduled (w.fld 56 8) = true → (s.invokeCmd sk e).status = 5 ∧ (s.invokeCmd sk e).state = s) ∧
    (formOk 0x10 e.payload = true → s.sliceReady sk = true → (sl.model (w.fld 56 8)).state = .resident → s.absentPage sk (sl.model (w.fld 56 8)) false = none →
      sl.scheduled (w.fld 56 8) = false →
      (16 ≤ (sl.waiting.filter (·.slot == w.fld 56 8)).length → (s.invokeCmd sk e).status = 6 ∧ (s.invokeCmd sk e).state = s) ∧
      ((sl.waiting.filter (·.slot == w.fld 56 8)).length < 16 → (s.invokeCmd sk e).status = 0 ∧ ((s.invokeCmd sk e).state.slice sk).waiting =
        sl.waiting ++ [{ slot := w.fld 56 8, asker := .host e.seq e.tag e.ep, bx := pairsFrom e.payload 1 (w.fld 51 5), order := 0 }])) ∧
    (formOk 0x20 e.payload = true → (sl.model slot).state ≠ .resident → (s.schedSetCmd sk e).status = 7 ∧ (s.schedSetCmd sk e).state = s) ∧
    (∀ x, formOk 0x20 e.payload = true → (sl.model slot).state = .resident → sl.scheds.get? slot = some x → x.removed = false → (s.schedSetCmd sk e).status = 0 ∧
      ((s.schedSetCmd sk e).state.slice sk).scheds.get? slot =
        some { x with next := some (w.fld 8 16, w.fld 24 13, e.payload.getD 1 0, pairsFrom e.payload 2 (w.fld 37 4)) }) ∧
    (∀ x, formOk 0x20 e.payload = true → (sl.model slot).state = .resident → sl.scheds.get? slot = some x → x.removed = true →
      (s.schedSetCmd sk e).again = true ∧ (s.schedSetCmd sk e).state = s.wake (.event (.schedBoundary (skNode sk) (skNum sk) slot))) ∧
    (formOk 0x20 e.payload = true → (sl.model slot).state = .resident → sl.scheds.get? slot = none →
      (8 ≤ (sl.scheds.filter fun x => !x.2.removed).length → (s.schedSetCmd sk e).status = 9 ∧ (s.schedSetCmd sk e).state = s) ∧
      ((sl.scheds.filter fun x => !x.2.removed).length < 8 → (s.schedSetCmd sk e).status = 0 ∧ ((s.schedSetCmd sk e).state.slice sk).scheds.get? slot = some
        { budget := w.fld 8 16, maxBatch := w.fld 24 13, table := e.payload.getD 1 0, bufs := pairsFrom e.payload 2 (w.fld 37 4) })) ∧
    (formOk 0x21 e.payload = true → (sl.reqs.get? (w.fld 52 12)).isSome = true → (s.admitCmd sk e).status = 0x0A ∧ (s.admitCmd sk e).state = s) ∧
    (formOk 0x21 e.payload = true → sl.reqs.get? (w.fld 52 12) = none → sl.scheduled (w.fld 44 8) = false → (s.admitCmd sk e).status = 5 ∧
      (s.admitCmd sk e).state = s) ∧
    (formOk 0x21 e.payload = true → sl.reqs.get? (w.fld 52 12) = none → sl.scheduled (w.fld 44 8) = true → w.fld 29 1 = 1 →
      sl.packs.get? (w.fld 30 10) = none → (s.admitCmd sk e).status = 0x0C ∧ (s.admitCmd sk e).state = s) ∧
    (∀ k, formOk 0x21 e.payload = true → sl.reqs.get? (w.fld 52 12) = none → sl.scheduled (w.fld 44 8) = true → w.fld 29 1 = 1 →
      sl.packs.get? (w.fld 30 10) = some k →
      let ready := (s.pkg (skNode sk)).ready.fld 18 18
      (k.place ≠ 0 → s.fabricBarred sk = true ∨ ready = 0 → (s.admitCmd sk e).status = 3 ∧ (s.admitCmd sk e).state = s) ∧
      (k.place = 0 ∨ s.fabricBarred sk = false ∧ ready ≠ 0 → (s.admitCmd sk e).status = 0 ∧
        .event (.packPlacementDone (skNode sk) (skNum sk) (w.fld 52 12)) ∈ (s.admitCmd sk e).state.agenda ∧
        ∃ q, ((s.admitCmd sk e).state.slice sk).reqs.get? (w.fld 52 12) = some q ∧ q.state = .fetch ∧ q.pos0 = k.tokens ∧
          q.packInfo = some (k.place, k.list, k.pages))) ∧
    (formOk 0x21 e.payload = true → sl.reqs.get? (w.fld 52 12) = none → sl.scheduled (w.fld 44 8) = true → w.fld 29 1 = 0 →
      (s.admitCmd sk e).status = 0 ∧ ∃ q, ((s.admitCmd sk e).state.slice sk).reqs.get? (w.fld 52 12) = some q ∧ q.state = .ready ∧
        q.slot = w.fld 44 8 ∧ q.prio = w.fld 40 4 ∧ q.prompt = (e.payload.getD 1 0).fld 0 32 ∧ q.maxNew = (e.payload.getD 1 0).fld 32 32 ∧
        q.processed = 0 ∧ q.generated = 0 ∧ q.order = sl.admitted) ∧
    (formOk 0x22 e.payload = true → (∀ q, sl.reqs.get? (w.fld 0 12) = some q → q.state = .running →
      (s.cancelCmd sk e).status = 0 ∧ ((s.cancelCmd sk e).state.slice sk).reqs.get? (w.fld 0 12) = some { q with cancel := true }) ∧
      (∀ q, sl.reqs.get? (w.fld 0 12) = some q → q.state ≠ .running → (s.cancelCmd sk e).status = 0 ∧
        (s.cancelCmd sk e).state = s.endReq sk (w.fld 0 12) 0x0E) ∧
      (sl.reqs.get? (w.fld 0 12) = none → (s.cancelCmd sk e).status = 0x0B ∧ (s.cancelCmd sk e).state = s)) ∧
    (formOk 0x30 e.payload = true → (s.packRegisterCmd sk e).status = 0 ∧ ((s.packRegisterCmd sk e).state.slice sk).packs.get? (w.fld 0 10) = some
      { place := w.fld 10 2, tokens := w.fld 32 32, list := e.payload.getD 1 0, pages := (e.payload.getD 2 0).fld 0 32 }) ∧
    (formOk 0x31 e.payload = true → (s.packDropCmd sk e).status = 0 ∧ ((s.packDropCmd sk e).state.slice sk).packs = sl.packs.del (w.fld 0 10)))

/-- R15, R17, R21, R31, R36, R40, R46, R47, R330, R331: the oldest waiting invocation of a slot starts; a dispatched core stages its tiles
and starts its thread at IMAGE + ENTRY with the level indices in s20 to s23; a drained ended thread retires its iteration; a COND node
goes to NEXT or ALT, a WHILE node counts its trips, a COPY node copies, a NOTIFY node sends KIND 2; an invocation that has ended sends KIND
4; a boundary forms a batch within the budget. The model's own are that a NOTIFY node of a batch's invocation sends nothing (log entry 48),
that a COPY node reads its whole source before it writes and what its release hands on (log entry 72), that the Weaver starts and retires
nothing in a slice that is not running (log entry 49), and which stores a completion waits for (log entry 99). -/
def Obligations.GraphsAndThreadsRun : Prop :=
  ∀ (s : State) (node slice slot n : Nat),
    let sk := skOf node slice
    let sl := s.slice sk
    (∀ w, sl.waiting.find? (·.slot == slot) = some w → sl.active = [] → sl.stop = .running → isGraph (sl.model slot) = false →
      let v := s.activate sk (sl.model slot) { w with order := sl.started, edges := [], nodes := [], trips := [], acts := 0, done := 0, fault := none }
        none 0 ((sl.model slot).nodes + 1)
      exec (.invocationStart node slice slot) s = .next ((s.putSlice sk { sl with
        waiting := sl.waiting.eraseIdx (sl.waiting.findIdx (·.slot == slot)), started := sl.started + 1, active := [v] }).follow sk v)) ∧
    (sl.stop = .running → sl.bound = true → ∀ o k i v ck, nextServed ((s.advance sk).slice sk).served ((s.advance sk).dispatchable sk) = some (o, k) →
      (s.advance sk).freeCore sk = some i → ((s.advance sk).slice sk).active.find? (·.order == o) = some v →
      (s.advance sk).sliceCoreKey sk i = some ck →
      exec (.iterationDispatch node slice) s = .next (((s.advance sk).dispatchTo sk v k i ck).wake (.event (.iterationDispatch node slice)))) ∧
    (∀ core, let t : State := { s with cur := node * 256 + core }
      t.me.run = .staging → t.me.slice = some sk → t.me.stagePark = none →
      (t.me.stage = [] → sl.stop = .running → ∃ u, exec (.threadStart node core) s = .next u ∧ u.me.run = .running ∧
        u.me.pc = BitVec.ofNat 64 ((sl.model t.me.slot).image + (t.nestRec sk (t.recOf sk (sl.model t.me.slot) t.me.node).opa.toNat).entry) ∧
        (∀ l : Fin 4, u.me.reg (BitVec.ofNat 5 (20 + l.val)) = BitVec.ofNat 64 (t.me.index.getD l.val 0)) ∧ u.me.watchdog = s.ylimit sk ∧
        u.mem = s.mem ∧ .core (node * 256 + core) ∈ u.agenda) ∧
      (∀ d j l k f u, t.me.stage = (d, j) :: l → t.stagePart sk d j ((t.me.stageAt.map (·.1)).getD 0) (t.me.stageAt.map (·.2)) = .ok (k, f) u →
        (u.stageBytes sk d ≤ k → exec (.threadStart node core) s =
          .next ((u.setMe { u.me with stage := l, stageAt := none }).wake (.event (.threadStart node core)))) ∧
        (k < u.stageBytes sk d → exec (.threadStart node core) s =
          .next ((u.setMe { u.me with stageAt := some (k, f) }).wake (.event (.threadStart node core)))))) ∧
    (∀ core, (s.core (node * 256 + core)).run = .ended → s.drained (node * 256 + core) = true → (s.core (node * 256 + core)).handling = none →
      exec (.threadEnd node core) s = .next (s.threadEnds (node * 256 + core))) ∧
    (∀ w r, s.dueNode sk slot n 2 = some (w, r) →
      let src := w.v.bx.getD (r.opa.fld 60 4) (0, 0)
      let dst := w.v.bx.getD (r.opa.fld 56 4) (0, 0)
      let len := r.opa.fld 0 48
      r.opb.fld 32 32 + len ≤ src.2.toNat → r.opb.fld 0 32 + len ≤ dst.2.toNat →
      s.weaverClash sk (src.1.toNat + r.opb.fld 32 32) (dst.1.toNat + r.opb.fld 0 32) len = none →
      ∀ bs u v, s.weaverLoad sk (src.1.toNat + r.opb.fld 32 32) len = (.ok bs, u) → u.weaverStore sk (dst.1.toNat + r.opb.fld 0 32) bs = (.ok (), v) →
        exec (.copyNodeRetire node slice slot n) s =
          .next ((v.weaverRelease sk (dst.1.toNat + r.opb.fld 0 32) len (u.weaverStamps sk (src.1.toNat + r.opb.fld 32 32) len)).follow sk
            (v.retireNode sk w.m w.v n r.next))) ∧
    (∀ w r, s.dueNode sk slot n 3 = some (w, r) →
      let x := s.condWord sk w.m r.cw
      let c := r.opb.fld 0 3
      let met : Bool := if c = 0 then decide (x = r.opa) else if c = 1 then decide (x ≠ r.opa) else if c = 2 then decide (x.toInt < r.opa.toInt)
        else if c = 3 then decide (r.opa.toInt ≤ x.toInt) else if c = 4 then decide (x.toNat < r.opa.toNat) else decide (r.opa.toNat ≤ x.toNat)
      exec (.nodeCond node slice slot n) s = .next (s.follow sk (s.retireNode sk w.m w.v n (if met then r.next else r.alt)))) ∧
    (∀ w r, s.dueNode sk slot n 4 = some (w, r) →
      let trips := Tab.getD w.v.trips n 0
      let limit := r.opb.fld 0 32
      (s.condWord sk w.m r.cw = 0 → exec (.nodeWhile node slice slot n) s = .next (s.follow sk (s.retireNode sk w.m w.v n r.alt))) ∧
      (s.condWord sk w.m r.cw ≠ 0 → limit = 0 ∨ trips < limit → exec (.nodeWhile node slice slot n) s =
        .next (s.follow sk (s.retireNode sk w.m { w.v with trips := w.v.trips.put n (trips + 1) } n r.next)))) ∧
    (∀ w r, s.dueNode sk slot n 5 = some (w, r) →
      (s.storesLeft sk = true → exec (.nodeNotify node slice slot n) s = .next (s.wake (.event (.nodeNotify node slice slot n)))) ∧
      (s.storesLeft sk = false → ∀ seq tag ep, w.v.asker = .host seq tag ep → let t := s.tell sk ep seq 2 (r.opb.fld 0 8) r.opa 0
        exec (.nodeNotify node slice slot n) s = .next (t.follow sk (t.retireNode sk w.m w.v n r.next))) ∧
      (s.storesLeft sk = false → ∀ ids, w.v.asker = .batch ids → exec (.nodeNotify node slice slot n) s = .next (s.follow sk (s.retireNode sk w.m w.v n r.next)))) ∧
    (∀ w seq tag ep, s.work sk slot = some w → isGraph w.m = false → w.v.fault = none → (w.v.node 0).retired = true → sl.stop = .running →
      w.v.asker = .host seq tag ep → s.storesLeft sk = false →
      exec (.invocationRetire node slice slot) s = .next ((((s.putSlice sk { sl with active := sl.active.filter (·.slot ≠ slot) }).tell sk ep seq 4 0 tag
        (BitVec.ofNat 64 (w.v.done % 2 ^ 32))).afterInvocation sk w.v).wake (.event (.iterationDispatch node slice)))) ∧
    (∀ req r u, sl.reqs.get? req = some r → r.state = .fetch → sl.stop = .running → s.placePack sk r = (.ok (), u) →
      ∃ t, exec (.packPlacementDone node slice req) s = .next t ∧ ((t.slice sk).reqs.get? req) = some { r with state := .ready } ∧ t.mem = u.mem) ∧
    (∀ x, sl.scheds.get? slot = some x → sl.busySlot slot = false → sl.stop = .running → x.retired = none → x.removed = false → x.next = none →
      (∀ e ∈ sl.reqs, ¬(e.2.slot = slot ∧ e.2.cancel = true)) →
      exec (.schedBoundary node slice slot) s =
        .next ((s.putSlice sk { sl with scheds := sl.scheds.put slot x }).startBatch sk slot x)) ∧
    (∀ l budget room, ((fillBatch l budget room).map fun x => x.2.2).sum ≤ budget ∧ (fillBatch l budget room).length ≤ room) ∧
    (∀ k (r : NestRec), r.levels = 1 → r.levelAt 0 = 0 → r.dir 0 = 0 → 0 < r.bound 0 → r.indices k = [k % r.bound 0, 0, 0, 0])

/-- R63, R75, R233, R237, R244, R249, R309, R310, R311, R341, R346: the events at cores and homes: a walk, an idle bank that is gated, an
atomic at a router, a tagged request performed or withdrawn, a timed-out wait, an expired watchdog, a fault handler that starts, a
throttle, a scrub, a life-cycle change, and accesses to the record ring's registers and RSTKBASE. -/
def Obligations.CoresAndHomesHaveEvents : Prop :=
  ∀ (s : State) (node core : Nat),
    let ck := node * 256 + core
    let c := s.core ck
    (∀ unit va pg t, s.translate ck va .read = .ok pg t → exec (.translationWalk node core unit 0 va) s = .next t) ∧
    (∀ bank, bank < 2 → 4096 ≤ s.clock - Tab.getD c.vec.lastNamed bank 0 →
      exec (.bankPowerGate node core bank) s = .next (s.putCore ck { c with vec := { c.vec with gated := c.vec.gated.add bank } })) ∧
    (∀ fn addr x y old t, fn < 8 → addr.toNat % 8 = 0 →
      s.atomicAt ck (s.physPage ck (normPa node addr.toNat)) (fun w => if fn = 0 then w + x else if fn = 1 then (if x.toInt < w.toInt then x else w)
        else if fn = 2 then (if w.toInt < x.toInt then x else w) else if fn = 3 then w &&& x else if fn = 4 then w ||| x else if fn = 5 then w ^^^ x
        else if fn = 6 then x else if w = y then x else w) = .ok old t → exec (.routerAtomic node core fn addr x y) s = .next t) ∧
    (∀ q, s.tagQ.find? (fun t => t.of ck) = some q → exec (.taggedRequestAtHome node core) s = .next (s.tagServe q.word) ∧
      ∃ t, exec (.taggedWaitWithdrawal node core) s = .next t ∧ t.tagQ = s.tagQ.filter (fun t => !t.of ck) ∧ t.tags = s.tags ∧ t.mem = s.mem ∧
        ∀ w, c.wait = some w → (t.core ck).wait = some { w with reply := some .withdrawn }) ∧
    (∀ w p k r, c.wait = some w → decodeAccess w.word 0 0 = .ok (.waitTk p k r) →
      let t : State := { s with cur := ck }
      (t.reg r).toNat ≤ t.clock - w.start → (t.me.token k.toNat).claims.head? ≠ some .access ∨ (t.me.token k.toNat).value = 0 →
      ∃ u, exec (.timedWaitTimeout node core) s = .next { u with cur := s.cur } ∧ OnlyMe t u ∧ Advances t u ∧ u.me.wait = none ∧
        (∀ q, u.pred q = if q = p ∧ q ≠ 0 then true else t.pred q) ∧ u.me.s = t.me.s ∧
        (∀ j, u.me.token j = if j = k.toNat then
          { t.me.token j with claims := (t.me.token j).claims.filter (· ≠ .access) } else t.me.token j)) ∧
    (c.wait = none → exec (.timedWaitTimeout node core) s = .next s) ∧
    (c.run = .running → c.slice.isSome = true → c.watchdog = 0 → exec (.watchdogExpire node core) s = .next (s.endOf ck 0xD0 c.pc 0 0xD0)) ∧
    (∀ slice f l, let sk := skOf node slice
      (s.slice sk).faults = f :: l → (s.slice sk).handler = none → s.hasHandler sk = true → (s.slice sk).stop ≠ .held → 145 ≤ core → core ≤ 152 →
      c.run = .idle → ∃ t, exec (.faultHandlerStart node slice core) s = .next t ∧ (t.slice sk).handler = some (ck, f.fnum) ∧
        (t.core ck).handling = some (sk, f.fnum) ∧ (t.core ck).run = .running ∧
        (t.core ck).pc = BitVec.ofNat 64 (((s.slice sk).model 0).image + ((s.slice sk).model 0).hentry) ∧
        (t.core ck).reg 20 = f.words.getD 1 0 ∧ (t.core ck).reg 21 = BitVec.ofNat 64 f.fnum ∧ t.mem = s.mem) ∧
    (∀ die, die < 4 → (∃ t, exec (.thermalThrottle node die) s = .next t ∧ (t.pkg node).throttled.has die = true ∧ t.cores = s.cores) ∧
      ∃ t, exec (.powerThrottle node die) s = .next t ∧ (t.pkg node).throttled.has die = true ∧ t.cores = s.cores) ∧
    (∀ (line : W64) ch, region (line.toNat / 64 * 64) = .hbm node ch → s.relFull node = true → ∃ t, exec (.patrolScrub node line) s = .next t ∧
      t.poison.has (line.toNat / 64 * 64) = true ∧ t.cores = s.cores) ∧
    (∀ st, ((s.pcsr node 0x180).fld 0 2 = 0 ∧ st = 1) ∨ (st = 3 ∧ ((s.pcsr node 0x180).fld 0 2 = 1 ∨ (s.pcsr node 0x180).fld 0 2 = 2)) →
      exec (.lifecycleChange node st) s = .next (s.setLifecycle node st)) ∧
    (∀ v : W64, ∃ t, exec (.relbase node v) s = .next t ∧ t.mem = s.mem ∧ t.cores = s.cores ∧ t.pcsr node 0x111 = 0 ∧ t.pcsr node 0x112 = 0 ∧
      t.pcsr node 0x110 = BitVec.ofNat 64 (v.fld 12 44 * 2 ^ 12 + v.fld 0 5)) ∧
    (∀ v : W64, v.fld 0 20 < 2 ^ (s.pcsr node 0x110).fld 0 5 →
      ∃ t, exec (.reltail node v) s = .next t ∧ t.pcsr node 0x112 = BitVec.ofNat 64 (v.fld 0 20) ∧ t.mem = s.mem ∧ t.cores = s.cores) ∧
    (∀ v : W64, v.fld 0 1 = 1 → ∃ t, exec (.relovf node v) s = .next t ∧ t.mem = s.mem ∧ t.cores = s.cores ∧
      (t.pcsr node 0x113).fld 0 1 = 0 ∧ (t.pcsr node 0x113).fld 16 32 = (s.pcsr node 0x113).fld 16 32) ∧
    (∀ d, isFirmware ck = true → ckNode ck = node → ∃ t, exec (.relhead node core d) s = .next t ∧
      (t.core ck).reg d = (if d = 0 then 0 else s.pcsr node 0x111) ∧ t.mem = s.mem ∧ ∀ k, k ≠ ck → t.core k = s.core k) ∧
    (∀ v : W64, ∃ t, exec (.rstkbase node core v) s = .next t ∧ t.core ck =
      { c with rstkBase := BitVec.ofNat 64 (v.fld 3 19 * 8), rstkPtr := BitVec.ofNat 64 (v.fld 3 19 * 8) } ∧ t.mem = s.mem ∧
      ∀ k, k ≠ ck → t.core k = s.core k)

/-! ### Events: the fabric, slices, firmware -/

/-- R281 to R291, R294, R345, R346: a request that arrives in time is performed once, refused at its home, answered from the reply
cache when it comes again, and held while an earlier write of its stream is missing; resends after 40 µs, lost ports, rejoin, probes,
failed switches, links and attached allocations act as the rules say. Which switch a packet took, whether a lane was repaired, whether
an old packet reaches a Border, and whether an earlier head still holds a reserve entry are free choices (log entry 3). The model's own are
the cycles of a microsecond (log entry 16), a posted store as a request on its way (log entry 14), the record and the drop of a request
behind the reply cache (0x99, log entry 42), the counter of probe firings (log entry 53), what a readmitted switch and an attached
allocation hold, when a failed switch empties its memory and where a mirror's survivor is kept (log entry 54), which way a packet takes
(log entry 58), and the resend of a mirrored write whose first switch failed (log entry 95). -/
def Obligations.FabricRequestsAreAnswered : Prop :=
  (∀ (s : State) (src dst seq : Nat) (q : Posted), s.outstandingReq src dst seq = some q →
    (usOf 200 < s.clock - q.sent → ∃ t, exec (.fabricRequestReceive src dst seq) s = .next t ∧ t.outstandingReq src dst seq = some q ∧
      t.cores = s.cores ∧ .event (.retransmitTimeout src dst seq) ∈ t.agenda) ∧
    (s.clock - q.sent ≤ usOf 200 → (s.pkg dst).quiet = true → exec (.fabricRequestReceive src dst seq) s = .next (s.resendLater src dst seq)) ∧
    (s.clock - q.sent ≤ usOf 200 → (s.pkg dst).quiet = false →
      (∀ v, s.way src dst = (.lost, v) → exec (.fabricRequestReceive src dst seq) s = .next (v.resendLater src dst seq)) ∧
      (∀ v, s.way src dst = (.dropped, v) → exec (.fabricRequestReceive src dst seq) s = .next (v.dropNotice src dst seq q)) ∧
      ∀ v fate u, s.way src dst = (.through, v) → v.takeFate = (fate, u) →
        let party : Party := { ck := q.core, fw := q.fw, func := q.func }
        let lost := u.lostAt src q.func q.va.toNat
        let refused := u.homeRefuses party q.pa q.size 1 q.enc
        (fate = 1 → exec (.fabricRequestReceive src dst seq) s = .next (u.resendLater src dst seq)) ∧
        (fate = 0 → u.cachedReply dst src seq = none → lost = none → refused = none → u.releaseReady dst src q = true →
          exec (.fabricRequestReceive src dst seq) s = .next (((u.performPosted dst src q).dropOutstanding src dst seq).performHeld dst)) ∧
        (fate = 0 → ∀ r, u.cachedReply dst src seq = some r → r.seq = seq →
          exec (.fabricRequestReceive src dst seq) s = .next (((u.cacheReply dst src seq r.reply).dropOutstanding src dst seq).performHeld dst)) ∧
        (fate ≠ 1 → ∀ r, u.cachedReply dst src seq = some r → laterSeq r.seq seq = true → exec (.fabricRequestReceive src dst seq) s =
          .next ((u.record dst { u.coreRec q.core 0x99 6 with kind := 3, addr := BitVec.ofNat 64 q.pa, peer := src }).failRequest src dst q false)) ∧
        (fate ≠ 1 → u.cachedReply dst src seq = none → ∀ w, lost = some w → exec (.fabricRequestReceive src dst seq) s =
          .next ((u.refuseLost party q.va.toNat w).failRequest src dst q false)) ∧
        (fate ≠ 1 → u.cachedReply dst src seq = none → lost = none → ∀ c, refused = some c → exec (.fabricRequestReceive src dst seq) s =
          .next ((u.refuse party q.pa c).failRequest src dst q false)) ∧
        (fate ≠ 1 → u.cachedReply dst src seq = none → lost = none → refused = none → u.releaseReady dst src q = false →
          ∃ t, exec (.fabricRequestReceive src dst seq) s = .next t ∧ t.mem = s.mem ∧ t.cores = s.cores ∧
            { src := src, post := q } ∈ (t.pkg dst).held))) ∧
  (∀ (s : State) (src dst seq : Nat) (q : Posted), s.outstandingReq src dst seq = some q →
    (s.clock - q.sent < usOf 40 → exec (.retransmitTimeout src dst seq) s = .next (s.resendLater src dst seq)) ∧
    (usOf 40 ≤ s.clock - q.sent → q.sends < 4 → ∃ t, exec (.retransmitTimeout src dst seq) s = .next t ∧
      t.outstandingReq src dst seq = some { q with sends := q.sends + 1, sent := s.clock } ∧
      .event (.fabricRequestReceive src dst seq) ∈ t.agenda ∧ t.mem = s.mem ∧ t.cores = s.cores) ∧
    (usOf 40 ≤ s.clock - q.sent → 4 ≤ q.sends → ∃ t, exec (.retransmitTimeout src dst seq) s = .next t ∧ (t.pkg src).dead.has dst = true ∧
      (t.pkg src).outstanding = (s.pkg src).outstanding.del dst ∧
      (∀ o ∈ Tab.getD (s.pkg src).outstanding dst [], (s.core o.core).run = .running → (s.core o.core).thread = o.thread →
        o.va ∈ (t.core o.core).lateErr) ∧
      ∀ x ∈ t.tagQ, x.gone = false → ¬(ckNode x.core = src ∧ 8 * x.word / 2 ^ 48 = dst)) ∧
    (s.replyOld dst src seq = true → exec (.replyReceive src dst seq) s = .next s) ∧
    (s.replyOld dst src seq = false → s.performed dst src seq = true → exec (.replyReceive src dst seq) s = .next (s.dropOutstanding src dst seq)) ∧
    (s.declaredDead src dst = false → exec (.switchDropNotice src dst seq) s = .next s) ∧
    (s.declaredDead src dst = true → let u : State := { s with agenda := s.agenda.filter (· ≠ Happening.event (.fabricRequestReceive src dst seq)) }
     exec (.switchDropNotice src dst seq) s = .next ((u.record src
       { u.coreRec q.core 0xA0 6 with kind := 3, addr := BitVec.ofNat 64 q.pa, peer := dst }).failRequest src dst q true)) ∧
    (usOf 200 < s.clock - q.sent → Happening.event (.fabricRequestReceive src dst seq) ∈ s.agenda →
      exec (.packetResidencyDrop src dst seq) s = .next
        (({ s with agenda := s.agenda.filter (· ≠ Happening.event (.fabricRequestReceive src dst seq)) } : State).resendLater src dst seq)) ∧
    (s.clock - q.sent ≤ usOf 200 → exec (.packetResidencyDrop src dst seq) s = .next s)) ∧
  (∀ (s : State) (src dst seq : Nat),
    (s.outstandingReq src dst seq = none → s.replyOld dst src seq = false → exec (.replyReceive src dst seq) s =
      .next (s.record src { cause := 0xA8, sev := 0, unit := 6, peer := dst })) ∧
    (∀ h, (s.pkg dst).held.find? (fun h => h.src == src && h.post.seq == seq) = some h → s.releaseReady dst src h.post = true →
      exec (.heldReleasePerform dst src seq) s = .next ((s.performPosted dst src h.post).dropOutstanding src dst seq))) ∧
  (∀ (s : State) (node peer sw : Nat),
    (∀ t0, s.downSince node sw = some t0 → usOf 100 ≤ s.clock - t0 → ∃ t, exec (.switchPortDownTimeout sw node) s = .next t ∧
      (t.switch sw).portsDown.has node = true ∧ t.mem = s.mem ∧ t.cores = s.cores) ∧
    (s.portDead node sw = false → exec (.switchPortDownTimeout sw node) s = .next s) ∧
    ((s.pkg node).quiet = true → (∃ w, w < 18 ∧ s.portUp node w = true) → usOf 200 ≤ s.clock - (s.pkg node).rejoinAt →
      ∃ t, exec (.rejoinQuietExpire node) s = .next t ∧
        t.pkg node = { s.pkg node with quiet := false, unacked := allNodes.del node, rejoinAt := s.clock, noticed := [] } ∧ t.mem = s.mem ∧
        t.cores = s.cores) ∧
    (∀ m, allNodes.has m = true ↔ (m < 144 ∨ (0xA0 ≤ m ∧ m < 0xB2))) ∧
    ((s.pkg peer).unacked.has node = true → node ∈ s.nodes → node < 0xA0 → node ≠ peer → s.noticeReaches peer node = true → ∃ t, exec (.rejoinNotice node peer) s = .next t ∧
      (∀ e ∈ (t.pkg node).replies, e.1 / 4096 ≠ peer) ∧ (t.pkg node).outstanding = (s.pkg node).outstanding.del peer ∧
      (t.pkg node).seqTo = (s.pkg node).seqTo.del peer ∧ (t.pkg node).dead = (s.pkg node).dead.del peer ∧
      (∀ e ∈ (t.pkg node).streams, e.1 % 256 ≠ peer) ∧ (t.pkg peer).noticed.has node = true ∧
      (∀ h ∈ (t.pkg node).held, h.src ≠ peer) ∧ ∀ q ∈ t.tagQ, ¬(ckNode q.core = peer ∧ 8 * q.word / 2 ^ 48 = node)) ∧
    ((s.pkg peer).unacked.has node = true → node ∈ s.nodes → 0xA0 ≤ node → s.portUp peer (node - 0xA0) = true → ∃ t, exec (.rejoinNotice node peer) s = .next t ∧
      (t.switch (node - 0xA0)).portsDown = (s.switch (node - 0xA0)).portsDown.del peer ∧ (t.pkg peer).noticed.has node = true ∧
      (∀ e ∈ (t.switch (node - 0xA0)).replies, e.1 / 4096 ≠ peer) ∧ t.mem = s.mem ∧ t.cores = s.cores) ∧
    (s.noticeReaches peer node = false → exec (.rejoinNotice node peer) s = .next s) ∧
    ((s.pkg node).noticed.has peer = true → ∃ t, exec (.rejoinAck node peer) s = .next t ∧
      t.pkg node = { s.pkg node with unacked := (s.pkg node).unacked.del peer } ∧ t.mem = s.mem ∧ t.cores = s.cores) ∧
    ((s.pkg node).unacked.has peer = true → usOf 1000 ≤ s.clock - (s.pkg node).rejoinAt → ∃ t, exec (.rejoinAckTimeout node peer) s = .next t ∧
      (t.pkg node).dead.has peer = true ∧ (t.pkg node).unacked = (s.pkg node).unacked.del peer) ∧
    (s.clock - (s.pkg node).rejoinAt < usOf 1000 → exec (.rejoinAckTimeout node peer) s = .next s) ∧
    (∀ router,
      let p := s.pkg node
      (s.blockedHead node router = none → exec (.probeFire node router) s = .next s ∧ exec (.probeReturn node router) s = .next s) ∧
      ∀ h, s.blockedHead node router = some h →
        let moved := s.putPkg node { p with heads := p.heads.erase h, fired := p.fired.del router, reserve := p.reserve.add router }
        (2048 ≤ s.clock - h.2 →
          exec (.probeFire node router) s = .next (s.putPkg node { p with probes := p.probes + 1, fired := p.fired.add router })) ∧
        (s.clock - h.2 < 2048 → exec (.probeFire node router) s = .next s) ∧
        (p.fired.has router = false → exec (.probeReturn node router) s = .next s) ∧
        (p.fired.has router = true → p.reserve.has router = false → exec (.probeReturn node router) s = .next (moved.count node 0x9A)) ∧
        (p.fired.has router = true → p.reserve.has router = true → ∃ b : Bool, exec (.probeReturn node router) s =
          .next (if b then ({ moved with nondet := s.nondet + 1 } : State).count node 0x9A
            else ({ s with nondet := s.nondet + 1 } : State).count node 0x9B))) ∧
    (sw < 18 → (s.pkg node).failedSw.has sw = false → s.portDead node sw = true ∨ (s.switch sw).lost = true →
      ∃ t, exec (.switchFailureDeclare node sw) s = .next t ∧ (t.pkg node).failedSw.has sw = true ∧
        ∀ n ∈ s.nodes, n < 0x90 → n ≠ node → .event (.switchFailureNotice n sw) ∈ t.agenda) ∧
    (s.portDead node sw = false → (s.switch sw).lost = false → (s.takeUpset (node * 256 + 144) 16).1 = none →
      exec (.switchFailureDeclare node sw) s = .next s) ∧
    (sw < 18 → s.failureTold node sw = true → ∃ t, exec (.switchFailureNotice node sw) s = .next t ∧ (t.pkg node).failedSw.has sw = true) ∧
    (s.failureTold node sw = false → exec (.switchFailureNotice node sw) s = .next s) ∧
    (∀ func e, let x := s.satEntry node func e
      s.satFree node func e = false → x.state ≠ 3 →
      ((x.place = 0 ∧ x.swa = sw) ∨ (x.place = 1 ∧ sw < 18) → s.entryAfter node func e sw = some 3) ∧
      (x.place = 2 → x.state = 1 → x.swa = sw → x.swb ≠ sw → (s.pkg node).failedSw.has x.swb = false → s.entryAfter node func e sw = some 2) ∧
      (x.place = 2 → x.state = 1 → x.swb = sw → x.swa ≠ sw → (s.pkg node).failedSw.has x.swa = false → s.entryAfter node func e sw = some 2) ∧
      (x.place = 2 → x.state = 2 → s.entryAfter node func e sw =
        if sw = (if s.firstGone node func e then x.swb else x.swa) then some 3 else none)) ∧
    (∀ (idx pa src seq : Nat) (bs : List Byte), (s.switch sw).mirror[idx]? = some (pa, bs, src, seq) → exec (.mirrorAck sw idx) s =
      let u := s.putSwitch sw { s.switch sw with mirror := (s.switch sw).mirror.eraseIdx idx }
      .next ((u.poke none pa bs).cacheReply (pa / 2 ^ 48) src seq (u.word pa))) ∧
    (sw < 18 → (s.pkg node).failedSw.has sw = true → (s.pkg node).ready.fld (18 + sw) 1 = 1 →
      (∀ n ∈ s.nodes, n < 0x90 → (s.pkg n).failedSw.has sw = true ∨ (s.pkg n).quiet = true) → ∃ t, exec (.switchReadmit node sw) s = .next t ∧
      (t.pkg node).failedSw = (s.pkg node).failedSw.del sw ∧ (t.switch sw).used = [] ∧ (t.switch sw).ctxs = [] ∧ t.cores = s.cores ∧
      (∀ n ∈ s.nodes, n < 0x90 → n ≠ node → .event (.readmitNotice n sw) ∈ t.agenda) ∧
      (s.Inv → ∀ a, t.mem.get a = if swPa sw 0 ≤ a ∧ a < swPa sw (2 ^ 37) then 0 else s.mem.get a)) ∧
    (sw < 18 → (s.pkg node).failedSw.has sw = true → (s.pkg node).ready.fld (18 + sw) 1 = 1 →
      (∃ n ∈ s.nodes, n < 0x90 ∧ (s.pkg n).failedSw.has sw = false ∧ (s.pkg n).quiet = false) → (s.switch sw).isEmpty = false →
      exec (.switchReadmit node sw) s = .next s) ∧
    ((∃ q ∈ s.pkgs, q.2.readmits.has (sw * 256 + node) = true) → ∃ t, exec (.readmitNotice node sw) s = .next t ∧
      (t.pkg node).failedSw = (s.pkg node).failedSw.del sw ∧ (∀ n, (t.pkg n).readmits.has (sw * 256 + node) = false) ∧ t.mem = s.mem ∧
      t.cores = s.cores) ∧
    ((∀ q ∈ s.pkgs, q.2.readmits.has (sw * 256 + node) = false) → exec (.readmitNotice node sw) s = .next s) ∧
    (∀ link, readyBit link = true →
      (∃ t, exec (.linkReady node link) s = .next t ∧ t.cores = s.cores ∧ (link < 18 ∨ 35 < link → t.mem = s.mem) ∧
        ∀ k, k < 64 → (t.pkg node).ready.fld k 1 = if k = link then 1 else (s.pkg node).ready.fld k 1) ∧
      ∃ t, exec (.linkDown node link) s = .next t ∧ t.cores = s.cores ∧ (t.pkg node).downAt.get? link = some s.clock ∧
        ∀ k, k < 64 → (t.pkg node).ready.fld k 1 = if k = link then 0 else (s.pkg node).ready.fld k 1) ∧
    (∀ pair, pair < 6 →
      -- over the pair's link go the core's accesses of the package whose home, and those of a switch whose port, is at its other end
      let crosses (ck pa : Nat) : Prop := ∃ d, otherDie pair ck = some d ∧
        ((pa / 2 ^ 48 = node ∧ (homeUnit pa).2 = d) ∨ (pa / 2 ^ 48 ≠ node ∧ 0xA0 ≤ pa / 2 ^ 48 ∧ portDie (pa / 2 ^ 48 - 0xA0) = d))
      ∃ t, exec (.d2dLinkFail node pair) s = .next t ∧ (t.pkg node).d2dDown.has pair = true ∧ (t.pkg node).ready.fld (12 + pair) 1 = 0 ∧
      (∀ (ck : Nat) (q : Fin 4) (n : Nat) (pa va : W64) (len fmt : Nat) (enc : Bool), Tab.rising s.cores = true → Tab.rising (s.core ck).lq[q].slots = true →
        (s.core ck).lq[q].slots.get? n = some (.pending pa va len fmt enc) → ckNode ck = node → crosses ck pa.toNat →
        (t.core ck).lq[q].slots.get? n = some (.sent (.mark va 0xAC))) ∧
      (∀ dst seq q, Tab.rising (s.pkg node).outstanding = true → s.outstandingReq node dst seq = some q → ckNode q.core = node → crosses q.core q.pa →
        t.outstandingReq node dst seq = none) ∧
      ∀ x ∈ t.tagQ, x.gone = false → ¬(ckNode x.core = node ∧ crosses x.core (8 * x.word)))) ∧
  ∀ (s : State) (owner ofunc entry node func e : Nat) (v : W64), s.Inv →
    let x := s.satEntry owner ofunc entry
    ofunc ≤ 36 → func ≤ 36 → entry ≤ 255 → x.state = 1 → 0 < x.len → v.toNat % 65536 = 0 → 0xF00000000000 ≤ v.toNat → v.toNat + x.len ≤ 2 ^ 48 →
    (∀ i, i < 256 → s.satFree node func i = false →
      v.toNat + x.len ≤ (s.satEntry node func i).vbase ∨ (s.satEntry node func i).vbase + (s.satEntry node func i).len ≤ v.toNat) →
    (∀ c ∈ x.spaces, (s.pkg node).failedSw.has c.1 = false) → (List.range 256).find? (s.satFree node func) = some e → ∃ t, exec (.switchAttach owner ofunc entry node func v) s = .next t ∧
      t.satEntry node func e = { x with vbase := v.toNat } ∧ t.cores = s.cores ∧
      ∀ a, ¬(satBlock node func ≤ a ∧ a < satBlock node func + 0x4000) → t.mem.get a = s.mem.get a

/-- R43, R316 to R324, R328, R329, R333, R334: binding a slice zeroes its cores, scratchpads and channels; a stop completes once
everything has stopped, and freezes multiplies past its deadline; a save, hold, restore and resume act on the stopped slice; an endpoint
is detached and attached; teardown and release free what the slice and its function hold. Whether, and how far, a multiply is frozen is a free
choice (log entry 3). The model's own are the layout of the images that R320 leaves to the device, from which a restore takes what the
frame does not hold (log entry 21), what the endpoints of the functions are and when one's own stands in the way of an attach (log entry 37), the record of a refused bind of
a migration's target (log entry 98), the stages of the array (log entry 106), and the retries of parked rings (log entry 103). -/
def Obligations.SlicesAreBoundStoppedAndMoved : Prop :=
  ∀ (s : State) (node n : Nat) (v : W64), s.Inv → n < 36 →
    let sk := skOf node n
    let sl := s.slice sk
    let keys := (s.sliceCores sk).map (node * 256 + ·)
    let p := s.pkg node
    (∀ w : W64, (35 < w.toNat → s.bindCode node w = 5) ∧ (w.toNat = n → sl.bound = true → s.bindCode node w = 4) ∧
      (s.bindCode node w ≠ 0 →
        let u := s.setPcsr node 0x102 (BitVec.ofNat 64 (s.bindCode node w * 2 ^ 56 + w.fld 0 6))
        exec (.slbind node w) s = .next (if u.migratesTo node then u.record node (handleRec 0xD8 (BitVec.ofNat 64 node)) else u))) ∧
    (v.toNat = n → s.bindCode node v = 0 → ∃ t, exec (.slbind node v) s = .next t ∧ t.slice sk = { bound := true, fresh := true } ∧
      t.pcsr node 0x102 = BitVec.ofNat 64 n ∧ t.ylimit sk = 65536 ∧ (t.bindWord sk 7).fld 24 40 = (s.bindWord sk 7).fld 24 40 ∧
      (t.pkg node).inboxes = (if s.sliceFunc sk = 0 then p.inboxes else p.inboxes.del (s.sliceFunc sk)) ∧
      (∀ ck ∈ keys, ∀ d, (t.core ck).reg d = 0) ∧
      ∀ a, ((∃ ck ∈ keys, padBase ck ≤ a ∧ a < padBase ck + padSize) ∨
          (∃ c, c < 256 ∧ bit (s.sliceChans sk) c = true ∧ node * 2 ^ 48 + c * 2 ^ 31 ≤ a ∧ a < node * 2 ^ 48 + (c + 1) * 2 ^ 31)) → t.mem.get a = 0) ∧
    (∀ f, sl.bound = false ∨ (s.sliceFunc sk = 0 ∧ f ≤ 36 ∧ s.sliceOfFunc node f = none) → ∃ t, exec (.funcStore node n f) s = .next t ∧
      t.sliceFunc sk = f % 64 ∧ t.cores = s.cores ∧ t.slices = s.slices) ∧
    (p.stopping = none → v.fld 63 1 = 1 → v.fld 32 6 = n → sl.bound = true → ∃ t, exec (.preempt node v) s = .next t ∧
      t.slice sk = (if sl.stop = .running then { sl with stop := .stopping } else sl) ∧ (t.pkg node).stopping = some (n, s.clock) ∧
      (t.pcsr node 0x104).fld 63 1 = 1 ∧ (t.pcsr node 0x104).fld 62 1 = 0 ∧ (t.pcsr node 0x104).fld 0 32 = v.fld 0 32 ∧
      .event (.stopComplete node n) ∈ t.agenda ∧ t.cores = s.cores ∧ t.mem = s.mem) ∧
    (∀ t0, p.stopping = some (n, t0) → s.deadlinePassed node t0 = false →
      (keys.all s.coreStopped = true → ∃ t, exec (.stopComplete node n) s = .next t ∧ (t.pkg node).stopping = none ∧
        (t.pcsr node 0x104).fld 63 1 = 0 ∧ t.cores = s.cores ∧ (sl.stop = .stopping ∨ sl.stop = .freezing → (t.slice sk).stop = .stopped)) ∧
      (keys.all s.coreStopped = false → exec (.stopComplete node n) s = .next (s.wake (.event (.stopComplete node n))))) ∧
    (∀ core t0 e, (s.core (node * 256 + core)).slice = some sk → core < 144 → p.stopping = some (n, t0) → sl.stop = .stopping ∨ sl.stop = .freezing →
      s.deadlinePassed node t0 = true → ({ s with cur := node * 256 + core } : State).canFreeze = some e →
      0 < shMPAD e.shape + shStages e.shape + shNPAD e.shape → ∃ t, exec (.freeze node core) s = .next t ∧ (t.slice sk).stop = .freezing ∧
        (Config.freeBool s.nondet = true → (t.core (node * 256 + core)).mat.frozen = some (freezeAt
            ((s.core (node * 256 + core)).mat.tile (e.word.fld 24 3)) ((s.core (node * 256 + core)).mat.tile (e.word.fld 21 3)) e.shape e.seq
            (Config.freeNat (s.nondet + 1) % (shMPAD e.shape + shStages e.shape + shNPAD e.shape))) ∧ (t.pcsr node 0x104).fld 62 1 = 1) ∧
        (Config.freeBool s.nondet = false →
          t = { s.putSlice sk { sl with stop := .freezing } with cur := node * 256 + core, nondet := s.nondet + 1 })) ∧
    (p.ctxop = none → ctxSlice v = n → sl.bound = true →
      (sl.stop = .stopped ∨ sl.stop = .held → ∀ (i : Instr) (d : Bool), (i, d) ∈ [(Instr.ctxopSave node v, false), (.ctxopHold node v, true)] →
        ∃ t, exec i s = .next t ∧ (t.pkg node).ctxop = some (1, n, ctxBase v, d) ∧ (t.pcsr node 0x105).fld 56 8 = 1 ∧
          .event (.contextSaveDone node) ∈ t.agenda ∧ t.cores = s.cores ∧ t.mem = s.mem ∧ t.slices = s.slices) ∧
      (sl.stop ≠ .stopped → sl.stop ≠ .held → ∀ i ∈ [Instr.ctxopSave node v, .ctxopHold node v], ∃ t, exec i s = .next t ∧
        (t.pcsr node 0x105).fld 56 8 = 5 ∧ t.cores = s.cores ∧ t.mem = s.mem ∧ t.slices = s.slices) ∧
      (sl.stop = .stopped → s.sliceFunc sk = 0 ∨ s.retriesLeft sk = false → ∃ u, (u.pcsr node 0x105).fld 56 8 = 0 ∧ u = s.setPcsr node 0x105 (u.pcsr node 0x105) ∧
        exec (.ctxopResume node v) s = .next (u.runSlice sk)) ∧
      (sl.stop = .stopped → s.sliceFunc sk ≠ 0 → s.retriesLeft sk = true → ∃ t, exec (.ctxopResume node v) s = .next t ∧
        (t.pkg node).ctxop = some (2, n, ctxBase v, false) ∧ .event (.contextRestoreDone node) ∈ t.agenda ∧ t.slices = s.slices) ∧
      (sl.stop ≠ .stopped → ∃ t, exec (.ctxopResume node v) s = .next t ∧ (t.pcsr node 0x105).fld 56 8 = 6 ∧ t.slices = s.slices) ∧
      (s.noThread sk = false → ∃ t, exec (.ctxopRestore node v) s = .next t ∧ (t.pcsr node 0x105).fld 56 8 = 5 ∧ t.slices = s.slices) ∧
      (s.noThread sk = true → ∀ (b : List Byte) (u : State) (areas : List Area) (w : State) (x : Slice × Inbox) (y : State),
        s.imageBytes node (ctxBase v) 64 = (some b, u) → wordAt b 0 = imageMark → (wordAt b 3).toNat = keys.length →
        u.readAreas node (ctxBase v) (if p.uv720 then 32 else 64) (List.range keys.length) = (.ok areas, w) →
        w.readSlice node (ctxBase v) b = (some x, y) → y.sliceCores sk = s.sliceCores sk → areas.length = keys.length →
        ∃ t, exec (.ctxopRestore node v) s = .next t ∧ (t.slice sk).bound = true ∧ (t.slice sk).stop = .stopped ∧ (t.slice sk).slots = x.1.slots ∧
          (t.slice sk).active = x.1.active ∧ (t.slice sk).waiting = x.1.waiting ∧ (t.slice sk).reqs = x.1.reqs ∧
          (t.pkg node).ctxop = some (2, n, ctxBase v, (wordAt b 4).toNat != node) ∧ .event (.contextRestoreDone node) ∈ t.agenda ∧
          ∀ (i ck : Nat) (a : Area), keys[i]? = some ck → areas[i]? = some a → (t.core ck).pc = wordAt a.frame 1 ∧
            ∀ d : BitVec 5, d ≠ 0 → (t.core ck).reg d = wordAt a.frame (8 + d.toNat))) ∧
    (∀ base discard, p.ctxop = some (1, n, base, discard) →
      let synced := keys.foldl (fun s ck => s.syncRings ck) s
      let woken := keys.foldl (fun (s : State) ck => s.putCore ck { s.core ck with vec := { (s.core ck).vec with gated := [] } }) synced
      ∀ ok w, woken.saveAll node (woken.saveList sk base) = (ok, w) → ∃ t, exec (.contextSaveDone node) s = .next t ∧
        (t.pcsr node 0x105).fld 56 8 = (if ok then 0 else 4) ∧
        (ok = true → discard = false → (t.slice sk).saved = some base ∧ ((t.slice sk).kept = true ↔ (w.slice sk).stop = .stopped))) ∧
    (∀ base moved, p.ctxop = some (2, n, base, moved) →
      let later (s : State) : State := s.wake (.event (.contextRestoreDone node))
      let retrying : Bool := s.sliceFunc sk ≠ 0 && (s.sliceCores sk).any fun m => [0, 1, 2].any fun r => ((s.core (node * 256 + m)).ring r).retry == 1
      (moved = true → exec (.contextRestoreDone node) s =
        .next (later ((s.putPkg node { p with ctxop := some (2, n, base, false) }).eachRing sk State.startRetry))) ∧
      (moved = false → retrying = true → exec (.contextRestoreDone node) s = .next (later s)) ∧
      (moved = false → retrying = false →
        let u := s.eachRing sk State.passRetry
        let v := u.putPkg node { u.pkg node with ctxop := none }
        ∃ t, exec (.contextRestoreDone node) s = .next t ∧ (t.pcsr node 0x105).fld 56 8 = 0 ∧
          t = ((v.putSlice sk { v.slice sk with await := false }).runSlice sk).setPcsr node 0x105 (t.pcsr node 0x105))) ∧
    (let func := v.fld 48 6
     let ep := v.fld 0 48
     (v.fld 54 2 = 1 → 0 < func → func ≤ 36 →
        ((∀ k, s.sliceOfFunc node func = some k → (s.slice k).saved = none) →
          (p.endpoints.get? ep = some func → ∃ t, exec (.epbindDetach node v) s = .next t ∧
            (t.pkg node).endpoints = p.endpoints.del ep ∧ (t.pcsr node 0x106).fld 56 8 = 0 ∧ t.cores = s.cores ∧ t.mem = s.mem) ∧
          (p.endpoints.get? ep = none → s.ownFunc node ep = some func → ∃ t, exec (.epbindDetach node v) s = .next t ∧
            (t.pkg node).ownGone.has func = true ∧ (t.pcsr node 0x106).fld 56 8 = 0 ∧ t.cores = s.cores ∧ t.mem = s.mem)) ∧
        (∀ k base u, s.sliceOfFunc node func = some k → (s.slice k).saved = some base → s.saveInbox node base (s.inbox node func) = (true, u) →
          p.endpoints.get? ep = some func → (u.pkg node).endpoints.get? ep = some func → ∃ t, exec (.epbindDetach node v) s = .next t ∧
          (t.pkg node).endpoints = (u.pkg node).endpoints.del ep ∧ (t.pcsr node 0x106).fld 56 8 = 0 ∧ t.mem = u.mem) ∧
        (p.endpoints.get? ep ≠ some func → p.endpoints.get? ep ≠ none ∨ s.ownFunc node ep ≠ some func →
          ∃ t, exec (.epbindDetach node v) s = .next t ∧ (t.pcsr node 0x106).fld 56 8 = 2 ∧ t.cores = s.cores ∧ t.slices = s.slices)) ∧
     (v.fld 54 2 = 2 → 0 < func → func ≤ 36 →
        (s.sliceOfFunc node func = some sk → (∀ e ∈ p.endpoints, e.2 ≠ func) → p.ownGone.has func = true ∨ sl.fresh = true →
          p.endpoints.get? ep = none → s.ownFunc node ep = none →
          ∃ t, exec (.epbindAttach node v) s = .next t ∧ (t.pkg node).endpoints = p.endpoints.put ep func ∧
            t.slice sk = { sl with await := true } ∧ (t.pcsr node 0x106).fld 56 8 = 0 ∧ t.cores = s.cores ∧ t.mem = s.mem) ∧
        (s.sliceOfFunc node func = none → ∃ t, exec (.epbindAttach node v) s = .next t ∧ (t.pcsr node 0x106).fld 56 8 = 2 ∧
          t.cores = s.cores ∧ t.slices = s.slices))) ∧
    (∀ w : W64, w.fld 0 6 = n →
      (sl.bound = false → (∃ t, exec (.slfree node w) s = .next t ∧ (t.pcsr node 0x107).fld 56 8 = 2 ∧ t.slices = s.slices ∧ t.mem = s.mem) ∧
        ∃ t, exec (.fnfree node w) s = .next t ∧ (t.pcsr node 0x108).fld 56 8 = 2 ∧ t.slices = s.slices ∧ t.mem = s.mem) ∧
      (sl.bound = true → s.sliceRuns sk = true → ∃ t, exec (.fnfree node w) s = .next t ∧ (t.pcsr node 0x108).fld 56 8 = 3 ∧ t.mem = s.mem) ∧
      (s.fnfreeWaits node w = true → exec (.fnfree node w) s = .next (s.wake (.event (.fnfree node w)))) ∧
      (sl.bound = true → s.sliceRuns sk = false → s.fnfreeWaits node w = false → ∃ t, exec (.fnfree node w) s = .next t ∧ (t.pcsr node 0x108).fld 56 8 = 0 ∧
        ∀ sw, sw < 18 → s.sliceFunc sk ≠ 0 → t.word (quotaAddr node (s.sliceFunc sk) sw) = 0) ∧
      (sl.bound = true → sl.stop ≠ .ending → (s.slfreeBegin node n).slfreeWaits node n = true →
        exec (.slfree node w) s = .next ((s.slfreeBegin node n).wake (.teardown node w))) ∧
      (sl.bound = true → sl.stop ≠ .ending → (s.slfreeBegin node n).slfreeWaits node n = false → s.transfers = [] →
        ∃ t, exec (.slfree node w) s = .next t ∧ (t.pcsr node 0x107).fld 56 8 = 0 ∧
        t.bindWord sk 0 = 0 ∧ ∀ a,
          (∃ c, c < 256 ∧ bit ((s.slfreeBegin node n).sliceChans sk) c = true ∧ node * 2 ^ 48 + c * 2 ^ 31 ≤ a ∧
            a < node * 2 ^ 48 + (c + 1) * 2 ^ 31) → t.mem.get a = 0))

/-- R336, R337, R340 to R344: package reset and the boot; management messages; keys that are loaded and erased; the debug unlock; the
restart of the Handle pair and of a worker. The contents of SPDM messages that the spec does not fix are free values (log entry 62);
the registers of a restarted core are free values (log entry 3), and its TRAPSTAT is cleared (log entry 26). The model's own are SHA-512 and
Ed25519 as opaque functions (log entry 5), the fuse rows and the debug key as opaque constants (log entry 6), the worker's limit as an opaque
number (log entry 8), the MAGIC of a debug token unchecked (log entry 55), the places of the images in the flash (log entry 60), the layout
of an operator command's signed body (log entry 63), the order of binding and key delivery (log entry 27), and that the key of a tenant
that is delivered goes through KEYCTL as a load does, which leaves STATUS 0 there (log entry 100). -/
def Obligations.FirmwareStartsAndAnswers : Prop :=
  ∀ (s : State) (node : Nat),
    let p := s.pkg node
    (node < 144 → ∀ u i v, (((s.clearPackage node).readFuses node).resetFaults node).drawNonce node = u → u.bootImages node [0, 1, 2, 3] = (i, v) →
      ∃ t, exec (.packageReset node) s = .next t ∧
        (∀ k, i = some k → k < 4 → (t.bootStat node).fld 8 8 = k ∧ t.cores = v.cores ∧ (t.pkg node).booted = (v.pkg node).booted) ∧
        (i = none → (t.pkg node).booted = true ∧ (t.core (node * 256 + 144)).run = .running ∧ (t.bootStat node).fld 8 8 = 0xFF ∧
          (t.core (node * 256 + 144)).pc = (v.pkg node).imageEntry 0 ∧ .core (node * 256 + 144) ∈ t.agenda)) ∧
    (p.booted = true → ∀ (ep code : Nat) (w : W64),
      (code = 0xE0 → 1 ≤ w.toNat → w.toNat ≤ 16 → exec (.spdmMessage node ep code w) s =
        .next (s.sendMgmt node ep (0x60 :: w :: words512 p.mr[Fin.ofNat 16 (w.toNat - 1)]))) ∧
      (code = 0x83 → exec (.spdmMessage node ep code w) s = .next (({ s with nondet := s.nondet + 1 } : State).sendMgmt node ep
        (0x03 :: s.pcsr node 0x180 :: Config.freeW64 s.nondet :: words512 p.mr[15]))) ∧
      (code ∉ [0x84, 0xE1, 0xE3, 0x81, 0x82, 0x83, 0xE0, 0xE4, 0xE5, 0xEC] → exec (.spdmMessage node ep code w) s =
        .next ((s.record node (handleRec 0xF6 (BitVec.ofNat 64 code))).sendMgmt node ep [0x7F])) ∧
      (∀ x, code = 0xE5 → p.sessions.find? (·.ep == ep) = some x → ∃ (t : State) (h : BitVec 512), exec (.spdmMessage node ep code w) s = .next t ∧
        (t.pkg node).sessions = p.sessions.filter (·.ep ≠ x.ep) ++ [{ x with hash := h, established := true }] ∧ t.out.length = s.out.length + 1)) ∧
    (p.booted = true → ∀ (ep kind : Nat) (key : BitVec 256) (cseq hdr : W64) (body : List W64) (image : List Byte) (sig : BitVec 512) (x : Session),
      p.session ep = some x →
      let allowed (m : List Byte) : Prop := (∃ b : Bool, Config.opKey b ≠ 0 ∧ Config.opKey b = Config.sha512 (leBytes 32 key.toNat)) ∧
        Config.ed25519 key (leBytes 64 (Config.sha512 (leBytes 64 x.hash.toNat ++ wordBytes cseq ++ m)).toNat) sig = true ∧
        ∀ l, x.lastSeq = some l → l < cseq.toNat
      let seen := s.putPkg node (p.setSession { x with lastSeq := some cseq.toNat })
      (allowed (wordBytes (BitVec.ofNat 64 kind) ++ body.flatMap wordBytes) →
        exec (.operatorCommand node ep kind key cseq body sig) s = .next (seen.operatorDo node ep kind body)) ∧
      (¬allowed (wordBytes (BitVec.ofNat 64 kind) ++ body.flatMap wordBytes) →
        exec (.operatorCommand node ep kind key cseq body sig) s = .next (s.record node (handleRec 0xFB 0))) ∧
      (hdr.fld 0 8 = 3 → allowed image → imageFormed image = true → ∃ t, exec (.imageWrite node ep key cseq hdr image sig) s = .next t ∧
        (t.pkg node).flash = p.flash.write (imageOff (leNat ((image.drop 8).take 8))) image ∧ t.mem = s.mem ∧ t.cores = s.cores) ∧
      (hdr.fld 0 8 = 3 → ¬allowed image ∨ imageFormed image = false →
        exec (.imageWrite node ep key cseq hdr image sig) s = .next (s.record node (handleRec 0xFB 0)))) ∧
    (∀ (ep : Nat) (key : BitVec 256) (cseq hdr : W64) (image : List Byte) (sig : BitVec 512), hdr.fld 0 8 ≠ 3 →
      exec (.imageWrite node ep key cseq hdr image sig) s = .next s) ∧
    (p.booted = true → ∀ (ep func sk : Nat) (key : BitVec 512) (x : Session), p.session ep = some x → s.sliceOfFunc node func = some sk →
      0 < func → func ≤ 36 → x.func = func → p.keys.get? (skNum sk) = none → skNum sk ≤ 36 → (s.pcsr node 0x180).fld 0 2 ≠ 3 →
      key.fld 0 256 ≠ key.fld 256 256 → s.sliceFunc sk ≠ 0 → ∃ t, exec (.tenantKeyDelivery node ep func key) s = .next t ∧
        (t.pkg node).keys = p.keys.put (skNum sk) key ∧ (t.pcsr node 0x186).fld 56 8 = 0 ∧ t.mem = s.mem ∧ t.cores = s.cores) ∧
    (∀ (v : W64) bs u, v.fld 6 2 = 1 → s.keyBarred node (v.fld 0 6) = false →
      s.handleRead node (s.pcsr node 0x187).toNat 64 = (some bs, u) → u.keyBarred node (v.fld 0 6) = false → bs.take 32 ≠ bs.drop 32 → ∃ t, exec (.keyctlLoad node v) s = .next t ∧
        (t.pkg node).keys = (u.pkg node).keys.put (v.fld 0 6) (BitVec.ofNat 512 (leNat bs)) ∧ (t.pcsr node 0x186).fld 56 8 = 0) ∧
    (∀ v : W64, v.fld 6 2 = 2 → ∃ t, exec (.keyctlErase node v) s = .next t ∧ (t.pkg node).keys = p.keys.del (v.fld 0 6) ∧
      (t.pcsr node 0x186).fld 56 8 = 0 ∧ t.mem = s.mem ∧ t.cores = s.cores) ∧
    (∀ (v : W64) bs sig u w, s.handleRead node (v.fld 0 48) 64 = (some bs, u) → u.handleRead node (v.fld 0 48 + 64) 64 = (some sig, w) →
      let good := (∀ n, n < 36 → (s.slice (skOf node n)).bound = false) ∧
        Config.ed25519 Config.debugKey bs (BitVec.ofNat 512 (leNat sig)) = true ∧ leNat ((bs.drop 8).take 16) = (Config.devId node).toNat ∧
        bytesWord (bs.drop 0x20) = w.pcsr node 0x188 ∧ (bytesWord (bs.drop 0x18)).toNat = (s.pcsr node 0x180).fld 0 2 ∧
        ((s.pcsr node 0x180).fld 0 2 = 1 ∨ (s.pcsr node 0x180).fld 0 2 = 2)
      (good → ∃ t, exec (.debugUnlock node v) s = .next t ∧ (t.pkg node).keys = [] ∧ (t.pcsr node 0x180) = 2 ∧ (t.pkg node).debugOpen = true ∧
        (t.pcsr node 0x189).fld 56 8 = 0) ∧
      (¬good → ∃ t, exec (.debugUnlock node v) s = .next t ∧ (t.pcsr node 0x189).fld 56 8 = 2 ∧ (t.pkg node).keys = (w.pkg node).keys ∧
        t.pcsr node 0x180 = w.pcsr node 0x180)) ∧
    (s.bootFailed node = true → exec (.lockstepMismatch node) s = .next s) ∧
    (s.bootFailed node = false → ∃ t, exec (.lockstepMismatch node) s = .next t ∧ (t.core (node * 256 + 144)).run = .running ∧
      (t.core (node * 256 + 144)).pc = p.imageEntry 0 ∧ (t.core (node * 256 + 144)).trapH = false ∧
      (∀ f, (t.inbox node f).entries = (Tab.getD (p.inboxes.mapVals Inbox.saved) f {}).entries) ∧
      ∀ k, k ≠ node * 256 + 144 → t.core k = s.core k) ∧
    (∀ worker, (∀ c ∈ p.taken, c.1 = worker → s.clock - c.2.1 < Config.workerLimit) → exec (.workerTimeout node worker) s = .next s) ∧
    (∀ worker t0 e x, (worker, t0, e) ∈ p.taken → Config.workerLimit ≤ s.clock - t0 → (s.inbox node (e / 256)).entries.get? (e % 256) = some x →
      ∃ t, exec (.workerTimeout node worker) s = .next t ∧ (t.core (node * 256 + worker)).pc = p.imageEntry 1 ∧
        (t.core (node * 256 + worker)).run = .running ∧ (t.pkg node).taken = p.taken.filter (·.1 ≠ worker) ∧
        (t.inbox node (e / 256)).entries.get? (e % 256) = some { x with inhand := false, reprise := true })

/-! ### Decoding, stepping, invariants -/

/-- R99, R105 to R107: an encoded well-formed instruction decodes to itself, with every operand it has: an access instruction from
the bytes at the head of any byte string, an engine instruction from its one word; an event has no words. -/
def Obligations.DecodingAnEncodedInstructionGivesItBack : Prop :=
  ∀ i : Instr, i.wf = true → match i.stream with
    | .access => ∀ rest, decode ((encode i).flatMap bytesOfWord ++ rest) = .ok (i, rest)
    | .vector => ∃ w, encode i = [w] ∧ decodeVector w = .ok i
    | .matrix => ∃ w, encode i = [w] ∧ decodeMatrix w = .ok i
    | .copy => ∃ w, encode i = [w] ∧ decodeCopy w = .ok i
    | .event => encode i = []

/-- R99, R105 to R109, R112 to R114: what a decoder admits is a well-formed instruction of its stream, and encoding it gives the
word, or the bytes, that were decoded: no bit is dropped, and no reserved or out-of-range field is admitted. -/
def Obligations.DecodedWordsAreWellFormed : Prop :=
  (∀ (w : W32) (i : Instr), decodeVector w = .ok i → i.wf = true ∧ i.stream = .vector ∧ encode i = [w]) ∧
  (∀ (w : W32) (i : Instr), decodeMatrix w = .ok i → i.wf = true ∧ i.stream = .matrix ∧ encode i = [w]) ∧
  (∀ (w : W32) (i : Instr), decodeCopy w = .ok i → i.wf = true ∧ i.stream = .copy ∧ encode i = [w]) ∧
  ∀ (bs rest : List Byte) (i : Instr), decode bs = .ok (i, rest) → i.wf = true ∧ i.stream = .access ∧ bs = (encode i).flatMap bytesOfWord ++ rest

/-- R105 to R107, R109, Tables 7.2 to 7.9 and 7.11: words of the spec decode to the instructions they stand for, and the pair of R109's
example fails with illegal bank. -/
def Obligations.WordsOfTheSpecDecode : Prop :=
  decodeTableWord 32 0x02421880 = some (.addI64 4 4 6 1) ∧ decodeTableWord 32 0x10300008 = some (.addiI64 3 0 0 8) ∧
  decodeTableWord 32 0x04101802 = some (.cmpLtI64 1 0 6 0) ∧ decodeTableWord 32 0x36018004 = some (.loop 3 0 4) ∧
  decodeTableWord 32 0x309FFFFC = some (.br 2 0 0x1FFFFC) ∧ decodeTableWord 32 0x7083C801 = some (.setshapeV 8 7 0x12 0 1) ∧
  decodeTableWord 32 0x60C2B0C2 = some (.ldwfW64 3 5 12 6) ∧
  decodeAccess 0x8180094B 0x04004000 0 = .ok (.enqueuePrefix 3 0 1 0 10 11 0x04004000 0) ∧
  decodeCopy 0x04004000 = .ok (.cldHbm 0 0 0 0 0x4000) ∧ decodeVector 0x170C3121 = .ok (.vfmaF32TMultiplier 0x30 0x30 0x31 1 0 1) ∧
  decodeMatrix 0x08000000 = .ok (.mld 0 0 0) ∧ decodeMatrix 0x28200000 = .ok (.mmulOvw 0 1 0 0 0) ∧
  decodeMatrix 0x90000001 = .ok (.mst 0 0 0 0 1) ∧ decodeVector 0x04008420 = .error .bank

/-- R99, R110: one step. With an empty agenda the acting core fetches the instruction at its program counter and executes it, or takes the
encoding trap that decoding gives, or the trap of a posted store's error response that has come back (log entry 14); on a core that works at
physical addresses this is the word that stands in memory. A timed wait that has begun goes on with its instruction, not fetched again
(R233). A core or a ring whose turn it is acts first; a ring's head entry is executed when nothing holds it; an event is executed as it
stands, and a teardown that waits goes on (R333). Time passes by what the environment gives, and the order of turns is the model's own (log
entry 10). -/
def Obligations.AStepRunsTheDecodedInstruction : Prop :=
  ∀ s : State,
    let u := s.tick
    (∀ va l, s.agenda = [] → u.fetches = true → s.me.pushHeld = none → s.me.wait = none → s.me.lateErr = va :: l →
      step s = .next (((u.setMe { u.me with lateErr := l }).copyFailed va).trap 0x60 va)) ∧
    (∀ w i, s.agenda = [] → u.fetches = true → s.me.pushHeld = none → s.me.wait = some w → decodeAccess w.word 0 0 = .ok i → step s = exec i u) ∧
    (s.agenda = [] → u.fetches = true → s.me.pushHeld = none → s.me.wait = none → s.me.lateErr = [] →
      ∀ w w1 w2 v, u.fetchInstr = .ok (w, w1, w2) v →
      (∀ i, decodeAccess w w1 w2 = .ok i → step s = exec i v) ∧
      (∀ c, decodeAccess w w1 w2 = .error c → step s = .next (v.trap c.code (w.setWidth 64)))) ∧
    (s.agenda = [] → u.fetches = true → s.me.pushHeld = none → s.me.wait = none → s.me.lateErr = [] → s.me.slice = none → s.me.icache = [] →
      s.enc = [] → s.poison = [] → s.soft = [] → s.me.upsets = [] →
      let pa := normPa s.node s.pc.toNat
      pa / 2 ^ 48 = s.node ∨ 2 ^ 56 ≤ pa →
      let w : W32 := BitVec.ofNat 32 (leNat (s.mem.read pa 4))
      u.homeRefuses (u.party u.cur) pa 4 0 false = none → w.toNat / 2 ^ 25 ≠ 0x40 →
      ∀ i, decodeAccess w 0 0 = .ok i → step s = exec i (u.setMe { u.me with icache := [(pa, w)] })) ∧
    (∀ ck l w w1 w2 v, s.agenda = .core ck :: l →
      let x : State := { u with agenda := l, cur := ck }
      x.fetches = true → x.me.pushHeld = none → x.me.wait = none → x.me.lateErr = [] → (x.wake (.core ck)).fetchInstr = .ok (w, w1, w2) v →
      ∀ i, decodeAccess w w1 w2 = .ok i → step s = exec i v) ∧
    (∀ ck r l e q, s.agenda = .ring ck r :: l →
      let x : State := { u with agenda := l, cur := ck }
      let y := x.setMe (x.me.openWindow r e)
      (x.ring r).queue = e :: q → (x.ring r).retry = 0 → x.ringHeld r e = false → e.stale = false →
      e.finished = false → s.poison = [] → s.soft = [] → e.waitk = 0 → x.me.randHolds r e = false → x.me.partHolds r e = false →
      y.aheadOf r e = none → ∀ i, decodeEngine r e.word = .ok i → step s = exec i y) ∧
    (∀ node v l, s.agenda = .teardown node v :: l → step s = .next (({ u with agenda := l } : State).slfreeTurn node v)) ∧
    (∀ i l, s.agenda = .event i :: l → step s = exec i { u with agenda := l })

/-- R4, R59, R237: a step keeps memory in its canonical form, one value at each address, and the full tags a set. -/
def Obligations.EveryStepKeepsTheInvariant : Prop := ∀ s t : State, s.Inv → step s = .next t → t.Inv

/-- R337, R11, R24, R26, R147, R235: right after reset the pod runs nothing: no core has a thread, no slice is bound, no slot is loaded,
tokens, call depth, READY and completions are empty or 0, and the invariant of every step holds. -/
def Obligations.ResetLeavesAnEmptyPod : Prop :=
  State.reset.Inv ∧
  ∀ (ck sk node k : Nat), (State.reset.core ck).run = .idle ∧ (State.reset.core ck).rstk = [] ∧ (State.reset.core ck).cdepth = 0 ∧
    (State.reset.core ck).loops = [] ∧ ((State.reset.core ck).token k).value = 0 ∧ (State.reset.slice sk).bound = false ∧
    ((State.reset.slice sk).model k).state = .empty ∧ (State.reset.slice sk).group k = [] ∧ (State.reset.inbox node k).next = 0 ∧
    (State.reset.pkg node).ready = 0 ∧ State.reset.out = []
end

