-- ==== Sys2Proof/Laws/Dispatch.lean ====
section
/-!
SUPPORT. One equation per constructor: exec runs the meaning of the instruction.
-/
namespace Sys2Proof.Machine

theorem exec_addI64 (d : BitVec 5) (a : BitVec 5) (b : BitVec 5) (g : BitVec 3) (s : State) : exec (.addI64 d a b g) s = execAddI64 d a b g s := by with_unfolding_all rfl
theorem exec_subI64 (d : BitVec 5) (a : BitVec 5) (b : BitVec 5) (g : BitVec 3) (s : State) : exec (.subI64 d a b g) s = execSubI64 d a b g s := by with_unfolding_all rfl
theorem exec_mulI64 (d : BitVec 5) (a : BitVec 5) (b : BitVec 5) (g : BitVec 3) (s : State) : exec (.mulI64 d a b g) s = execMulI64 d a b g s := by with_unfolding_all rfl
theorem exec_mulhI64 (d : BitVec 5) (a : BitVec 5) (b : BitVec 5) (g : BitVec 3) (s : State) : exec (.mulhI64 d a b g) s = execMulhI64 d a b g s := by with_unfolding_all rfl
theorem exec_mulhW64 (d : BitVec 5) (a : BitVec 5) (b : BitVec 5) (g : BitVec 3) (s : State) : exec (.mulhW64 d a b g) s = execMulhW64 d a b g s := by with_unfolding_all rfl
theorem exec_divI64 (d : BitVec 5) (a : BitVec 5) (b : BitVec 5) (g : BitVec 3) (s : State) : exec (.divI64 d a b g) s = execDivI64 d a b g s := by with_unfolding_all rfl
theorem exec_divW64 (d : BitVec 5) (a : BitVec 5) (b : BitVec 5) (g : BitVec 3) (s : State) : exec (.divW64 d a b g) s = execDivW64 d a b g s := by with_unfolding_all rfl
theorem exec_remI64 (d : BitVec 5) (a : BitVec 5) (b : BitVec 5) (g : BitVec 3) (s : State) : exec (.remI64 d a b g) s = execRemI64 d a b g s := by with_unfolding_all rfl
theorem exec_andW64 (d : BitVec 5) (a : BitVec 5) (b : BitVec 5) (g : BitVec 3) (s : State) : exec (.andW64 d a b g) s = execAndW64 d a b g s := by with_unfolding_all rfl
theorem exec_orW64 (d : BitVec 5) (a : BitVec 5) (b : BitVec 5) (g : BitVec 3) (s : State) : exec (.orW64 d a b g) s = execOrW64 d a b g s := by with_unfolding_all rfl
theorem exec_xorW64 (d : BitVec 5) (a : BitVec 5) (b : BitVec 5) (g : BitVec 3) (s : State) : exec (.xorW64 d a b g) s = execXorW64 d a b g s := by with_unfolding_all rfl
theorem exec_shlI64 (d : BitVec 5) (a : BitVec 5) (b : BitVec 5) (g : BitVec 3) (s : State) : exec (.shlI64 d a b g) s = execShlI64 d a b g s := by with_unfolding_all rfl
theorem exec_shrW64 (d : BitVec 5) (a : BitVec 5) (b : BitVec 5) (g : BitVec 3) (s : State) : exec (.shrW64 d a b g) s = execShrW64 d a b g s := by with_unfolding_all rfl
theorem exec_sraI64 (d : BitVec 5) (a : BitVec 5) (b : BitVec 5) (g : BitVec 3) (s : State) : exec (.sraI64 d a b g) s = execSraI64 d a b g s := by with_unfolding_all rfl
theorem exec_cmpEqI64 (d : BitVec 3) (a : BitVec 5) (b : BitVec 5) (g : BitVec 3) (s : State) : exec (.cmpEqI64 d a b g) s = execCmpEqI64 d a b g s := by with_unfolding_all rfl
theorem exec_cmpNeI64 (d : BitVec 3) (a : BitVec 5) (b : BitVec 5) (g : BitVec 3) (s : State) : exec (.cmpNeI64 d a b g) s = execCmpNeI64 d a b g s := by with_unfolding_all rfl
theorem exec_cmpLtI64 (d : BitVec 3) (a : BitVec 5) (b : BitVec 5) (g : BitVec 3) (s : State) : exec (.cmpLtI64 d a b g) s = execCmpLtI64 d a b g s := by with_unfolding_all rfl
theorem exec_cmpGeI64 (d : BitVec 3) (a : BitVec 5) (b : BitVec 5) (g : BitVec 3) (s : State) : exec (.cmpGeI64 d a b g) s = execCmpGeI64 d a b g s := by with_unfolding_all rfl
theorem exec_cmpLtW64 (d : BitVec 3) (a : BitVec 5) (b : BitVec 5) (g : BitVec 3) (s : State) : exec (.cmpLtW64 d a b g) s = execCmpLtW64 d a b g s := by with_unfolding_all rfl
theorem exec_cmpGeW64 (d : BitVec 3) (a : BitVec 5) (b : BitVec 5) (g : BitVec 3) (s : State) : exec (.cmpGeW64 d a b g) s = execCmpGeW64 d a b g s := by with_unfolding_all rfl
theorem exec_pand (d : BitVec 3) (a : BitVec 3) (b : BitVec 3) (g : BitVec 3) (s : State) : exec (.pand d a b g) s = execPand d a b g s := by with_unfolding_all rfl
theorem exec_por (d : BitVec 3) (a : BitVec 3) (b : BitVec 3) (g : BitVec 3) (s : State) : exec (.por d a b g) s = execPor d a b g s := by with_unfolding_all rfl
theorem exec_pxor (d : BitVec 3) (a : BitVec 3) (b : BitVec 3) (g : BitVec 3) (s : State) : exec (.pxor d a b g) s = execPxor d a b g s := by with_unfolding_all rfl
theorem exec_pandn (d : BitVec 3) (a : BitVec 3) (b : BitVec 3) (g : BitVec 3) (s : State) : exec (.pandn d a b g) s = execPandn d a b g s := by with_unfolding_all rfl
theorem exec_pset (d : BitVec 3) (a : BitVec 5) (g : BitVec 3) (s : State) : exec (.pset d a g) s = execPset d a g s := by with_unfolding_all rfl
theorem exec_pget (d : BitVec 5) (a : BitVec 3) (g : BitVec 3) (s : State) : exec (.pget d a g) s = execPget d a g s := by with_unfolding_all rfl
theorem exec_addiI64 (d : BitVec 5) (a : BitVec 5) (g : BitVec 3) (imm : BitVec 12) (s : State) : exec (.addiI64 d a g imm) s = execAddiI64 d a g imm s := by with_unfolding_all rfl
theorem exec_andiW64 (d : BitVec 5) (a : BitVec 5) (g : BitVec 3) (imm : BitVec 12) (s : State) : exec (.andiW64 d a g imm) s = execAndiW64 d a g imm s := by with_unfolding_all rfl
theorem exec_oriW64 (d : BitVec 5) (a : BitVec 5) (g : BitVec 3) (imm : BitVec 12) (s : State) : exec (.oriW64 d a g imm) s = execOriW64 d a g imm s := by with_unfolding_all rfl
theorem exec_xoriW64 (d : BitVec 5) (a : BitVec 5) (g : BitVec 3) (imm : BitVec 12) (s : State) : exec (.xoriW64 d a g imm) s = execXoriW64 d a g imm s := by with_unfolding_all rfl
theorem exec_shliI64 (d : BitVec 5) (a : BitVec 5) (g : BitVec 3) (imm : BitVec 6) (s : State) : exec (.shliI64 d a g imm) s = execShliI64 d a g imm s := by with_unfolding_all rfl
theorem exec_shriW64 (d : BitVec 5) (a : BitVec 5) (g : BitVec 3) (imm : BitVec 6) (s : State) : exec (.shriW64 d a g imm) s = execShriW64 d a g imm s := by with_unfolding_all rfl
theorem exec_sraiI64 (d : BitVec 5) (a : BitVec 5) (g : BitVec 3) (imm : BitVec 6) (s : State) : exec (.sraiI64 d a g imm) s = execSraiI64 d a g imm s := by with_unfolding_all rfl
theorem exec_li (d : BitVec 5) (imm : BitVec 20) (s : State) : exec (.li d imm) s = execLi d imm s := by with_unfolding_all rfl
theorem exec_lea (d : BitVec 5) (a : BitVec 4) (g : BitVec 3) (imm : BitVec 12) (s : State) : exec (.lea d a g imm) s = execLea d a g imm s := by with_unfolding_all rfl
theorem exec_bxlen (d : BitVec 5) (a : BitVec 4) (g : BitVec 3) (s : State) : exec (.bxlen d a g) s = execBxlen d a g s := by with_unfolding_all rfl
theorem exec_br (g : BitVec 3) (n : BitVec 1) (imm : BitVec 21) (s : State) : exec (.br g n imm) s = execBr g n imm s := by with_unfolding_all rfl
theorem exec_call (g : BitVec 3) (n : BitVec 1) (imm : BitVec 21) (s : State) : exec (.call g n imm) s = execCall g n imm s := by with_unfolding_all rfl
theorem exec_jr (a : BitVec 5) (g : BitVec 3) (s : State) : exec (.jr a g) s = execJr a g s := by with_unfolding_all rfl
theorem exec_ret (g : BitVec 3) (s : State) : exec (.ret g) s = execRet g s := by with_unfolding_all rfl
theorem exec_loop (a : BitVec 5) (g : BitVec 3) (imm : BitVec 12) (s : State) : exec (.loop a g imm) s = execLoop a g imm s := by with_unfolding_all rfl
theorem exec_ldW8 (d : BitVec 5) (a : BitVec 5) (g : BitVec 3) (imm : BitVec 12) (s : State) : exec (.ldW8 d a g imm) s = execLdW8 d a g imm s := by with_unfolding_all rfl
theorem exec_ldW16 (d : BitVec 5) (a : BitVec 5) (g : BitVec 3) (imm : BitVec 12) (s : State) : exec (.ldW16 d a g imm) s = execLdW16 d a g imm s := by with_unfolding_all rfl
theorem exec_ldW32 (d : BitVec 5) (a : BitVec 5) (g : BitVec 3) (imm : BitVec 12) (s : State) : exec (.ldW32 d a g imm) s = execLdW32 d a g imm s := by with_unfolding_all rfl
theorem exec_ldW64 (d : BitVec 5) (a : BitVec 5) (g : BitVec 3) (imm : BitVec 12) (s : State) : exec (.ldW64 d a g imm) s = execLdW64 d a g imm s := by with_unfolding_all rfl
theorem exec_ldI8 (d : BitVec 5) (a : BitVec 5) (g : BitVec 3) (imm : BitVec 12) (s : State) : exec (.ldI8 d a g imm) s = execLdI8 d a g imm s := by with_unfolding_all rfl
theorem exec_ldI32 (d : BitVec 5) (a : BitVec 5) (g : BitVec 3) (imm : BitVec 12) (s : State) : exec (.ldI32 d a g imm) s = execLdI32 d a g imm s := by with_unfolding_all rfl
theorem exec_stW8 (d : BitVec 5) (a : BitVec 5) (g : BitVec 3) (imm : BitVec 12) (s : State) : exec (.stW8 d a g imm) s = execStW8 d a g imm s := by with_unfolding_all rfl
theorem exec_stW16 (d : BitVec 5) (a : BitVec 5) (g : BitVec 3) (imm : BitVec 12) (s : State) : exec (.stW16 d a g imm) s = execStW16 d a g imm s := by with_unfolding_all rfl
theorem exec_stW32 (d : BitVec 5) (a : BitVec 5) (g : BitVec 3) (imm : BitVec 12) (s : State) : exec (.stW32 d a g imm) s = execStW32 d a g imm s := by with_unfolding_all rfl
theorem exec_stW64 (d : BitVec 5) (a : BitVec 5) (g : BitVec 3) (imm : BitVec 12) (s : State) : exec (.stW64 d a g imm) s = execStW64 d a g imm s := by with_unfolding_all rfl
theorem exec_ldAcqW32 (d : BitVec 5) (a : BitVec 5) (g : BitVec 3) (xs : BitVec 3) (s : State) : exec (.ldAcqW32 d a g xs) s = execLdAcqW32 d a g xs s := by with_unfolding_all rfl
theorem exec_ldAcqW64 (d : BitVec 5) (a : BitVec 5) (g : BitVec 3) (xs : BitVec 3) (s : State) : exec (.ldAcqW64 d a g xs) s = execLdAcqW64 d a g xs s := by with_unfolding_all rfl
theorem exec_stRelW32 (a : BitVec 5) (b : BitVec 5) (g : BitVec 3) (xs : BitVec 3) (s : State) : exec (.stRelW32 a b g xs) s = execStRelW32 a b g xs s := by with_unfolding_all rfl
theorem exec_stRelW64 (a : BitVec 5) (b : BitVec 5) (g : BitVec 3) (xs : BitVec 3) (s : State) : exec (.stRelW64 a b g xs) s = execStRelW64 a b g xs s := by with_unfolding_all rfl
theorem exec_waitTk (p : BitVec 3) (k : BitVec 7) (t : BitVec 5) (s : State) : exec (.waitTk p k t) s = execWaitTk p k t s := by with_unfolding_all rfl
theorem exec_barWait (p : BitVec 3) (k : BitVec 7) (t : BitVec 5) (s : State) : exec (.barWait p k t) s = execBarWait p k t s := by with_unfolding_all rfl
theorem exec_ldwfW64 (p : BitVec 3) (a : BitVec 5) (t : BitVec 5) (d : BitVec 5) (s : State) : exec (.ldwfW64 p a t d) s = execLdwfW64 p a t d s := by with_unfolding_all rfl
theorem exec_stweW64 (p : BitVec 3) (a : BitVec 5) (t : BitVec 5) (d : BitVec 5) (s : State) : exec (.stweW64 p a t d) s = execStweW64 p a t d s := by with_unfolding_all rfl
theorem exec_pop (p : BitVec 3) (q : BitVec 7) (t : BitVec 5) (d : BitVec 5) (s : State) : exec (.pop p q t d) s = execPop p q t d s := by with_unfolding_all rfl
theorem exec_sigTk (k : BitVec 7) (s : State) : exec (.sigTk k) s = execSigTk k s := by with_unfolding_all rfl
theorem exec_barArrive (k : BitVec 7) (s : State) : exec (.barArrive k) s = execBarArrive k s := by with_unfolding_all rfl
theorem exec_join (k : BitVec 7) (s : State) : exec (.join k) s = execJoin k s := by with_unfolding_all rfl
theorem exec_leave (k : BitVec 7) (s : State) : exec (.leave k) s = execLeave k s := by with_unfolding_all rfl
theorem exec_amoAddW64 (d : BitVec 5) (a : BitVec 5) (b : BitVec 5) (g : BitVec 3) (s : State) : exec (.amoAddW64 d a b g) s = execAmoAddW64 d a b g s := by with_unfolding_all rfl
theorem exec_amoMinI64 (d : BitVec 5) (a : BitVec 5) (b : BitVec 5) (g : BitVec 3) (s : State) : exec (.amoMinI64 d a b g) s = execAmoMinI64 d a b g s := by with_unfolding_all rfl
theorem exec_amoMaxI64 (d : BitVec 5) (a : BitVec 5) (b : BitVec 5) (g : BitVec 3) (s : State) : exec (.amoMaxI64 d a b g) s = execAmoMaxI64 d a b g s := by with_unfolding_all rfl
theorem exec_amoAndW64 (d : BitVec 5) (a : BitVec 5) (b : BitVec 5) (g : BitVec 3) (s : State) : exec (.amoAndW64 d a b g) s = execAmoAndW64 d a b g s := by with_unfolding_all rfl
theorem exec_amoOrW64 (d : BitVec 5) (a : BitVec 5) (b : BitVec 5) (g : BitVec 3) (s : State) : exec (.amoOrW64 d a b g) s = execAmoOrW64 d a b g s := by with_unfolding_all rfl
theorem exec_amoXorW64 (d : BitVec 5) (a : BitVec 5) (b : BitVec 5) (g : BitVec 3) (s : State) : exec (.amoXorW64 d a b g) s = execAmoXorW64 d a b g s := by with_unfolding_all rfl
theorem exec_amoXchgW64 (d : BitVec 5) (a : BitVec 5) (b : BitVec 5) (g : BitVec 3) (s : State) : exec (.amoXchgW64 d a b g) s = execAmoXchgW64 d a b g s := by with_unfolding_all rfl
theorem exec_amoCasW64 (d : BitVec 5) (a : BitVec 5) (b : BitVec 5) (g : BitVec 3) (s : State) : exec (.amoCasW64 d a b g) s = execAmoCasW64 d a b g s := by with_unfolding_all rfl
theorem exec_fence (g : BitVec 3) (xs : BitVec 3) (s : State) : exec (.fence g xs) s = execFence g xs s := by with_unfolding_all rfl
theorem exec_fenceR (a : BitVec 5) (b : BitVec 5) (g : BitVec 3) (xs : BitVec 3) (s : State) : exec (.fenceR a b g xs) s = execFenceR a b g xs s := by with_unfolding_all rfl
theorem exec_rld (d : BitVec 2) (a : BitVec 5) (b : BitVec 5) (g : BitVec 3) (s : State) : exec (.rld d a b g) s = execRld d a b g s := by with_unfolding_all rfl
theorem exec_setshapeV (d : BitVec 5) (a : BitVec 5) (b : BitVec 5) (g : BitVec 3) (n : BitVec 3) (s : State) : exec (.setshapeV d a b g n) s = execSetshapeV d a b g n s := by with_unfolding_all rfl
theorem exec_setshapeM (d : BitVec 5) (a : BitVec 5) (b : BitVec 5) (g : BitVec 3) (n : BitVec 3) (s : State) : exec (.setshapeM d a b g n) s = execSetshapeM d a b g n s := by with_unfolding_all rfl
theorem exec_asnap (d : BitVec 5) (a : BitVec 5) (b : BitVec 5) (g : BitVec 3) (n : BitVec 3) (s : State) : exec (.asnap d a b g n) s = execAsnap d a b g n s := by with_unfolding_all rfl
theorem exec_tstat (d : BitVec 5) (g : BitVec 3) (n : BitVec 3) (s : State) : exec (.tstat d g n) s = execTstat d g n s := by with_unfolding_all rfl
theorem exec_swalloc (d : BitVec 5) (a : BitVec 5) (b : BitVec 5) (g : BitVec 3) (s : State) : exec (.swalloc d a b g) s = execSwalloc d a b g s := by with_unfolding_all rfl
theorem exec_swfree (d : BitVec 5) (a : BitVec 5) (g : BitVec 3) (s : State) : exec (.swfree d a g) s = execSwfree d a g s := by with_unfolding_all rfl
theorem exec_swquota (d : BitVec 5) (a : BitVec 5) (g : BitVec 3) (s : State) : exec (.swquota d a g) s = execSwquota d a g s := by with_unfolding_all rfl
theorem exec_yield (imm : BitVec 20) (s : State) : exec (.yield imm) s = execYield imm s := by with_unfolding_all rfl
theorem exec_enqueuePrefix (e : BitVec 2) (w : BitVec 6) (k : BitVec 6) (t : BitVec 1) (a : BitVec 5) (b : BitVec 5) (w1 : BitVec 32) (w2 : BitVec 32) (s : State) : exec (.enqueuePrefix e w k t a b w1 w2) s = execEnqueuePrefix e w k t a b w1 w2 s := by with_unfolding_all rfl
theorem exec_trap (imm : BitVec 20) (s : State) : exec (.trap imm) s = execTrap imm s := by with_unfolding_all rfl
theorem exec_rft (g : BitVec 3) (s : State) : exec (.rft g) s = execRft g s := by with_unfolding_all rfl
theorem exec_endThread (g : BitVec 3) (s : State) : exec (.endThread g) s = execEndThread g s := by with_unfolding_all rfl
theorem exec_csrr (d : BitVec 5) (g : BitVec 3) (c : BitVec 12) (s : State) : exec (.csrr d g c) s = execCsrr d g c s := by with_unfolding_all rfl
theorem exec_csrw (a : BitVec 5) (g : BitVec 3) (c : BitVec 12) (s : State) : exec (.csrw a g c) s = execCsrw a g c s := by with_unfolding_all rfl
theorem exec_resume (d : BitVec 5) (a : BitVec 5) (g : BitVec 3) (s : State) : exec (.resume d a g) s = execResume d a g s := by with_unfolding_all rfl
theorem exec_qreset (d : BitVec 5) (a : BitVec 5) (g : BitVec 3) (s : State) : exec (.qreset d a g) s = execQreset d a g s := by with_unfolding_all rfl
theorem exec_tinvPg1 (a : BitVec 5) (g : BitVec 3) (s : State) : exec (.tinvPg1 a g) s = execTinvPg1 a g s := by with_unfolding_all rfl
theorem exec_tinvRg1 (a : BitVec 5) (b : BitVec 5) (g : BitVec 3) (s : State) : exec (.tinvRg1 a b g) s = execTinvRg1 a b g s := by with_unfolding_all rfl
theorem exec_tinvAll1 (g : BitVec 3) (s : State) : exec (.tinvAll1 g) s = execTinvAll1 g s := by with_unfolding_all rfl
theorem exec_tinvPg2 (a : BitVec 5) (b : BitVec 5) (g : BitVec 3) (s : State) : exec (.tinvPg2 a b g) s = execTinvPg2 a b g s := by with_unfolding_all rfl
theorem exec_tinvRg2 (a : BitVec 5) (b : BitVec 5) (g : BitVec 3) (s : State) : exec (.tinvRg2 a b g) s = execTinvRg2 a b g s := by with_unfolding_all rfl
theorem exec_tinvAll2 (b : BitVec 5) (g : BitVec 3) (s : State) : exec (.tinvAll2 b g) s = execTinvAll2 b g s := by with_unfolding_all rfl
theorem exec_einj (a : BitVec 5) (b : BitVec 5) (g : BitVec 3) (s : State) : exec (.einj a b g) s = execEinj a b g s := by with_unfolding_all rfl
theorem exec_takeIb (d : BitVec 5) (a : BitVec 5) (g : BitVec 3) (s : State) : exec (.takeIb d a g) s = execTakeIb d a g s := by with_unfolding_all rfl
theorem exec_commitIb (d : BitVec 5) (a : BitVec 5) (b : BitVec 5) (g : BitVec 3) (s : State) : exec (.commitIb d a b g) s = execCommitIb d a b g s := by with_unfolding_all rfl
theorem exec_attest (d : BitVec 5) (a : BitVec 5) (b : BitVec 5) (g : BitVec 3) (s : State) : exec (.attest d a b g) s = execAttest d a b g s := by with_unfolding_all rfl
theorem exec_vaddF32 (d : BitVec 6) (a : BitVec 6) (b : BitVec 6) (xs : BitVec 3) (m : BitVec 3) (x : BitVec 2) (s : State) : exec (.vaddF32 d a b xs m x) s = execVaddF32 d a b xs m x s := by with_unfolding_all rfl
theorem exec_vsubF32 (d : BitVec 6) (a : BitVec 6) (b : BitVec 6) (xs : BitVec 3) (m : BitVec 3) (x : BitVec 2) (s : State) : exec (.vsubF32 d a b xs m x) s = execVsubF32 d a b xs m x s := by with_unfolding_all rfl
theorem exec_vmulF32 (d : BitVec 6) (a : BitVec 6) (b : BitVec 6) (xs : BitVec 3) (m : BitVec 3) (x : BitVec 2) (s : State) : exec (.vmulF32 d a b xs m x) s = execVmulF32 d a b xs m x s := by with_unfolding_all rfl
theorem exec_vfmaF32 (d : BitVec 6) (a : BitVec 6) (b : BitVec 6) (xs : BitVec 3) (m : BitVec 3) (x : BitVec 2) (s : State) : exec (.vfmaF32 d a b xs m x) s = execVfmaF32 d a b xs m x s := by with_unfolding_all rfl
theorem exec_vfmaF32TMultiplier (d : BitVec 6) (a : BitVec 6) (b : BitVec 6) (xs : BitVec 3) (m : BitVec 3) (x : BitVec 2) (s : State) : exec (.vfmaF32TMultiplier d a b xs m x) s = execVfmaF32TMultiplier d a b xs m x s := by with_unfolding_all rfl
theorem exec_vminF32 (d : BitVec 6) (a : BitVec 6) (b : BitVec 6) (xs : BitVec 3) (m : BitVec 3) (s : State) : exec (.vminF32 d a b xs m) s = execVminF32 d a b xs m s := by with_unfolding_all rfl
theorem exec_vmaxF32 (d : BitVec 6) (a : BitVec 6) (b : BitVec 6) (xs : BitVec 3) (m : BitVec 3) (s : State) : exec (.vmaxF32 d a b xs m) s = execVmaxF32 d a b xs m s := by with_unfolding_all rfl
theorem exec_vabsF32 (d : BitVec 6) (a : BitVec 6) (xs : BitVec 3) (m : BitVec 3) (s : State) : exec (.vabsF32 d a xs m) s = execVabsF32 d a xs m s := by with_unfolding_all rfl
theorem exec_vnegF32 (d : BitVec 6) (a : BitVec 6) (xs : BitVec 3) (m : BitVec 3) (s : State) : exec (.vnegF32 d a xs m) s = execVnegF32 d a xs m s := by with_unfolding_all rfl
theorem exec_vcmpF32 (d : BitVec 6) (a : BitVec 6) (b : BitVec 6) (xs : BitVec 3) (m : BitVec 3) (c : BitVec 2) (s : State) : exec (.vcmpF32 d a b xs m c) s = execVcmpF32 d a b xs m c s := by with_unfolding_all rfl
theorem exec_vrcpF32 (d : BitVec 6) (a : BitVec 6) (xs : BitVec 3) (m : BitVec 3) (s : State) : exec (.vrcpF32 d a xs m) s = execVrcpF32 d a xs m s := by with_unfolding_all rfl
theorem exec_vrsqrtF32 (d : BitVec 6) (a : BitVec 6) (xs : BitVec 3) (m : BitVec 3) (s : State) : exec (.vrsqrtF32 d a xs m) s = execVrsqrtF32 d a xs m s := by with_unfolding_all rfl
theorem exec_vexp2F32 (d : BitVec 6) (a : BitVec 6) (xs : BitVec 3) (m : BitVec 3) (s : State) : exec (.vexp2F32 d a xs m) s = execVexp2F32 d a xs m s := by with_unfolding_all rfl
theorem exec_vlog2F32 (d : BitVec 6) (a : BitVec 6) (xs : BitVec 3) (m : BitVec 3) (s : State) : exec (.vlog2F32 d a xs m) s = execVlog2F32 d a xs m s := by with_unfolding_all rfl
theorem exec_vtanhF32 (d : BitVec 6) (a : BitVec 6) (xs : BitVec 3) (m : BitVec 3) (s : State) : exec (.vtanhF32 d a xs m) s = execVtanhF32 d a xs m s := by with_unfolding_all rfl
theorem exec_vaddInt (d : BitVec 6) (a : BitVec 6) (b : BitVec 6) (xs : BitVec 3) (m : BitVec 3) (x : BitVec 2) (s : State) : exec (.vaddInt d a b xs m x) s = execVaddInt d a b xs m x s := by with_unfolding_all rfl
theorem exec_vsubInt (d : BitVec 6) (a : BitVec 6) (b : BitVec 6) (xs : BitVec 3) (m : BitVec 3) (x : BitVec 2) (s : State) : exec (.vsubInt d a b xs m x) s = execVsubInt d a b xs m x s := by with_unfolding_all rfl
theorem exec_vmulInt (d : BitVec 6) (a : BitVec 6) (b : BitVec 6) (xs : BitVec 3) (m : BitVec 3) (x : BitVec 2) (s : State) : exec (.vmulInt d a b xs m x) s = execVmulInt d a b xs m x s := by with_unfolding_all rfl
theorem exec_vmulh (d : BitVec 6) (a : BitVec 6) (b : BitVec 6) (xs : BitVec 3) (m : BitVec 3) (u : BitVec 1) (s : State) : exec (.vmulh d a b xs m u) s = execVmulh d a b xs m u s := by with_unfolding_all rfl
theorem exec_vminInt (d : BitVec 6) (a : BitVec 6) (b : BitVec 6) (xs : BitVec 3) (m : BitVec 3) (u : BitVec 1) (s : State) : exec (.vminInt d a b xs m u) s = execVminInt d a b xs m u s := by with_unfolding_all rfl
theorem exec_vmaxInt (d : BitVec 6) (a : BitVec 6) (b : BitVec 6) (xs : BitVec 3) (m : BitVec 3) (u : BitVec 1) (s : State) : exec (.vmaxInt d a b xs m u) s = execVmaxInt d a b xs m u s := by with_unfolding_all rfl
theorem exec_vabsInt (d : BitVec 6) (a : BitVec 6) (xs : BitVec 3) (m : BitVec 3) (s : State) : exec (.vabsInt d a xs m) s = execVabsInt d a xs m s := by with_unfolding_all rfl
theorem exec_vand (d : BitVec 6) (a : BitVec 6) (b : BitVec 6) (xs : BitVec 3) (m : BitVec 3) (s : State) : exec (.vand d a b xs m) s = execVand d a b xs m s := by with_unfolding_all rfl
theorem exec_vor (d : BitVec 6) (a : BitVec 6) (b : BitVec 6) (xs : BitVec 3) (m : BitVec 3) (s : State) : exec (.vor d a b xs m) s = execVor d a b xs m s := by with_unfolding_all rfl
theorem exec_vxor (d : BitVec 6) (a : BitVec 6) (b : BitVec 6) (xs : BitVec 3) (m : BitVec 3) (s : State) : exec (.vxor d a b xs m) s = execVxor d a b xs m s := by with_unfolding_all rfl
theorem exec_vshl (d : BitVec 6) (a : BitVec 6) (b : BitVec 6) (xs : BitVec 3) (m : BitVec 3) (s : State) : exec (.vshl d a b xs m) s = execVshl d a b xs m s := by with_unfolding_all rfl
theorem exec_vshr (d : BitVec 6) (a : BitVec 6) (b : BitVec 6) (xs : BitVec 3) (m : BitVec 3) (u : BitVec 1) (s : State) : exec (.vshr d a b xs m u) s = execVshr d a b xs m u s := by with_unfolding_all rfl
theorem exec_vcmpSigned (d : BitVec 6) (a : BitVec 6) (b : BitVec 6) (xs : BitVec 3) (m : BitVec 3) (c : BitVec 2) (s : State) : exec (.vcmpSigned d a b xs m c) s = execVcmpSigned d a b xs m c s := by with_unfolding_all rfl
theorem exec_vcmpUnsigned (d : BitVec 6) (a : BitVec 6) (b : BitVec 6) (xs : BitVec 3) (m : BitVec 3) (c : BitVec 2) (s : State) : exec (.vcmpUnsigned d a b xs m c) s = execVcmpUnsigned d a b xs m c s := by with_unfolding_all rfl
theorem exec_vsel (d : BitVec 6) (a : BitVec 6) (b : BitVec 6) (xs : BitVec 3) (m : BitVec 3) (s : State) : exec (.vsel d a b xs m) s = execVsel d a b xs m s := by with_unfolding_all rfl
theorem exec_vmask (d : BitVec 6) (a : BitVec 6) (b : BitVec 6) (xs : BitVec 3) (o : BitVec 2) (s : State) : exec (.vmask d a b xs o) s = execVmask d a b xs o s := by with_unfolding_all rfl
theorem exec_vmov (d : BitVec 6) (a : BitVec 6) (xs : BitVec 3) (m : BitVec 3) (s : State) : exec (.vmov d a xs m) s = execVmov d a xs m s := by with_unfolding_all rfl
theorem exec_vcvt (d : BitVec 6) (a : BitVec 6) (t : BitVec 6) (xs : BitVec 3) (m : BitVec 3) (x : BitVec 2) (s : State) : exec (.vcvt d a t xs m x) s = execVcvt d a t xs m x s := by with_unfolding_all rfl
theorem exec_vcvtSat (d : BitVec 6) (a : BitVec 6) (t : BitVec 6) (xs : BitVec 3) (m : BitVec 3) (x : BitVec 2) (s : State) : exec (.vcvtSat d a t xs m x) s = execVcvtSat d a t xs m x s := by with_unfolding_all rfl
theorem exec_vcvtFloatToInt (d : BitVec 6) (a : BitVec 6) (t : BitVec 6) (xs : BitVec 3) (m : BitVec 3) (x : BitVec 2) (s : State) : exec (.vcvtFloatToInt d a t xs m x) s = execVcvtFloatToInt d a t xs m x s := by with_unfolding_all rfl
theorem exec_vcvtIntToFloat (d : BitVec 6) (a : BitVec 6) (t : BitVec 6) (xs : BitVec 3) (m : BitVec 3) (x : BitVec 2) (s : State) : exec (.vcvtIntToFloat d a t xs m x) s = execVcvtIntToFloat d a t xs m x s := by with_unfolding_all rfl
theorem exec_vcvtIntToInt (d : BitVec 6) (a : BitVec 6) (t : BitVec 6) (xs : BitVec 3) (m : BitVec 3) (x : BitVec 2) (s : State) : exec (.vcvtIntToInt d a t xs m x) s = execVcvtIntToInt d a t xs m x s := by with_unfolding_all rfl
theorem exec_vbscale (d : BitVec 6) (a : BitVec 6) (f : BitVec 6) (xs : BitVec 3) (x : BitVec 2) (s : State) : exec (.vbscale d a f xs x) s = execVbscale d a f xs x s := by with_unfolding_all rfl
theorem exec_vquant (d : BitVec 6) (a : BitVec 6) (f : BitVec 6) (xs : BitVec 3) (x : BitVec 2) (s : State) : exec (.vquant d a f xs x) s = execVquant d a f xs x s := by with_unfolding_all rfl
theorem exec_vredF32 (d : BitVec 6) (a : BitVec 6) (xs : BitVec 3) (m : BitVec 3) (o : BitVec 2) (s : State) : exec (.vredF32 d a xs m o) s = execVredF32 d a xs m o s := by with_unfolding_all rfl
theorem exec_vredInt (d : BitVec 6) (a : BitVec 6) (u : BitVec 1) (xs : BitVec 3) (m : BitVec 3) (o : BitVec 2) (s : State) : exec (.vredInt d a u xs m o) s = execVredInt d a u xs m o s := by with_unfolding_all rfl
theorem exec_vscanF32 (d : BitVec 6) (a : BitVec 6) (xs : BitVec 3) (m : BitVec 3) (o : BitVec 2) (s : State) : exec (.vscanF32 d a xs m o) s = execVscanF32 d a xs m o s := by with_unfolding_all rfl
theorem exec_vscanInt (d : BitVec 6) (a : BitVec 6) (u : BitVec 1) (xs : BitVec 3) (m : BitVec 3) (o : BitVec 2) (s : State) : exec (.vscanInt d a u xs m o) s = execVscanInt d a u xs m o s := by with_unfolding_all rfl
theorem exec_vperm (d : BitVec 6) (a : BitVec 6) (b : BitVec 6) (xs : BitVec 3) (m : BitVec 3) (s : State) : exec (.vperm d a b xs m) s = execVperm d a b xs m s := by with_unfolding_all rfl
theorem exec_vrot (d : BitVec 6) (a : BitVec 6) (xs : BitVec 3) (m : BitVec 3) (s : State) : exec (.vrot d a xs m) s = execVrot d a xs m s := by with_unfolding_all rfl
theorem exec_viota (d : BitVec 6) (xs : BitVec 3) (m : BitVec 3) (s : State) : exec (.viota d xs m) s = execViota d xs m s := by with_unfolding_all rfl
theorem exec_vpart (d : BitVec 6) (a : BitVec 6) (b : BitVec 6) (xs : BitVec 3) (m : BitVec 3) (s : State) : exec (.vpart d a b xs m) s = execVpart d a b xs m s := by with_unfolding_all rfl
theorem exec_vport (d : BitVec 6) (xs : BitVec 3) (s : State) : exec (.vport d xs) s = execVport d xs s := by with_unfolding_all rfl
theorem exec_vportd (d : BitVec 6) (xs : BitVec 3) (s : State) : exec (.vportd d xs) s = execVportd d xs s := by with_unfolding_all rfl
theorem exec_vrep (n : BitVec 6) (s : State) : exec (.vrep n) s = execVrep n s := by with_unfolding_all rfl
theorem exec_vsplat (d : BitVec 6) (xs : BitVec 3) (m : BitVec 3) (c : BitVec 2) (s : State) : exec (.vsplat d xs m c) s = execVsplat d xs m c s := by with_unfolding_all rfl
theorem exec_vnop (s : State) : exec (.vnop) s = execVnop s := by with_unfolding_all rfl
theorem exec_mld (a : BitVec 3) (xs : BitVec 3) (k : BitVec 1) (s : State) : exec (.mld a xs k) s = execMld a xs k s := by with_unfolding_all rfl
theorem exec_mldt (a : BitVec 3) (xs : BitVec 3) (k : BitVec 1) (s : State) : exec (.mldt a xs k) s = execMldt a xs k s := by with_unfolding_all rfl
theorem exec_mwld (a : BitVec 3) (xs : BitVec 3) (k : BitVec 1) (s : State) : exec (.mwld a xs k) s = execMwld a xs k s := by with_unfolding_all rfl
theorem exec_mwldt (a : BitVec 3) (xs : BitVec 3) (k : BitVec 1) (s : State) : exec (.mwldt a xs k) s = execMwldt a xs k s := by with_unfolding_all rfl
theorem exec_mmulOvw (a : BitVec 3) (b : BitVec 3) (c : BitVec 3) (xs : BitVec 3) (k : BitVec 1) (s : State) : exec (.mmulOvw a b c xs k) s = execMmulOvw a b c xs k s := by with_unfolding_all rfl
theorem exec_mmulAcc (a : BitVec 3) (b : BitVec 3) (c : BitVec 3) (xs : BitVec 3) (k : BitVec 1) (s : State) : exec (.mmulAcc a b c xs k) s = execMmulAcc a b c xs k s := by with_unfolding_all rfl
theorem exec_mgangOvw (a : BitVec 3) (b : BitVec 3) (c : BitVec 3) (xs : BitVec 3) (g : BitVec 3) (h : BitVec 3) (n : BitVec 7) (k : BitVec 1) (s : State) : exec (.mgangOvw a b c xs g h n k) s = execMgangOvw a b c xs g h n k s := by with_unfolding_all rfl
theorem exec_mgangAcc (a : BitVec 3) (b : BitVec 3) (c : BitVec 3) (xs : BitVec 3) (g : BitVec 3) (h : BitVec 3) (n : BitVec 7) (k : BitVec 1) (s : State) : exec (.mgangAcc a b c xs g h n k) s = execMgangAcc a b c xs g h n k s := by with_unfolding_all rfl
theorem exec_mzero (c : BitVec 3) (xs : BitVec 3) (s : State) : exec (.mzero c xs) s = execMzero c xs s := by with_unfolding_all rfl
theorem exec_macc (b : BitVec 3) (c : BitVec 3) (xs : BitVec 3) (s : State) : exec (.macc b c xs) s = execMacc b c xs s := by with_unfolding_all rfl
theorem exec_mldacc (c : BitVec 3) (xs : BitVec 3) (s : State) : exec (.mldacc c xs) s = execMldacc c xs s := by with_unfolding_all rfl
theorem exec_mescale (c : BitVec 3) (xs : BitVec 3) (s : State) : exec (.mescale c xs) s = execMescale c xs s := by with_unfolding_all rfl
theorem exec_mescv (c : BitVec 3) (xs : BitVec 3) (s : State) : exec (.mescv c xs) s = execMescv c xs s := by with_unfolding_all rfl
theorem exec_mebias (c : BitVec 3) (xs : BitVec 3) (s : State) : exec (.mebias c xs) s = execMebias c xs s := by with_unfolding_all rfl
theorem exec_meact (c : BitVec 3) (xs : BitVec 3) (f : BitVec 4) (s : State) : exec (.meact c xs f) s = execMeact c xs f s := by with_unfolding_all rfl
theorem exec_meclamp (c : BitVec 3) (xs : BitVec 3) (s : State) : exec (.meclamp c xs) s = execMeclamp c xs s := by with_unfolding_all rfl
theorem exec_mecvt (c : BitVec 3) (xs : BitVec 3) (t : BitVec 1) (r : BitVec 2) (f : BitVec 5) (s : State) : exec (.mecvt c xs t r f) s = execMecvt c xs t r f s := by with_unfolding_all rfl
theorem exec_mst (c : BitVec 3) (xs : BitVec 3) (t : BitVec 1) (r : BitVec 2) (f : BitVec 5) (s : State) : exec (.mst c xs t r f) s = execMst c xs t r f s := by with_unfolding_all rfl
theorem exec_mstn (c : BitVec 3) (xs : BitVec 3) (t : BitVec 1) (r : BitVec 2) (f : BitVec 5) (s : State) : exec (.mstn c xs t r f) s = execMstn c xs t r f s := by with_unfolding_all rfl
theorem exec_msnap (c : BitVec 3) (xs : BitVec 3) (s : State) : exec (.msnap c xs) s = execMsnap c xs s := by with_unfolding_all rfl
theorem exec_mstt (a : BitVec 3) (xs : BitVec 3) (s : State) : exec (.mstt a xs) s = execMstt a xs s := by with_unfolding_all rfl
theorem exec_mmov (a : BitVec 3) (b : BitVec 3) (xs : BitVec 3) (s : State) : exec (.mmov a b xs) s = execMmov a b xs s := by with_unfolding_all rfl
theorem exec_mtr (a : BitVec 3) (b : BitVec 3) (xs : BitVec 3) (s : State) : exec (.mtr a b xs) s = execMtr a b xs s := by with_unfolding_all rfl
theorem exec_mnop (s : State) : exec (.mnop) s = execMnop s := by with_unfolding_all rfl
theorem exec_cldHbm (q : BitVec 1) (r : BitVec 1) (xs : BitVec 3) (f : BitVec 1) (x : BitVec 20) (s : State) : exec (.cldHbm q r xs f x) s = execCldHbm q r xs f x s := by with_unfolding_all rfl
theorem exec_cstHbm (q : BitVec 1) (r : BitVec 1) (xs : BitVec 3) (x : BitVec 20) (s : State) : exec (.cstHbm q r xs x) s = execCstHbm q r xs x s := by with_unfolding_all rfl
theorem exec_cld2d (q : BitVec 1) (r : BitVec 1) (xs : BitVec 3) (f : BitVec 1) (x : BitVec 20) (s : State) : exec (.cld2d q r xs f x) s = execCld2d q r xs f x s := by with_unfolding_all rfl
theorem exec_cst2d (q : BitVec 1) (r : BitVec 1) (xs : BitVec 3) (x : BitVec 20) (s : State) : exec (.cst2d q r xs x) s = execCst2d q r xs x s := by with_unfolding_all rfl
theorem exec_ccpy (q : BitVec 1) (r : BitVec 1) (xs : BitVec 3) (x : BitVec 20) (s : State) : exec (.ccpy q r xs x) s = execCcpy q r xs x s := by with_unfolding_all rfl
theorem exec_ccvt (q : BitVec 1) (r : BitVec 1) (xs : BitVec 3) (x : BitVec 20) (s : State) : exec (.ccvt q r xs x) s = execCcvt q r xs x s := by with_unfolding_all rfl
theorem exec_cgat (q : BitVec 1) (r : BitVec 1) (xs : BitVec 3) (f : BitVec 1) (x : BitVec 20) (s : State) : exec (.cgat q r xs f x) s = execCgat q r xs f x s := by with_unfolding_all rfl
theorem exec_csct (q : BitVec 1) (r : BitVec 1) (xs : BitVec 3) (x : BitVec 20) (s : State) : exec (.csct q r xs x) s = execCsct q r xs x s := by with_unfolding_all rfl
theorem exec_cfill (q : BitVec 1) (r : BitVec 1) (xs : BitVec 3) (x : BitVec 20) (s : State) : exec (.cfill q r xs x) s = execCfill q r xs x s := by with_unfolding_all rfl
theorem exec_cfillSp (q : BitVec 1) (r : BitVec 1) (xs : BitVec 3) (x : BitVec 20) (s : State) : exec (.cfillSp q r xs x) s = execCfillSp q r xs x s := by with_unfolding_all rfl
theorem exec_ctag (q : BitVec 1) (r : BitVec 1) (xs : BitVec 3) (x : BitVec 20) (s : State) : exec (.ctag q r xs x) s = execCtag q r xs x s := by with_unfolding_all rfl
theorem exec_cpref (q : BitVec 1) (r : BitVec 1) (xs : BitVec 3) (x : BitVec 20) (s : State) : exec (.cpref q r xs x) s = execCpref q r xs x s := by with_unfolding_all rfl
theorem exec_cmovSp (q : BitVec 1) (r : BitVec 1) (xs : BitVec 3) (f : BitVec 1) (x : BitVec 20) (s : State) : exec (.cmovSp q r xs f x) s = execCmovSp q r xs f x s := by with_unfolding_all rfl
theorem exec_cmst (q : BitVec 1) (r : BitVec 1) (xs : BitVec 3) (x : BitVec 20) (s : State) : exec (.cmst q r xs x) s = execCmst q r xs x s := by with_unfolding_all rfl
theorem exec_ckvSend (q : BitVec 1) (r : BitVec 1) (xs : BitVec 3) (s : State) : exec (.ckvSend q r xs) s = execCkvSend q r xs s := by with_unfolding_all rfl
theorem exec_ckvPull (q : BitVec 1) (r : BitVec 1) (xs : BitVec 3) (p : BitVec 1) (s : State) : exec (.ckvPull q r xs p) s = execCkvPull q r xs p s := by with_unfolding_all rfl
theorem exec_ckvSync (q : BitVec 1) (r : BitVec 1) (xs : BitVec 3) (s : State) : exec (.ckvSync q r xs) s = execCkvSync q r xs s := by with_unfolding_all rfl
theorem exec_cldSw (q : BitVec 1) (r : BitVec 1) (xs : BitVec 3) (f : BitVec 1) (x : BitVec 20) (s : State) : exec (.cldSw q r xs f x) s = execCldSw q r xs f x s := by with_unfolding_all rfl
theorem exec_cstSw (q : BitVec 1) (r : BitVec 1) (xs : BitVec 3) (x : BitVec 20) (s : State) : exec (.cstSw q r xs x) s = execCstSw q r xs x s := by with_unfolding_all rfl
theorem exec_credInit (q : BitVec 1) (r : BitVec 1) (xs : BitVec 3) (x : BitVec 20) (s : State) : exec (.credInit q r xs x) s = execCredInit q r xs x s := by with_unfolding_all rfl
theorem exec_credSw (q : BitVec 1) (r : BitVec 1) (xs : BitVec 3) (x : BitVec 20) (s : State) : exec (.credSw q r xs x) s = execCredSw q r xs x s := by with_unfolding_all rfl
theorem exec_cldrSw (q : BitVec 1) (r : BitVec 1) (xs : BitVec 3) (f : BitVec 1) (x : BitVec 20) (s : State) : exec (.cldrSw q r xs f x) s = execCldrSw q r xs f x s := by with_unfolding_all rfl
theorem exec_credDrop (q : BitVec 1) (r : BitVec 1) (xs : BitVec 3) (b : BitVec 1) (s : State) : exec (.credDrop q r xs b) s = execCredDrop q r xs b s := by with_unfolding_all rfl
theorem exec_cmstSw (q : BitVec 1) (r : BitVec 1) (xs : BitVec 3) (x : BitVec 20) (s : State) : exec (.cmstSw q r xs x) s = execCmstSw q r xs x s := by with_unfolding_all rfl
theorem exec_cbatAdd (q : BitVec 1) (r : BitVec 1) (xs : BitVec 3) (x : BitVec 20) (s : State) : exec (.cbatAdd q r xs x) s = execCbatAdd q r xs x s := by with_unfolding_all rfl
theorem exec_cbatMin (q : BitVec 1) (r : BitVec 1) (xs : BitVec 3) (x : BitVec 20) (s : State) : exec (.cbatMin q r xs x) s = execCbatMin q r xs x s := by with_unfolding_all rfl
theorem exec_cbatMax (q : BitVec 1) (r : BitVec 1) (xs : BitVec 3) (x : BitVec 20) (s : State) : exec (.cbatMax q r xs x) s = execCbatMax q r xs x s := by with_unfolding_all rfl
theorem exec_cbatOr (q : BitVec 1) (r : BitVec 1) (xs : BitVec 3) (x : BitVec 20) (s : State) : exec (.cbatOr q r xs x) s = execCbatOr q r xs x s := by with_unfolding_all rfl
theorem exec_cbatXchg (q : BitVec 1) (r : BitVec 1) (xs : BitVec 3) (x : BitVec 20) (s : State) : exec (.cbatXchg q r xs x) s = execCbatXchg q r xs x s := by with_unfolding_all rfl
theorem exec_cskInit (q : BitVec 1) (r : BitVec 1) (xs : BitVec 3) (c : BitVec 1) (s : State) : exec (.cskInit q r xs c) s = execCskInit q r xs c s := by with_unfolding_all rfl
theorem exec_cskIns (q : BitVec 1) (r : BitVec 1) (xs : BitVec 3) (s : State) : exec (.cskIns q r xs) s = execCskIns q r xs s := by with_unfolding_all rfl
theorem exec_cskDel (q : BitVec 1) (r : BitVec 1) (xs : BitVec 3) (s : State) : exec (.cskDel q r xs) s = execCskDel q r xs s := by with_unfolding_all rfl
theorem exec_cskSend (q : BitVec 1) (r : BitVec 1) (xs : BitVec 3) (s : State) : exec (.cskSend q r xs) s = execCskSend q r xs s := by with_unfolding_all rfl
theorem exec_cskXchg (q : BitVec 1) (r : BitVec 1) (xs : BitVec 3) (s : State) : exec (.cskXchg q r xs) s = execCskXchg q r xs s := by with_unfolding_all rfl
theorem exec_cskPeel (q : BitVec 1) (r : BitVec 1) (xs : BitVec 3) (s : State) : exec (.cskPeel q r xs) s = execCskPeel q r xs s := by with_unfolding_all rfl
theorem exec_cskFetch (q : BitVec 1) (r : BitVec 1) (xs : BitVec 3) (m : BitVec 1) (s : State) : exec (.cskFetch q r xs m) s = execCskFetch q r xs m s := by with_unfolding_all rfl
theorem exec_cskRsz (q : BitVec 1) (r : BitVec 1) (xs : BitVec 3) (s : State) : exec (.cskRsz q r xs) s = execCskRsz q r xs s := by with_unfolding_all rfl
theorem exec_cnop (s : State) : exec (.cnop) s = execCnop s := by with_unfolding_all rfl
theorem exec_cfence (q : BitVec 1) (r : BitVec 1) (xs : BitVec 3) (s : State) : exec (.cfence q r xs) s = execCfence q r xs s := by with_unfolding_all rfl
theorem exec_csig (q : BitVec 1) (r : BitVec 1) (xs : BitVec 3) (k : BitVec 2) (s : State) : exec (.csig q r xs k) s = execCsig q r xs k s := by with_unfolding_all rfl
theorem exec_commandMessage (node : Nat) (func : Nat) (ep : Nat) (host : Nat) (seq : Nat) (op : Nat) (len : Nat) (resv : Nat) (bytes : Nat) (tag : BitVec 64) (payload : List (BitVec 64)) (s : State) : exec (.commandMessage node func ep host seq op len resv bytes tag payload) s = execCommandMessage node func ep host seq op len resv bytes tag payload s := by with_unfolding_all rfl
theorem exec_slotLoad (node : Nat) (func : Nat) (idx : Nat) (s : State) : exec (.slotLoad node func idx) s = execSlotLoad node func idx s := by with_unfolding_all rfl
theorem exec_slotUnload (node : Nat) (func : Nat) (idx : Nat) (s : State) : exec (.slotUnload node func idx) s = execSlotUnload node func idx s := by with_unfolding_all rfl
theorem exec_slotQuery (node : Nat) (func : Nat) (idx : Nat) (s : State) : exec (.slotQuery node func idx) s = execSlotQuery node func idx s := by with_unfolding_all rfl
theorem exec_invoke (node : Nat) (func : Nat) (idx : Nat) (s : State) : exec (.invoke node func idx) s = execInvoke node func idx s := by with_unfolding_all rfl
theorem exec_schedSet (node : Nat) (func : Nat) (idx : Nat) (s : State) : exec (.schedSet node func idx) s = execSchedSet node func idx s := by with_unfolding_all rfl
theorem exec_admitRequest (node : Nat) (func : Nat) (idx : Nat) (s : State) : exec (.admitRequest node func idx) s = execAdmitRequest node func idx s := by with_unfolding_all rfl
theorem exec_cancel (node : Nat) (func : Nat) (idx : Nat) (s : State) : exec (.cancel node func idx) s = execCancel node func idx s := by with_unfolding_all rfl
theorem exec_packRegister (node : Nat) (func : Nat) (idx : Nat) (s : State) : exec (.packRegister node func idx) s = execPackRegister node func idx s := by with_unfolding_all rfl
theorem exec_packDrop (node : Nat) (func : Nat) (idx : Nat) (s : State) : exec (.packDrop node func idx) s = execPackDrop node func idx s := by with_unfolding_all rfl
theorem exec_invocationStart (node : Nat) (slice : Nat) (slot : Nat) (s : State) : exec (.invocationStart node slice slot) s = execInvocationStart node slice slot s := by with_unfolding_all rfl
theorem exec_iterationDispatch (node : Nat) (slice : Nat) (s : State) : exec (.iterationDispatch node slice) s = execIterationDispatch node slice s := by with_unfolding_all rfl
theorem exec_threadStart (node : Nat) (core : Nat) (s : State) : exec (.threadStart node core) s = execThreadStart node core s := by with_unfolding_all rfl
theorem exec_threadEnd (node : Nat) (core : Nat) (s : State) : exec (.threadEnd node core) s = execThreadEnd node core s := by with_unfolding_all rfl
theorem exec_copyNodeRetire (node : Nat) (slice : Nat) (slot : Nat) (n : Nat) (s : State) : exec (.copyNodeRetire node slice slot n) s = execCopyNodeRetire node slice slot n s := by with_unfolding_all rfl
theorem exec_nodeCond (node : Nat) (slice : Nat) (slot : Nat) (n : Nat) (s : State) : exec (.nodeCond node slice slot n) s = execNodeCond node slice slot n s := by with_unfolding_all rfl
theorem exec_nodeWhile (node : Nat) (slice : Nat) (slot : Nat) (n : Nat) (s : State) : exec (.nodeWhile node slice slot n) s = execNodeWhile node slice slot n s := by with_unfolding_all rfl
theorem exec_nodeNotify (node : Nat) (slice : Nat) (slot : Nat) (n : Nat) (s : State) : exec (.nodeNotify node slice slot n) s = execNodeNotify node slice slot n s := by with_unfolding_all rfl
theorem exec_invocationRetire (node : Nat) (slice : Nat) (slot : Nat) (s : State) : exec (.invocationRetire node slice slot) s = execInvocationRetire node slice slot s := by with_unfolding_all rfl
theorem exec_schedBoundary (node : Nat) (slice : Nat) (slot : Nat) (s : State) : exec (.schedBoundary node slice slot) s = execSchedBoundary node slice slot s := by with_unfolding_all rfl
theorem exec_packPlacementDone (node : Nat) (slice : Nat) (req : Nat) (s : State) : exec (.packPlacementDone node slice req) s = execPackPlacementDone node slice req s := by with_unfolding_all rfl
theorem exec_translationWalk (node : Nat) (core : Nat) (unit : Nat) (kind : Nat) (va : BitVec 64) (s : State) : exec (.translationWalk node core unit kind va) s = execTranslationWalk node core unit kind va s := by with_unfolding_all rfl
theorem exec_faultHandlerStart (node : Nat) (slice : Nat) (worker : Nat) (s : State) : exec (.faultHandlerStart node slice worker) s = execFaultHandlerStart node slice worker s := by with_unfolding_all rfl
theorem exec_timedWaitTimeout (node : Nat) (core : Nat) (s : State) : exec (.timedWaitTimeout node core) s = execTimedWaitTimeout node core s := by with_unfolding_all rfl
theorem exec_watchdogExpire (node : Nat) (core : Nat) (s : State) : exec (.watchdogExpire node core) s = execWatchdogExpire node core s := by with_unfolding_all rfl
theorem exec_bankPowerGate (node : Nat) (core : Nat) (bank : Nat) (s : State) : exec (.bankPowerGate node core bank) s = execBankPowerGate node core bank s := by with_unfolding_all rfl
theorem exec_loadQueueFill (node : Nat) (core : Nat) (q : Nat) (idx : Nat) (s : State) : exec (.loadQueueFill node core q idx) s = execLoadQueueFill node core q idx s := by with_unfolding_all rfl
theorem exec_taggedRequestAtHome (node : Nat) (core : Nat) (s : State) : exec (.taggedRequestAtHome node core) s = execTaggedRequestAtHome node core s := by with_unfolding_all rfl
theorem exec_routerAtomic (node : Nat) (core : Nat) (fn : Nat) (addr : BitVec 64) (operand : BitVec 64) (cmp : BitVec 64) (s : State) : exec (.routerAtomic node core fn addr operand cmp) s = execRouterAtomic node core fn addr operand cmp s := by with_unfolding_all rfl
theorem exec_gangPartArrive (node : Nat) (core : Nat) (member : Nat) (s : State) : exec (.gangPartArrive node core member) s = execGangPartArrive node core member s := by with_unfolding_all rfl
theorem exec_gangPartCommit (node : Nat) (core : Nat) (member : Nat) (s : State) : exec (.gangPartCommit node core member) s = execGangPartCommit node core member s := by with_unfolding_all rfl
theorem exec_fabricRequestReceive (src : Nat) (dst : Nat) (seq : Nat) (s : State) : exec (.fabricRequestReceive src dst seq) s = execFabricRequestReceive src dst seq s := by with_unfolding_all rfl
theorem exec_retransmitTimeout (src : Nat) (dst : Nat) (seq : Nat) (s : State) : exec (.retransmitTimeout src dst seq) s = execRetransmitTimeout src dst seq s := by with_unfolding_all rfl
theorem exec_replyReceive (src : Nat) (dst : Nat) (seq : Nat) (s : State) : exec (.replyReceive src dst seq) s = execReplyReceive src dst seq s := by with_unfolding_all rfl
theorem exec_packetResidencyDrop (src : Nat) (dst : Nat) (seq : Nat) (s : State) : exec (.packetResidencyDrop src dst seq) s = execPacketResidencyDrop src dst seq s := by with_unfolding_all rfl
theorem exec_heldReleasePerform (dst : Nat) (src : Nat) (seq : Nat) (s : State) : exec (.heldReleasePerform dst src seq) s = execHeldReleasePerform dst src seq s := by with_unfolding_all rfl
theorem exec_switchPortDownTimeout (sw : Nat) (node : Nat) (s : State) : exec (.switchPortDownTimeout sw node) s = execSwitchPortDownTimeout sw node s := by with_unfolding_all rfl
theorem exec_switchDropNotice (src : Nat) (dst : Nat) (seq : Nat) (s : State) : exec (.switchDropNotice src dst seq) s = execSwitchDropNotice src dst seq s := by with_unfolding_all rfl
theorem exec_packageReset (node : Nat) (s : State) : exec (.packageReset node) s = execPackageReset node s := by with_unfolding_all rfl
theorem exec_linkReady (node : Nat) (link : Nat) (s : State) : exec (.linkReady node link) s = execLinkReady node link s := by with_unfolding_all rfl
theorem exec_linkDown (node : Nat) (link : Nat) (s : State) : exec (.linkDown node link) s = execLinkDown node link s := by with_unfolding_all rfl
theorem exec_rejoinQuietExpire (node : Nat) (s : State) : exec (.rejoinQuietExpire node) s = execRejoinQuietExpire node s := by with_unfolding_all rfl
theorem exec_rejoinNotice (home : Nat) (src : Nat) (s : State) : exec (.rejoinNotice home src) s = execRejoinNotice home src s := by with_unfolding_all rfl
theorem exec_rejoinAck (node : Nat) (src : Nat) (s : State) : exec (.rejoinAck node src) s = execRejoinAck node src s := by with_unfolding_all rfl
theorem exec_rejoinAckTimeout (node : Nat) (src : Nat) (s : State) : exec (.rejoinAckTimeout node src) s = execRejoinAckTimeout node src s := by with_unfolding_all rfl
theorem exec_probeFire (node : Nat) (router : Nat) (s : State) : exec (.probeFire node router) s = execProbeFire node router s := by with_unfolding_all rfl
theorem exec_probeReturn (node : Nat) (router : Nat) (s : State) : exec (.probeReturn node router) s = execProbeReturn node router s := by with_unfolding_all rfl
theorem exec_switchFailureDeclare (node : Nat) (sw : Nat) (s : State) : exec (.switchFailureDeclare node sw) s = execSwitchFailureDeclare node sw s := by with_unfolding_all rfl
theorem exec_switchFailureNotice (node : Nat) (sw : Nat) (s : State) : exec (.switchFailureNotice node sw) s = execSwitchFailureNotice node sw s := by with_unfolding_all rfl
theorem exec_mirrorAck (sw : Nat) (idx : Nat) (s : State) : exec (.mirrorAck sw idx) s = execMirrorAck sw idx s := by with_unfolding_all rfl
theorem exec_reductionContribution (node : Nat) (core : Nat) (form : Bool) (ctx : BitVec 64) (capb : BitVec 64) (data : List Byte) (s : State) : exec (.reductionContribution node core form ctx capb data) s = execReductionContribution node core form ctx capb data s := by with_unfolding_all rfl
theorem exec_reductionLoad (node : Nat) (core : Nat) (ctx : BitVec 64) (capb : BitVec 64) (s : State) : exec (.reductionLoad node core ctx capb) s = execReductionLoad node core ctx capb s := by with_unfolding_all rfl
theorem exec_reductionRoundTimeout (sw : Nat) (ctx : Nat) (s : State) : exec (.reductionRoundTimeout sw ctx) s = execReductionRoundTimeout sw ctx s := by with_unfolding_all rfl
theorem exec_d2dLinkFail (node : Nat) (pair : Nat) (s : State) : exec (.d2dLinkFail node pair) s = execD2dLinkFail node pair s := by with_unfolding_all rfl
theorem exec_kvHalvesMatch (send : Nat) (pull : Nat) (s : State) : exec (.kvHalvesMatch send pull) s = execKvHalvesMatch send pull s := by with_unfolding_all rfl
theorem exec_kvPageLanded (pull : Nat) (page : Nat) (s : State) : exec (.kvPageLanded pull page) s = execKvPageLanded pull page s := by with_unfolding_all rfl
theorem exec_kvTransferTimeout (half : Nat) (s : State) : exec (.kvTransferTimeout half) s = execKvTransferTimeout half s := by with_unfolding_all rfl
theorem exec_kvTransferEnd (half : Nat) (code : Nat) (s : State) : exec (.kvTransferEnd half code) s = execKvTransferEnd half code s := by with_unfolding_all rfl
theorem exec_slbind (node : Nat) (v : BitVec 64) (s : State) : exec (.slbind node v) s = execSlbind node v s := by with_unfolding_all rfl
theorem exec_funcStore (node : Nat) (slice : Nat) (func : Nat) (s : State) : exec (.funcStore node slice func) s = execFuncStore node slice func s := by with_unfolding_all rfl
theorem exec_preempt (node : Nat) (v : BitVec 64) (s : State) : exec (.preempt node v) s = execPreempt node v s := by with_unfolding_all rfl
theorem exec_stopComplete (node : Nat) (slice : Nat) (s : State) : exec (.stopComplete node slice) s = execStopComplete node slice s := by with_unfolding_all rfl
theorem exec_freeze (node : Nat) (core : Nat) (s : State) : exec (.freeze node core) s = execFreeze node core s := by with_unfolding_all rfl
theorem exec_ctxopSave (node : Nat) (v : BitVec 64) (s : State) : exec (.ctxopSave node v) s = execCtxopSave node v s := by with_unfolding_all rfl
theorem exec_ctxopHold (node : Nat) (v : BitVec 64) (s : State) : exec (.ctxopHold node v) s = execCtxopHold node v s := by with_unfolding_all rfl
theorem exec_ctxopRestore (node : Nat) (v : BitVec 64) (s : State) : exec (.ctxopRestore node v) s = execCtxopRestore node v s := by with_unfolding_all rfl
theorem exec_ctxopResume (node : Nat) (v : BitVec 64) (s : State) : exec (.ctxopResume node v) s = execCtxopResume node v s := by with_unfolding_all rfl
theorem exec_contextSaveDone (node : Nat) (s : State) : exec (.contextSaveDone node) s = execContextSaveDone node s := by with_unfolding_all rfl
theorem exec_contextRestoreDone (node : Nat) (s : State) : exec (.contextRestoreDone node) s = execContextRestoreDone node s := by with_unfolding_all rfl
theorem exec_epbindDetach (node : Nat) (v : BitVec 64) (s : State) : exec (.epbindDetach node v) s = execEpbindDetach node v s := by with_unfolding_all rfl
theorem exec_epbindAttach (node : Nat) (v : BitVec 64) (s : State) : exec (.epbindAttach node v) s = execEpbindAttach node v s := by with_unfolding_all rfl
theorem exec_slfree (node : Nat) (v : BitVec 64) (s : State) : exec (.slfree node v) s = execSlfree node v s := by with_unfolding_all rfl
theorem exec_fnfree (node : Nat) (v : BitVec 64) (s : State) : exec (.fnfree node v) s = execFnfree node v s := by with_unfolding_all rfl
theorem exec_keyctlLoad (node : Nat) (v : BitVec 64) (s : State) : exec (.keyctlLoad node v) s = execKeyctlLoad node v s := by with_unfolding_all rfl
theorem exec_keyctlErase (node : Nat) (v : BitVec 64) (s : State) : exec (.keyctlErase node v) s = execKeyctlErase node v s := by with_unfolding_all rfl
theorem exec_debugUnlock (node : Nat) (v : BitVec 64) (s : State) : exec (.debugUnlock node v) s = execDebugUnlock node v s := by with_unfolding_all rfl
theorem exec_relbase (node : Nat) (v : BitVec 64) (s : State) : exec (.relbase node v) s = execRelbase node v s := by with_unfolding_all rfl
theorem exec_reltail (node : Nat) (v : BitVec 64) (s : State) : exec (.reltail node v) s = execReltail node v s := by with_unfolding_all rfl
theorem exec_relovf (node : Nat) (v : BitVec 64) (s : State) : exec (.relovf node v) s = execRelovf node v s := by with_unfolding_all rfl
theorem exec_relhead (node : Nat) (core : Nat) (d : BitVec 5) (s : State) : exec (.relhead node core d) s = execRelhead node core d s := by with_unfolding_all rfl
theorem exec_rstkbase (node : Nat) (core : Nat) (v : BitVec 64) (s : State) : exec (.rstkbase node core v) s = execRstkbase node core v s := by with_unfolding_all rfl
theorem exec_spdmMessage (node : Nat) (ep : Nat) (code : Nat) (param : BitVec 64) (s : State) : exec (.spdmMessage node ep code param) s = execSpdmMessage node ep code param s := by with_unfolding_all rfl
theorem exec_operatorCommand (node : Nat) (ep : Nat) (kind : Nat) (key : BitVec 256) (cseq : BitVec 64) (body : List (BitVec 64)) (sig : BitVec 512) (s : State) : exec (.operatorCommand node ep kind key cseq body sig) s = execOperatorCommand node ep kind key cseq body sig s := by with_unfolding_all rfl
theorem exec_imageWrite (node : Nat) (ep : Nat) (key : BitVec 256) (cseq : BitVec 64) (hdr : BitVec 64) (image : List Byte) (sig : BitVec 512) (s : State) : exec (.imageWrite node ep key cseq hdr image sig) s = execImageWrite node ep key cseq hdr image sig s := by with_unfolding_all rfl
theorem exec_tenantKeyDelivery (node : Nat) (ep : Nat) (func : Nat) (key : BitVec 512) (s : State) : exec (.tenantKeyDelivery node ep func key) s = execTenantKeyDelivery node ep func key s := by with_unfolding_all rfl
theorem exec_switchAttach (owner : Nat) (ofunc : Nat) (entry : Nat) (node : Nat) (func : Nat) (vbase : BitVec 64) (s : State) : exec (.switchAttach owner ofunc entry node func vbase) s = execSwitchAttach owner ofunc entry node func vbase s := by with_unfolding_all rfl
theorem exec_switchReadmit (node : Nat) (sw : Nat) (s : State) : exec (.switchReadmit node sw) s = execSwitchReadmit node sw s := by with_unfolding_all rfl
theorem exec_readmitNotice (node : Nat) (sw : Nat) (s : State) : exec (.readmitNotice node sw) s = execReadmitNotice node sw s := by with_unfolding_all rfl
theorem exec_lockstepMismatch (node : Nat) (s : State) : exec (.lockstepMismatch node) s = execLockstepMismatch node s := by with_unfolding_all rfl
theorem exec_workerTimeout (node : Nat) (worker : Nat) (s : State) : exec (.workerTimeout node worker) s = execWorkerTimeout node worker s := by with_unfolding_all rfl
theorem exec_thermalThrottle (node : Nat) (die : Nat) (s : State) : exec (.thermalThrottle node die) s = execThermalThrottle node die s := by with_unfolding_all rfl
theorem exec_powerThrottle (node : Nat) (die : Nat) (s : State) : exec (.powerThrottle node die) s = execPowerThrottle node die s := by with_unfolding_all rfl
theorem exec_taggedWaitWithdrawal (node : Nat) (core : Nat) (s : State) : exec (.taggedWaitWithdrawal node core) s = execTaggedWaitWithdrawal node core s := by with_unfolding_all rfl
theorem exec_patrolScrub (node : Nat) (line : BitVec 64) (s : State) : exec (.patrolScrub node line) s = execPatrolScrub node line s := by with_unfolding_all rfl
theorem exec_lifecycleChange (node : Nat) (state : Nat) (s : State) : exec (.lifecycleChange node state) s = execLifecycleChange node state s := by with_unfolding_all rfl

end Sys2Proof.Machine
end

