-- ==== Sys2Proof/Laws/Tab.lean ====
section
/-!
SUPPORT. Laws of sorted tables and of memory: reading after writing, and the canonical form that every operation keeps.
-/
namespace Sys2Proof.Machine
open Sys2Proof

/-! ### Reading a table after a change -/

@[simp] theorem Tab.get?_put {α : Type} (t : Tab α) (a b : Nat) (v : α) :
    Tab.get? (Tab.put t a v) b = if b = a then some v else Tab.get? t b := by
  induction t with
  | nil => simp only [Tab.put, Tab.get?]; split <;> simp
  | cons e t ih =>
    obtain ⟨k, w⟩ := e
    simp only [Tab.put]
    split
    · simp only [Tab.get?]
      split
      · rfl
      · split
        · rw [if_neg (by omega), if_pos (by omega)]
        · rfl
    · split
      · subst k; simp only [Tab.get?]; split <;> simp_all
      · simp only [Tab.get?, ih]
        split
        · rw [if_neg (by omega)]
        · split
          · rw [if_neg (by omega)]
          · rfl

@[simp] theorem Tab.getD_put {α : Type} (t : Tab α) (a b : Nat) (v d : α) :
    Tab.getD (Tab.put t a v) b d = if b = a then v else Tab.getD t b d := by
  simp only [Tab.getD, Tab.get?_put]
  split <;> rfl

@[simp] theorem Tab.get?_nil {α : Type} (a : Nat) : Tab.get? ([] : Tab α) a = none := rfl
@[simp] theorem Tab.getD_nil {α : Type} (a : Nat) (d : α) : Tab.getD ([] : Tab α) a d = d := rfl

/-- The key of a first entry lies below every other key, and the rest is sorted. -/
theorem Tab.rising_cons {α : Type} {k : Nat} {w : α} {t : Tab α} :
    Tab.rising ((k, w) :: t) = true ↔ (∀ e ∈ t, k < e.1) ∧ Tab.rising t = true := by
  induction t generalizing k w with
  | nil => simp [Tab.rising]
  | cons e t ih =>
    obtain ⟨j, x⟩ := e
    simp only [Tab.rising, Bool.and_eq_true, decide_eq_true_eq, List.mem_cons, forall_eq_or_imp]
    constructor
    · rintro ⟨h, r⟩
      exact ⟨⟨h, fun e he => Nat.lt_trans h ((ih.1 r).1 e he)⟩, r⟩
    · rintro ⟨⟨h, _⟩, r⟩
      exact ⟨h, r⟩

theorem Tab.get?_none {α : Type} {t : Tab α} {a : Nat} (h : ∀ e ∈ t, a < e.1) : Tab.get? t a = none := by
  cases t with
  | nil => rfl
  | cons e t =>
    obtain ⟨k, w⟩ := e
    have hk : a < k := h _ (List.mem_cons_self ..)
    simp only [Tab.get?]
    rw [if_neg (by omega), if_pos hk]

theorem Tab.get?_del {α : Type} {t : Tab α} (h : Tab.rising t = true) (a b : Nat) :
    Tab.get? (Tab.del t a) b = if b = a then none else Tab.get? t b := by
  induction t with
  | nil => simp [Tab.del]
  | cons e t ih =>
    obtain ⟨k, w⟩ := e
    obtain ⟨hk, ht⟩ := Tab.rising_cons.1 h
    simp only [Tab.del]
    split
    · subst k
      split
      · subst b; exact Tab.get?_none hk
      · rename_i hb
        simp only [Tab.get?]
        rw [if_neg hb]
        split
        · exact Tab.get?_none fun e he => by have := hk e he; omega
        · rfl
    · split
      · split
        · subst b; simp only [Tab.get?]; rw [if_neg (by omega), if_pos (by omega)]
        · rfl
      · simp only [Tab.get?, ih ht]
        split
        · rw [if_neg (by omega)]
        · split
          · rw [if_neg (by omega)]
          · rfl

/-! ### The canonical form -/

theorem Tab.mem_put {α : Type} {t : Tab α} {a : Nat} {v : α} {e : Nat × α} (h : e ∈ Tab.put t a v) : e = (a, v) ∨ e ∈ t := by
  induction t with
  | nil => simpa [Tab.put] using h
  | cons f t ih =>
    obtain ⟨k, w⟩ := f
    simp only [Tab.put] at h
    split at h
    · simpa using h
    · split at h <;> simp only [List.mem_cons] at h ⊢
      · rcases h with h | h
        · exact .inl h
        · exact .inr (.inr h)
      · rcases h with h | h
        · exact .inr (.inl h)
        · rcases ih h with h | h
          · exact .inl h
          · exact .inr (.inr h)

theorem Tab.mem_del {α : Type} {t : Tab α} {a : Nat} {e : Nat × α} (h : e ∈ Tab.del t a) : e ∈ t := by
  induction t with
  | nil => simp [Tab.del] at h
  | cons f t ih =>
    obtain ⟨k, w⟩ := f
    simp only [Tab.del] at h
    split at h
    · exact List.mem_cons_of_mem _ h
    · split at h
      · exact h
      · simp only [List.mem_cons] at h ⊢
        rcases h with h | h
        · exact .inl h
        · exact .inr (ih h)

theorem Tab.rising_put {α : Type} {t : Tab α} (h : Tab.rising t = true) (a : Nat) (v : α) : Tab.rising (Tab.put t a v) = true := by
  induction t with
  | nil => rfl
  | cons f t ih =>
    obtain ⟨k, w⟩ := f
    obtain ⟨hk, ht⟩ := Tab.rising_cons.1 h
    simp only [Tab.put]
    split
    · rename_i ha
      exact Tab.rising_cons.2 ⟨by
        intro e he
        simp only [List.mem_cons] at he
        rcases he with rfl | he
        · exact ha
        · exact Nat.lt_trans ha (hk e he), h⟩
    · split
      · rename_i ha; subst k; exact Tab.rising_cons.2 ⟨hk, ht⟩
      · refine Tab.rising_cons.2 ⟨fun e he => ?_, ih ht⟩
        rcases Tab.mem_put he with rfl | he
        · show k < a; omega
        · exact hk e he

theorem Tab.rising_del {α : Type} {t : Tab α} (h : Tab.rising t = true) (a : Nat) : Tab.rising (Tab.del t a) = true := by
  induction t with
  | nil => rfl
  | cons f t ih =>
    obtain ⟨k, w⟩ := f
    obtain ⟨hk, ht⟩ := Tab.rising_cons.1 h
    simp only [Tab.del]
    split
    · exact ht
    · split
      · exact h
      · exact Tab.rising_cons.2 ⟨fun e he => hk e (Tab.mem_del he), ih ht⟩

theorem Tab.rising_filter {α : Type} {t : Tab α} (h : Tab.rising t = true) (p : Nat × α → Bool) : Tab.rising (t.filter p) = true := by
  induction t with
  | nil => rfl
  | cons f t ih =>
    obtain ⟨k, w⟩ := f
    obtain ⟨hk, ht⟩ := Tab.rising_cons.1 h
    simp only [List.filter_cons]
    split
    · exact Tab.rising_cons.2 ⟨fun e he => hk e (List.mem_filter.1 he).1, ih ht⟩
    · exact ih ht

theorem Memory.wf_iff (m : Memory) : m.wf = true ↔ Tab.rising m = true ∧ ∀ c ∈ m, c.2 ≠ 0 := by
  simp [Memory.wf, List.all_eq_true]

theorem Memory.wf_nil : Memory.wf [] = true := rfl

theorem Memory.wf_set {m : Memory} (h : m.wf = true) (a : Nat) (v : Byte) : (m.set a v).wf = true := by
  rw [Memory.wf_iff] at h ⊢
  unfold Memory.set Tab.write
  split
  · exact ⟨Tab.rising_del h.1 a, fun c hc => h.2 c (Tab.mem_del hc)⟩
  · rename_i hv
    refine ⟨Tab.rising_put h.1 a v, fun c hc => ?_⟩
    rcases Tab.mem_put hc with rfl | hc
    · exact hv
    · exact h.2 c hc

theorem Memory.mem_listed {a : Nat} {bs : List Byte} {c : Nat × Byte} (h : c ∈ Memory.listed a bs) :
    a ≤ c.1 ∧ c.1 < a + bs.length ∧ c.2 ≠ 0 := by
  induction bs generalizing a with
  | nil => simp [Memory.listed] at h
  | cons b t ih =>
    simp only [Memory.listed] at h
    split at h
    · have := ih h; simp only [List.length_cons]; exact ⟨by omega, by omega, this.2.2⟩
    · rename_i hb
      simp only [List.mem_cons] at h
      rcases h with rfl | h
      · simp only [List.length_cons]; exact ⟨by omega, by omega, hb⟩
      · have := ih h; simp only [List.length_cons]; exact ⟨by omega, by omega, this.2.2⟩

theorem Memory.rising_listed {a : Nat} {bs : List Byte} {r : Memory} (h : Tab.rising r = true) (hr : ∀ c ∈ r, a + bs.length ≤ c.1) :
    Tab.rising (Memory.listed a bs ++ r) = true := by
  induction bs generalizing a with
  | nil => exact h
  | cons b t ih =>
    have ih' := ih (a := a + 1) fun c hc => by have := hr c hc; simp only [List.length_cons] at this; omega
    simp only [Memory.listed]
    split
    · exact ih'
    · refine Tab.rising_cons.2 ⟨fun c hc => ?_, ih'⟩
      rcases List.mem_append.1 hc with hc | hc
      · have := (Memory.mem_listed hc).1; omega
      · have := hr c hc; simp only [List.length_cons] at this; omega

/-- What is left of a sorted list behind a bound. -/
theorem Memory.mem_behind {m : Memory} (h : Tab.rising m = true) {n : Nat} {c : Nat × Byte} (hc : c ∈ m.dropWhile fun c => c.1 < n) :
    n ≤ c.1 ∧ c ∈ m := by
  induction m with
  | nil => simp at hc
  | cons e t ih =>
    obtain ⟨k, v⟩ := e
    obtain ⟨hk, ht⟩ := Tab.rising_cons.1 h
    by_cases hn : k < n
    · rw [List.dropWhile_cons_of_pos (by simpa using hn)] at hc
      have := ih ht hc
      exact ⟨this.1, List.mem_cons_of_mem _ this.2⟩
    · rw [List.dropWhile_cons_of_neg (by simpa using hn)] at hc
      refine ⟨?_, hc⟩
      rcases List.mem_cons.1 hc with rfl | hc
      · omega
      · have := hk c hc; omega

theorem Memory.rising_behind {m : Memory} (h : Tab.rising m = true) (n : Nat) : Tab.rising (m.dropWhile fun c => c.1 < n) = true := by
  induction m with
  | nil => rfl
  | cons e t ih =>
    obtain ⟨k, v⟩ := e
    by_cases hn : k < n
    · rw [List.dropWhile_cons_of_pos (by simpa using hn)]; exact ih (Tab.rising_cons.1 h).2
    · rw [List.dropWhile_cons_of_neg (by simpa using hn)]; exact h

theorem Memory.mem_write {m : Memory} (h : Tab.rising m = true) {a : Nat} {bs : List Byte} {c : Nat × Byte} (hc : c ∈ m.write a bs) :
    c ∈ Memory.listed a bs ∨ c ∈ m := by
  induction m with
  | nil => exact .inl hc
  | cons e t ih =>
    obtain ⟨k, v⟩ := e
    simp only [Memory.write] at hc
    split at hc
    · rcases List.mem_cons.1 hc with rfl | hc
      · exact .inr (List.mem_cons_self ..)
      · rcases ih (Tab.rising_cons.1 h).2 hc with h1 | h1
        · exact .inl h1
        · exact .inr (List.mem_cons_of_mem _ h1)
    · rcases List.mem_append.1 hc with hc | hc
      · exact .inl hc
      · exact .inr (Memory.mem_behind h hc).2

theorem Memory.wf_write {m : Memory} (h : m.wf = true) (a : Nat) (bs : List Byte) : (m.write a bs).wf = true := by
  rw [Memory.wf_iff] at h ⊢
  obtain ⟨hr, hz⟩ := h
  refine ⟨?_, fun c hc => ?_⟩
  · induction m with
    | nil =>
      have e := Memory.rising_listed (a := a) (bs := bs) (r := []) rfl (by simp)
      rw [List.append_nil] at e
      exact e
    | cons e t ih =>
      obtain ⟨k, v⟩ := e
      obtain ⟨hk, ht⟩ := Tab.rising_cons.1 hr
      simp only [Memory.write]
      split
      · rename_i ha
        refine Tab.rising_cons.2 ⟨fun c hc => ?_, ih ht fun c hc => hz c (List.mem_cons_of_mem _ hc)⟩
        rcases Memory.mem_write ht hc with hc | hc
        · have := (Memory.mem_listed hc).1; show k < c.1; omega
        · exact hk c hc
      · exact Memory.rising_listed (Memory.rising_behind hr _) fun c hc => (Memory.mem_behind hr hc).1
  · rcases Memory.mem_write hr hc with hc | hc
    · exact (Memory.mem_listed hc).2.2
    · exact hz c hc

theorem Memory.wf_zero {m : Memory} (h : m.wf = true) (lo hi : Nat) : (m.zero lo hi).wf = true := by
  rw [Memory.wf_iff] at h ⊢
  exact ⟨Tab.rising_filter h.1 _, fun c hc => h.2 c (List.mem_filter.1 hc).1⟩

/-! ### Reading memory after writing -/

@[simp] theorem Memory.get_nil (a : Nat) : Memory.get [] a = 0 := rfl

/-- A byte reads as it was written, and every other byte as before. -/
theorem Memory.get_set {m : Memory} (h : m.wf = true) (a b : Nat) (v : Byte) :
    (m.set a v).get b = if b = a then v else m.get b := by
  rw [Memory.wf_iff] at h
  unfold Memory.set Tab.write Memory.get
  split
  · rename_i hv
    subst hv
    simp only [Tab.getD, Tab.get?_del h.1]
    split <;> rfl
  · rw [Tab.getD_put]

/-- Listed bytes read as listed, before a rest that begins behind them. -/
theorem Memory.get_listed {a : Nat} {bs : List Byte} {r : Memory} (hr : ∀ c ∈ r, a + bs.length ≤ c.1) (b : Nat) :
    Memory.get (Memory.listed a bs ++ r) b =
      if b < a then 0 else if b < a + bs.length then bs.getD (b - a) 0 else Memory.get r b := by
  induction bs generalizing a with
  | nil =>
    simp only [Memory.listed, List.nil_append, List.length_nil]
    split
    · unfold Memory.get Tab.getD
      rw [Tab.get?_none fun e he => by have := hr e he; simp only [List.length_nil] at this; omega]
      rfl
    · rw [if_neg (by omega)]
  | cons c t ih =>
    have ih' := ih (a := a + 1) fun e he => by have := hr e he; simp only [List.length_cons] at this; omega
    simp only [Memory.listed, List.length_cons]
    by_cases h1 : b = a
    · subst h1
      rw [if_neg (Nat.lt_irrefl b)]
      by_cases hc : c = 0
      · rw [if_pos hc, ih', if_pos (by omega), if_pos (by omega)]; simp [hc]
      · rw [if_neg hc, if_pos (by omega)]; simp [Memory.get, Tab.getD, Tab.get?]
    · have step : Memory.get ((if c = 0 then Memory.listed (a + 1) t else (a, c) :: Memory.listed (a + 1) t) ++ r) b =
          if b < a then 0 else Memory.get (Memory.listed (a + 1) t ++ r) b := by
        split
        · split
          · rw [ih', if_pos (by omega)]
          · rfl
        · simp only [List.cons_append, Memory.get, Tab.getD, Tab.get?]
          rw [if_neg h1]
          split <;> rfl
      rw [step]
      split
      · rfl
      · rw [ih', if_neg (by omega)]
        by_cases h2 : b < a + 1 + t.length
        · rw [if_pos h2, if_pos (by omega)]
          obtain ⟨n, rfl⟩ : ∃ n, b = a + 1 + n := ⟨b - (a + 1), by omega⟩
          have e1 : a + 1 + n - (a + 1) = n := by omega
          have e2 : a + 1 + n - a = n + 1 := by omega
          rw [e1, e2]; rfl
        · rw [if_neg h2, if_neg (by omega)]

/-- Reading behind a bound is not changed by what stands before it. -/
theorem Memory.get_behind {m : Memory} (h : Tab.rising m = true) (n b : Nat) (hb : n ≤ b) :
    Memory.get (m.dropWhile fun c => c.1 < n) b = m.get b := by
  induction m with
  | nil => rfl
  | cons e t ih =>
    obtain ⟨k, v⟩ := e
    by_cases hn : k < n
    · rw [List.dropWhile_cons_of_pos (by simpa using hn), ih (Tab.rising_cons.1 h).2]
      simp only [Memory.get, Tab.getD, Tab.get?]
      rw [if_neg (by omega), if_neg (by omega)]
    · rw [List.dropWhile_cons_of_neg (by simpa using hn)]

/-- After a write of a list of bytes, a byte of its range reads as written, and every other byte as before. -/
theorem Memory.get_write {m : Memory} (h : m.wf = true) (a : Nat) (bs : List Byte) (b : Nat) :
    (m.write a bs).get b = if a ≤ b ∧ b < a + bs.length then bs.getD (b - a) 0 else m.get b := by
  have hr := ((Memory.wf_iff m).1 h).1
  clear h
  induction m with
  | nil =>
    have e := Memory.get_listed (a := a) (bs := bs) (r := []) (by simp) b
    simp only [List.append_nil] at e
    simp only [Memory.write, e, Memory.get_nil]
    by_cases h1 : b < a
    · rw [if_pos h1, if_neg (by omega)]
    · rw [if_neg h1]
      by_cases h2 : b < a + bs.length
      · rw [if_pos h2, if_pos (by omega)]
      · rw [if_neg h2, if_neg (by omega)]
  | cons e t ih =>
    obtain ⟨k, v⟩ := e
    obtain ⟨hk, ht⟩ := Tab.rising_cons.1 hr
    simp only [Memory.write]
    split
    · rename_i ha
      have ih' := ih ht
      simp only [Memory.get, Tab.getD, Tab.get?] at ih' ⊢
      by_cases h1 : b = k
      · subst h1; rw [if_pos rfl, if_neg (by omega), if_pos rfl]
      · rw [if_neg h1, if_neg h1]
        by_cases h2 : b < k
        · rw [if_pos h2, if_pos h2, if_neg (by omega)]
        · rw [if_neg h2, if_neg h2]; exact ih'
    · rename_i ha
      rw [Memory.get_listed fun c hc => (Memory.mem_behind hr hc).1]
      by_cases h1 : b < a
      · rw [if_pos h1, if_neg (by omega)]
        simp only [Memory.get, Tab.getD, Tab.get?]
        rw [if_neg (by omega), if_pos (by omega)]; rfl
      · rw [if_neg h1]
        by_cases h2 : b < a + bs.length
        · rw [if_pos h2, if_pos (by omega)]
        · rw [if_neg h2, if_neg (by omega), Memory.get_behind hr _ _ (by omega)]

@[simp] theorem Memory.length_readFrom (m : Memory) (a n : Nat) : (m.readFrom a n).length = n := by
  induction n generalizing m a with
  | zero => unfold Memory.readFrom; rfl
  | succ n ih =>
    cases m with
    | nil => simp [Memory.readFrom, ih]
    | cons e t => obtain ⟨k, v⟩ := e; simp only [Memory.readFrom]; split <;> simp [ih]

@[simp] theorem Memory.length_read (m : Memory) (a n : Nat) : (m.read a n).length = n := Memory.length_readFrom _ a n

theorem Memory.readFrom_eq {m : Memory} (h : Tab.rising m = true) (a n : Nat) (ha : ∀ c ∈ m, a ≤ c.1) :
    m.readFrom a n = (List.range' a n).map m.get := by
  induction n generalizing m a with
  | zero => unfold Memory.readFrom; rfl
  | succ n ih =>
    cases m with
    | nil => simp only [Memory.readFrom, List.range'_succ, List.map_cons, Memory.get_nil]; rw [ih rfl _ (by simp)]
    | cons e t =>
      obtain ⟨k, v⟩ := e
      obtain ⟨hk, ht⟩ := Tab.rising_cons.1 h
      have h0 : a ≤ k := ha _ (List.mem_cons_self ..)
      simp only [Memory.readFrom, List.range'_succ, List.map_cons]
      split
      · rename_i e; subst e
        rw [ih ht _ fun c hc => by have := hk c hc; omega]
        congr 1
        · simp [Memory.get, Tab.getD, Tab.get?]
        · refine List.map_congr_left fun b hb => ?_
          have hb' := List.mem_range'_1.1 hb
          simp only [Memory.get, Tab.getD, Tab.get?]
          rw [if_neg (by omega), if_neg (by omega)]
      · rw [ih h _ fun c hc => by
          rcases List.mem_cons.1 hc with rfl | hc
          · show a + 1 ≤ k; omega
          · have := hk c hc; omega]
        congr 1
        simp only [Memory.get, Tab.getD, Tab.get?]
        rw [if_neg (by omega), if_pos (by omega)]; rfl

/-- The bytes of a range, one by one. -/
theorem Memory.read_eq {m : Memory} (h : m.wf = true) (a n : Nat) : m.read a n = (List.range' a n).map m.get := by
  have hr := ((Memory.wf_iff m).1 h).1
  unfold Memory.read
  rw [Memory.readFrom_eq (Memory.rising_behind hr a) a n fun c hc => (Memory.mem_behind hr hc).1]
  refine List.map_congr_left fun b hb => ?_
  exact Memory.get_behind hr a b (List.mem_range'_1.1 hb).1

/-- What was written reads back. -/
theorem Memory.read_write {m : Memory} (h : m.wf = true) (a : Nat) (bs : List Byte) : (m.write a bs).read a bs.length = bs := by
  rw [Memory.read_eq (Memory.wf_write h a bs)]
  refine List.ext_getElem (by simp) fun i h1 h2 => ?_
  simp only [List.getElem_map, List.getElem_range', Nat.one_mul]
  rw [Memory.get_write h, if_pos (by omega)]
  have e : a + i - a = i := by omega
  simp [e, h2]

/-- Bytes read before a write of another range are the bytes read after it. -/
theorem Memory.read_write_other {m : Memory} (h : m.wf = true) (a : Nat) (bs : List Byte) (b n : Nat)
    (hb : b + n ≤ a ∨ a + bs.length ≤ b) : (m.write a bs).read b n = m.read b n := by
  rw [Memory.read_eq (Memory.wf_write h a bs), Memory.read_eq h]
  refine List.map_congr_left fun i hi => ?_
  have := List.mem_range'_1.1 hi
  rw [Memory.get_write h, if_neg (by omega)]

end Sys2Proof.Machine
end

