-- ==== Sys2Proof/Laws/State.lean ====
section
/-!
SUPPORT. What each plain update of the state leaves in each field, and what the accessors read after it.
-/
namespace Sys2Proof.Machine

/-! ### Accessors of tables -/

@[simp] theorem State.core_putCore (s : State) (k j : Nat) (c : Core) : (s.putCore k c).core j = if j = k then c else s.core j := by
  simp [State.core, State.putCore]
@[simp] theorem State.slice_putSlice (s : State) (k j : Nat) (c : Slice) : (s.putSlice k c).slice j = if j = k then c else s.slice j := by
  simp [State.slice, State.putSlice]
@[simp] theorem State.pkg_putPkg (s : State) (k j : Nat) (p : Package) : (s.putPkg k p).pkg j = if j = k then p else s.pkg j := by
  simp [State.pkg, State.putPkg]
@[simp] theorem State.switch_putSwitch (s : State) (k j : Nat) (w : Switch) : (s.putSwitch k w).switch j = if j = k then w else s.switch j := by
  simp [State.switch, State.putSwitch]
@[simp] theorem State.me_setMe (s : State) (c : Core) : (s.setMe c).me = c := by
  simp [State.me, State.setMe, State.core, State.putCore]
@[simp] theorem State.core_setMe (s : State) (c : Core) (j : Nat) : (s.setMe c).core j = if j = s.cur then c else s.core j := by
  simp [State.setMe]
theorem State.me_eq (s : State) : s.me = s.core s.cur := rfl
theorem State.me_putCore (s : State) (k : Nat) (c : Core) : (s.putCore k c).me = if s.cur = k then c else s.me := by
  simp [State.me, State.core, State.putCore]

/-! ### Registers -/

@[simp] theorem Core.reg_zero (c : Core) : c.reg 0 = 0 := rfl
@[simp] theorem Core.pred_zero (c : Core) : c.pred 0 = true := rfl
@[simp] theorem State.reg_zero (s : State) : s.reg 0 = 0 := rfl
@[simp] theorem State.pred_zero (s : State) : s.pred 0 = true := rfl

theorem Core.reg_setReg (c : Core) (r q : BitVec 5) (v : W64) : (c.setReg r v).reg q = if q = r ∧ q ≠ 0 then v else c.reg q := by
  unfold Core.setReg Core.reg
  by_cases hr : r = 0
  · subst hr; by_cases hq : q = 0 <;> simp [hq]
  · by_cases hq : q = 0
    · simp [hq]
    · simp only [hr, hq, if_false]
      by_cases h : q = r
      · subst h; simp; intro h0; exact absurd h0 hr
      · simp only [h, false_and, if_false]
        rw [Vector.getElem_set_ne]
        exact fun e => h (BitVec.eq_of_toNat_eq e.symm)

theorem Core.pred_setPred (c : Core) (r q : BitVec 3) (v : Bool) : (c.setPred r v).pred q = if q = r ∧ q ≠ 0 then v else c.pred q := by
  unfold Core.setPred Core.pred
  by_cases hr : r = 0
  · subst hr; by_cases hq : q = 0 <;> simp [hq]
  · by_cases hq : q = 0
    · simp [hq]
    · simp only [hr, hq, if_false]
      by_cases h : q = r
      · subst h; simp; intro h0; exact absurd h0 hr
      · simp only [h, false_and, if_false]
        rw [Vector.getElem_set_ne]
        exact fun e => h (BitVec.eq_of_toNat_eq e.symm)

/-- A write of a scalar register changes that register and nothing else; a write of s0 changes nothing (R116). -/
theorem State.reg_setReg (s : State) (r q : BitVec 5) (v : W64) : (s.setReg r v).reg q = if q = r ∧ q ≠ 0 then v else s.reg q := by
  simp [State.reg, State.setReg, Core.reg_setReg]
/-- A write of a predicate register changes that register and nothing else; a write of p0 changes nothing (R116). -/
theorem State.pred_setPred (s : State) (r q : BitVec 3) (v : Bool) : (s.setPred r v).pred q = if q = r ∧ q ≠ 0 then v else s.pred q := by
  simp [State.pred, State.setPred, Core.pred_setPred]

/-! ### Fields of a core -/

@[simp] theorem Core.setReg_run (c : Core) (r : BitVec 5) (v : W64) : (c.setReg r v).run = c.run := by unfold Core.setReg; split <;> rfl
@[simp] theorem Core.setReg_stop (c : Core) (r : BitVec 5) (v : W64) : (c.setReg r v).stop = c.stop := by unfold Core.setReg; split <;> rfl
@[simp] theorem Core.setReg_fault (c : Core) (r : BitVec 5) (v : W64) : (c.setReg r v).fault = c.fault := by unfold Core.setReg; split <;> rfl
@[simp] theorem Core.setReg_pc (c : Core) (r : BitVec 5) (v : W64) : (c.setReg r v).pc = c.pc := by unfold Core.setReg; split <;> rfl
@[simp] theorem Core.setReg_p (c : Core) (r : BitVec 5) (v : W64) : (c.setReg r v).p = c.p := by unfold Core.setReg; split <;> rfl
@[simp] theorem Core.setReg_bx (c : Core) (r : BitVec 5) (v : W64) : (c.setReg r v).bx = c.bx := by unfold Core.setReg; split <;> rfl
@[simp] theorem Core.setReg_sh (c : Core) (r : BitVec 5) (v : W64) : (c.setReg r v).sh = c.sh := by unfold Core.setReg; split <;> rfl
@[simp] theorem Core.setReg_rstk (c : Core) (r : BitVec 5) (v : W64) : (c.setReg r v).rstk = c.rstk := by unfold Core.setReg; split <;> rfl
@[simp] theorem Core.setReg_rstkBase (c : Core) (r : BitVec 5) (v : W64) : (c.setReg r v).rstkBase = c.rstkBase := by unfold Core.setReg; split <;> rfl
@[simp] theorem Core.setReg_rstkLim (c : Core) (r : BitVec 5) (v : W64) : (c.setReg r v).rstkLim = c.rstkLim := by unfold Core.setReg; split <;> rfl
@[simp] theorem Core.setReg_rstkPtr (c : Core) (r : BitVec 5) (v : W64) : (c.setReg r v).rstkPtr = c.rstkPtr := by unfold Core.setReg; split <;> rfl
@[simp] theorem Core.setReg_loops (c : Core) (r : BitVec 5) (v : W64) : (c.setReg r v).loops = c.loops := by unfold Core.setReg; split <;> rfl
@[simp] theorem Core.setReg_cdepth (c : Core) (r : BitVec 5) (v : W64) : (c.setReg r v).cdepth = c.cdepth := by unfold Core.setReg; split <;> rfl
@[simp] theorem Core.setReg_trapCause (c : Core) (r : BitVec 5) (v : W64) : (c.setReg r v).trapCause = c.trapCause := by unfold Core.setReg; split <;> rfl
@[simp] theorem Core.setReg_trapAddr (c : Core) (r : BitVec 5) (v : W64) : (c.setReg r v).trapAddr = c.trapAddr := by unfold Core.setReg; split <;> rfl
@[simp] theorem Core.setReg_trapPc (c : Core) (r : BitVec 5) (v : W64) : (c.setReg r v).trapPc = c.trapPc := by unfold Core.setReg; split <;> rfl
@[simp] theorem Core.setReg_tvec (c : Core) (r : BitVec 5) (v : W64) : (c.setReg r v).tvec = c.tvec := by unfold Core.setReg; split <;> rfl
@[simp] theorem Core.setReg_trapH (c : Core) (r : BitVec 5) (v : W64) : (c.setReg r v).trapH = c.trapH := by unfold Core.setReg; split <;> rfl
@[simp] theorem Core.setReg_skCells (c : Core) (r : BitVec 5) (v : W64) : (c.setReg r v).skCells = c.skCells := by unfold Core.setReg; split <;> rfl
@[simp] theorem Core.setReg_skGrow (c : Core) (r : BitVec 5) (v : W64) : (c.setReg r v).skGrow = c.skGrow := by unfold Core.setReg; split <;> rfl
@[simp] theorem Core.setReg_skRounds (c : Core) (r : BitVec 5) (v : W64) : (c.setReg r v).skRounds = c.skRounds := by unfold Core.setReg; split <;> rfl
@[simp] theorem Core.setReg_seq (c : Core) (r : BitVec 5) (v : W64) : (c.setReg r v).seq = c.seq := by unfold Core.setReg; split <;> rfl
@[simp] theorem Core.setReg_watchdog (c : Core) (r : BitVec 5) (v : W64) : (c.setReg r v).watchdog = c.watchdog := by unfold Core.setReg; split <;> rfl
@[simp] theorem Core.setReg_tokens (c : Core) (r : BitVec 5) (v : W64) : (c.setReg r v).tokens = c.tokens := by unfold Core.setReg; split <;> rfl
@[simp] theorem Core.setReg_bars (c : Core) (r : BitVec 5) (v : W64) : (c.setReg r v).bars = c.bars := by unfold Core.setReg; split <;> rfl
@[simp] theorem Core.setReg_lq (c : Core) (r : BitVec 5) (v : W64) : (c.setReg r v).lq = c.lq := by unfold Core.setReg; split <;> rfl
@[simp] theorem Core.setReg_wait (c : Core) (r : BitVec 5) (v : W64) : (c.setReg r v).wait = c.wait := by unfold Core.setReg; split <;> rfl
@[simp] theorem Core.setReg_vring (c : Core) (r : BitVec 5) (v : W64) : (c.setReg r v).vring = c.vring := by unfold Core.setReg; split <;> rfl
@[simp] theorem Core.setReg_mring (c : Core) (r : BitVec 5) (v : W64) : (c.setReg r v).mring = c.mring := by unfold Core.setReg; split <;> rfl
@[simp] theorem Core.setReg_cring (c : Core) (r : BitVec 5) (v : W64) : (c.setReg r v).cring = c.cring := by unfold Core.setReg; split <;> rfl
@[simp] theorem Core.setReg_vec (c : Core) (r : BitVec 5) (v : W64) : (c.setReg r v).vec = c.vec := by unfold Core.setReg; split <;> rfl
@[simp] theorem Core.setReg_mat (c : Core) (r : BitVec 5) (v : W64) : (c.setReg r v).mat = c.mat := by unfold Core.setReg; split <;> rfl
@[simp] theorem Core.setReg_pushPorts (c : Core) (r : BitVec 5) (v : W64) : (c.setReg r v).pushPorts = c.pushPorts := by unfold Core.setReg; split <;> rfl
@[simp] theorem Core.setReg_rc (c : Core) (r : BitVec 5) (v : W64) : (c.setReg r v).rc = c.rc := by unfold Core.setReg; split <;> rfl
@[simp] theorem Core.setReg_view (c : Core) (r : BitVec 5) (v : W64) : (c.setReg r v).view = c.view := by unfold Core.setReg; split <;> rfl
@[simp] theorem Core.setReg_images (c : Core) (r : BitVec 5) (v : W64) : (c.setReg r v).images = c.images := by unfold Core.setReg; split <;> rfl
@[simp] theorem Core.setReg_dcache (c : Core) (r : BitVec 5) (v : W64) : (c.setReg r v).dcache = c.dcache := by unfold Core.setReg; split <;> rfl
@[simp] theorem Core.setReg_icache (c : Core) (r : BitVec 5) (v : W64) : (c.setReg r v).icache = c.icache := by unfold Core.setReg; split <;> rfl
@[simp] theorem Core.setReg_tlb (c : Core) (r : BitVec 5) (v : W64) : (c.setReg r v).tlb = c.tlb := by unfold Core.setReg; split <;> rfl
@[simp] theorem Core.setReg_tlbOld (c : Core) (r : BitVec 5) (v : W64) : (c.setReg r v).tlbOld = c.tlbOld := by unfold Core.setReg; split <;> rfl
@[simp] theorem Core.setReg_slice (c : Core) (r : BitVec 5) (v : W64) : (c.setReg r v).slice = c.slice := by unfold Core.setReg; split <;> rfl
@[simp] theorem Core.setReg_slcore (c : Core) (r : BitVec 5) (v : W64) : (c.setReg r v).slcore = c.slcore := by unfold Core.setReg; split <;> rfl
@[simp] theorem Core.setReg_thread (c : Core) (r : BitVec 5) (v : W64) : (c.setReg r v).thread = c.thread := by unfold Core.setReg; split <;> rfl
@[simp] theorem Core.setReg_slot (c : Core) (r : BitVec 5) (v : W64) : (c.setReg r v).slot = c.slot := by unfold Core.setReg; split <;> rfl
@[simp] theorem Core.setReg_node (c : Core) (r : BitVec 5) (v : W64) : (c.setReg r v).node = c.node := by unfold Core.setReg; split <;> rfl
@[simp] theorem Core.setReg_index (c : Core) (r : BitVec 5) (v : W64) : (c.setReg r v).index = c.index := by unfold Core.setReg; split <;> rfl
@[simp] theorem Core.setReg_handling (c : Core) (r : BitVec 5) (v : W64) : (c.setReg r v).handling = c.handling := by unfold Core.setReg; split <;> rfl
@[simp] theorem Core.setReg_stage (c : Core) (r : BitVec 5) (v : W64) : (c.setReg r v).stage = c.stage := by unfold Core.setReg; split <;> rfl
@[simp] theorem Core.setReg_stageAt (c : Core) (r : BitVec 5) (v : W64) : (c.setReg r v).stageAt = c.stageAt := by unfold Core.setReg; split <;> rfl
@[simp] theorem Core.setReg_stagePark (c : Core) (r : BitVec 5) (v : W64) : (c.setReg r v).stagePark = c.stagePark := by unfold Core.setReg; split <;> rfl
@[simp] theorem Core.setReg_upsets (c : Core) (r : BitVec 5) (v : W64) : (c.setReg r v).upsets = c.upsets := by unfold Core.setReg; split <;> rfl
@[simp] theorem Core.setReg_fences (c : Core) (r : BitVec 5) (v : W64) : (c.setReg r v).fences = c.fences := by unfold Core.setReg; split <;> rfl
@[simp] theorem Core.setReg_seen (c : Core) (r : BitVec 5) (v : W64) : (c.setReg r v).seen = c.seen := by unfold Core.setReg; split <;> rfl
@[simp] theorem Core.setReg_fills (c : Core) (r : BitVec 5) (v : W64) : (c.setReg r v).fills = c.fills := by unfold Core.setReg; split <;> rfl
@[simp] theorem Core.setReg_rfences (c : Core) (r : BitVec 5) (v : W64) : (c.setReg r v).rfences = c.rfences := by unfold Core.setReg; split <;> rfl
@[simp] theorem Core.setReg_lateErr (c : Core) (r : BitVec 5) (v : W64) : (c.setReg r v).lateErr = c.lateErr := by unfold Core.setReg; split <;> rfl
@[simp] theorem Core.setReg_relWait (c : Core) (r : BitVec 5) (v : W64) : (c.setReg r v).relWait = c.relWait := by unfold Core.setReg; split <;> rfl
@[simp] theorem Core.setReg_pushHeld (c : Core) (r : BitVec 5) (v : W64) : (c.setReg r v).pushHeld = c.pushHeld := by unfold Core.setReg; split <;> rfl
@[simp] theorem Core.setReg_serves (c : Core) (r : BitVec 5) (v : W64) : (c.setReg r v).serves = c.serves := by unfold Core.setReg; split <;> rfl
@[simp] theorem Core.setPred_run (c : Core) (r : BitVec 3) (v : Bool) : (c.setPred r v).run = c.run := by unfold Core.setPred; split <;> rfl
@[simp] theorem Core.setPred_stop (c : Core) (r : BitVec 3) (v : Bool) : (c.setPred r v).stop = c.stop := by unfold Core.setPred; split <;> rfl
@[simp] theorem Core.setPred_fault (c : Core) (r : BitVec 3) (v : Bool) : (c.setPred r v).fault = c.fault := by unfold Core.setPred; split <;> rfl
@[simp] theorem Core.setPred_pc (c : Core) (r : BitVec 3) (v : Bool) : (c.setPred r v).pc = c.pc := by unfold Core.setPred; split <;> rfl
@[simp] theorem Core.setPred_s (c : Core) (r : BitVec 3) (v : Bool) : (c.setPred r v).s = c.s := by unfold Core.setPred; split <;> rfl
@[simp] theorem Core.setPred_bx (c : Core) (r : BitVec 3) (v : Bool) : (c.setPred r v).bx = c.bx := by unfold Core.setPred; split <;> rfl
@[simp] theorem Core.setPred_sh (c : Core) (r : BitVec 3) (v : Bool) : (c.setPred r v).sh = c.sh := by unfold Core.setPred; split <;> rfl
@[simp] theorem Core.setPred_rstk (c : Core) (r : BitVec 3) (v : Bool) : (c.setPred r v).rstk = c.rstk := by unfold Core.setPred; split <;> rfl
@[simp] theorem Core.setPred_rstkBase (c : Core) (r : BitVec 3) (v : Bool) : (c.setPred r v).rstkBase = c.rstkBase := by unfold Core.setPred; split <;> rfl
@[simp] theorem Core.setPred_rstkLim (c : Core) (r : BitVec 3) (v : Bool) : (c.setPred r v).rstkLim = c.rstkLim := by unfold Core.setPred; split <;> rfl
@[simp] theorem Core.setPred_rstkPtr (c : Core) (r : BitVec 3) (v : Bool) : (c.setPred r v).rstkPtr = c.rstkPtr := by unfold Core.setPred; split <;> rfl
@[simp] theorem Core.setPred_loops (c : Core) (r : BitVec 3) (v : Bool) : (c.setPred r v).loops = c.loops := by unfold Core.setPred; split <;> rfl
@[simp] theorem Core.setPred_cdepth (c : Core) (r : BitVec 3) (v : Bool) : (c.setPred r v).cdepth = c.cdepth := by unfold Core.setPred; split <;> rfl
@[simp] theorem Core.setPred_trapCause (c : Core) (r : BitVec 3) (v : Bool) : (c.setPred r v).trapCause = c.trapCause := by unfold Core.setPred; split <;> rfl
@[simp] theorem Core.setPred_trapAddr (c : Core) (r : BitVec 3) (v : Bool) : (c.setPred r v).trapAddr = c.trapAddr := by unfold Core.setPred; split <;> rfl
@[simp] theorem Core.setPred_trapPc (c : Core) (r : BitVec 3) (v : Bool) : (c.setPred r v).trapPc = c.trapPc := by unfold Core.setPred; split <;> rfl
@[simp] theorem Core.setPred_tvec (c : Core) (r : BitVec 3) (v : Bool) : (c.setPred r v).tvec = c.tvec := by unfold Core.setPred; split <;> rfl
@[simp] theorem Core.setPred_trapH (c : Core) (r : BitVec 3) (v : Bool) : (c.setPred r v).trapH = c.trapH := by unfold Core.setPred; split <;> rfl
@[simp] theorem Core.setPred_skCells (c : Core) (r : BitVec 3) (v : Bool) : (c.setPred r v).skCells = c.skCells := by unfold Core.setPred; split <;> rfl
@[simp] theorem Core.setPred_skGrow (c : Core) (r : BitVec 3) (v : Bool) : (c.setPred r v).skGrow = c.skGrow := by unfold Core.setPred; split <;> rfl
@[simp] theorem Core.setPred_skRounds (c : Core) (r : BitVec 3) (v : Bool) : (c.setPred r v).skRounds = c.skRounds := by unfold Core.setPred; split <;> rfl
@[simp] theorem Core.setPred_seq (c : Core) (r : BitVec 3) (v : Bool) : (c.setPred r v).seq = c.seq := by unfold Core.setPred; split <;> rfl
@[simp] theorem Core.setPred_watchdog (c : Core) (r : BitVec 3) (v : Bool) : (c.setPred r v).watchdog = c.watchdog := by unfold Core.setPred; split <;> rfl
@[simp] theorem Core.setPred_tokens (c : Core) (r : BitVec 3) (v : Bool) : (c.setPred r v).tokens = c.tokens := by unfold Core.setPred; split <;> rfl
@[simp] theorem Core.setPred_bars (c : Core) (r : BitVec 3) (v : Bool) : (c.setPred r v).bars = c.bars := by unfold Core.setPred; split <;> rfl
@[simp] theorem Core.setPred_lq (c : Core) (r : BitVec 3) (v : Bool) : (c.setPred r v).lq = c.lq := by unfold Core.setPred; split <;> rfl
@[simp] theorem Core.setPred_wait (c : Core) (r : BitVec 3) (v : Bool) : (c.setPred r v).wait = c.wait := by unfold Core.setPred; split <;> rfl
@[simp] theorem Core.setPred_vring (c : Core) (r : BitVec 3) (v : Bool) : (c.setPred r v).vring = c.vring := by unfold Core.setPred; split <;> rfl
@[simp] theorem Core.setPred_mring (c : Core) (r : BitVec 3) (v : Bool) : (c.setPred r v).mring = c.mring := by unfold Core.setPred; split <;> rfl
@[simp] theorem Core.setPred_cring (c : Core) (r : BitVec 3) (v : Bool) : (c.setPred r v).cring = c.cring := by unfold Core.setPred; split <;> rfl
@[simp] theorem Core.setPred_vec (c : Core) (r : BitVec 3) (v : Bool) : (c.setPred r v).vec = c.vec := by unfold Core.setPred; split <;> rfl
@[simp] theorem Core.setPred_mat (c : Core) (r : BitVec 3) (v : Bool) : (c.setPred r v).mat = c.mat := by unfold Core.setPred; split <;> rfl
@[simp] theorem Core.setPred_pushPorts (c : Core) (r : BitVec 3) (v : Bool) : (c.setPred r v).pushPorts = c.pushPorts := by unfold Core.setPred; split <;> rfl
@[simp] theorem Core.setPred_rc (c : Core) (r : BitVec 3) (v : Bool) : (c.setPred r v).rc = c.rc := by unfold Core.setPred; split <;> rfl
@[simp] theorem Core.setPred_view (c : Core) (r : BitVec 3) (v : Bool) : (c.setPred r v).view = c.view := by unfold Core.setPred; split <;> rfl
@[simp] theorem Core.setPred_images (c : Core) (r : BitVec 3) (v : Bool) : (c.setPred r v).images = c.images := by unfold Core.setPred; split <;> rfl
@[simp] theorem Core.setPred_dcache (c : Core) (r : BitVec 3) (v : Bool) : (c.setPred r v).dcache = c.dcache := by unfold Core.setPred; split <;> rfl
@[simp] theorem Core.setPred_icache (c : Core) (r : BitVec 3) (v : Bool) : (c.setPred r v).icache = c.icache := by unfold Core.setPred; split <;> rfl
@[simp] theorem Core.setPred_tlb (c : Core) (r : BitVec 3) (v : Bool) : (c.setPred r v).tlb = c.tlb := by unfold Core.setPred; split <;> rfl
@[simp] theorem Core.setPred_tlbOld (c : Core) (r : BitVec 3) (v : Bool) : (c.setPred r v).tlbOld = c.tlbOld := by unfold Core.setPred; split <;> rfl
@[simp] theorem Core.setPred_slice (c : Core) (r : BitVec 3) (v : Bool) : (c.setPred r v).slice = c.slice := by unfold Core.setPred; split <;> rfl
@[simp] theorem Core.setPred_slcore (c : Core) (r : BitVec 3) (v : Bool) : (c.setPred r v).slcore = c.slcore := by unfold Core.setPred; split <;> rfl
@[simp] theorem Core.setPred_thread (c : Core) (r : BitVec 3) (v : Bool) : (c.setPred r v).thread = c.thread := by unfold Core.setPred; split <;> rfl
@[simp] theorem Core.setPred_slot (c : Core) (r : BitVec 3) (v : Bool) : (c.setPred r v).slot = c.slot := by unfold Core.setPred; split <;> rfl
@[simp] theorem Core.setPred_node (c : Core) (r : BitVec 3) (v : Bool) : (c.setPred r v).node = c.node := by unfold Core.setPred; split <;> rfl
@[simp] theorem Core.setPred_index (c : Core) (r : BitVec 3) (v : Bool) : (c.setPred r v).index = c.index := by unfold Core.setPred; split <;> rfl
@[simp] theorem Core.setPred_handling (c : Core) (r : BitVec 3) (v : Bool) : (c.setPred r v).handling = c.handling := by unfold Core.setPred; split <;> rfl
@[simp] theorem Core.setPred_stage (c : Core) (r : BitVec 3) (v : Bool) : (c.setPred r v).stage = c.stage := by unfold Core.setPred; split <;> rfl
@[simp] theorem Core.setPred_stageAt (c : Core) (r : BitVec 3) (v : Bool) : (c.setPred r v).stageAt = c.stageAt := by unfold Core.setPred; split <;> rfl
@[simp] theorem Core.setPred_stagePark (c : Core) (r : BitVec 3) (v : Bool) : (c.setPred r v).stagePark = c.stagePark := by unfold Core.setPred; split <;> rfl
@[simp] theorem Core.setPred_upsets (c : Core) (r : BitVec 3) (v : Bool) : (c.setPred r v).upsets = c.upsets := by unfold Core.setPred; split <;> rfl
@[simp] theorem Core.setPred_fences (c : Core) (r : BitVec 3) (v : Bool) : (c.setPred r v).fences = c.fences := by unfold Core.setPred; split <;> rfl
@[simp] theorem Core.setPred_seen (c : Core) (r : BitVec 3) (v : Bool) : (c.setPred r v).seen = c.seen := by unfold Core.setPred; split <;> rfl
@[simp] theorem Core.setPred_fills (c : Core) (r : BitVec 3) (v : Bool) : (c.setPred r v).fills = c.fills := by unfold Core.setPred; split <;> rfl
@[simp] theorem Core.setPred_rfences (c : Core) (r : BitVec 3) (v : Bool) : (c.setPred r v).rfences = c.rfences := by unfold Core.setPred; split <;> rfl
@[simp] theorem Core.setPred_lateErr (c : Core) (r : BitVec 3) (v : Bool) : (c.setPred r v).lateErr = c.lateErr := by unfold Core.setPred; split <;> rfl
@[simp] theorem Core.setPred_relWait (c : Core) (r : BitVec 3) (v : Bool) : (c.setPred r v).relWait = c.relWait := by unfold Core.setPred; split <;> rfl
@[simp] theorem Core.setPred_pushHeld (c : Core) (r : BitVec 3) (v : Bool) : (c.setPred r v).pushHeld = c.pushHeld := by unfold Core.setPred; split <;> rfl
@[simp] theorem Core.setPred_serves (c : Core) (r : BitVec 3) (v : Bool) : (c.setPred r v).serves = c.serves := by unfold Core.setPred; split <;> rfl
@[simp] theorem Core.setPred_reg (c : Core) (r : BitVec 3) (v : Bool) (q : BitVec 5) : (c.setPred r v).reg q = c.reg q := by
  simp [Core.reg]
@[simp] theorem Core.setReg_pred (c : Core) (r : BitVec 5) (v : W64) (q : BitVec 3) : (c.setReg r v).pred q = c.pred q := by
  simp [Core.pred]
@[simp] theorem State.setReg_me (s : State) (r : BitVec 5) (v : W64) : (s.setReg r v).me = s.me.setReg r v := by simp [State.setReg]
@[simp] theorem State.setPred_me (s : State) (r : BitVec 3) (v : Bool) : (s.setPred r v).me = s.me.setPred r v := by simp [State.setPred]
@[simp] theorem State.setReg_pred (s : State) (r : BitVec 5) (v : W64) (q : BitVec 3) : (s.setReg r v).pred q = s.pred q := by
  simp [State.pred]
@[simp] theorem State.setPred_reg (s : State) (r : BitVec 3) (v : Bool) (q : BitVec 5) : (s.setPred r v).reg q = s.reg q := by
  simp [State.reg]

/-! ### Fields of the state -/

@[simp] theorem State.putCore_mem (s : State) (k : Nat) (c : Core) : (s.putCore k c).mem = s.mem := rfl
@[simp] theorem State.putCore_tags (s : State) (k : Nat) (c : Core) : (s.putCore k c).tags = s.tags := rfl
@[simp] theorem State.putCore_poison (s : State) (k : Nat) (c : Core) : (s.putCore k c).poison = s.poison := rfl
@[simp] theorem State.putCore_soft (s : State) (k : Nat) (c : Core) : (s.putCore k c).soft = s.soft := rfl
@[simp] theorem State.putCore_lines (s : State) (k : Nat) (c : Core) : (s.putCore k c).lines = s.lines := rfl
@[simp] theorem State.putCore_stamps (s : State) (k : Nat) (c : Core) : (s.putCore k c).stamps = s.stamps := rfl
@[simp] theorem State.putCore_enc (s : State) (k : Nat) (c : Core) : (s.putCore k c).enc = s.enc := rfl
@[simp] theorem State.putCore_slices (s : State) (k : Nat) (c : Core) : (s.putCore k c).slices = s.slices := rfl
@[simp] theorem State.putCore_pkgs (s : State) (k : Nat) (c : Core) : (s.putCore k c).pkgs = s.pkgs := rfl
@[simp] theorem State.putCore_switches (s : State) (k : Nat) (c : Core) : (s.putCore k c).switches = s.switches := rfl
@[simp] theorem State.putCore_nodes (s : State) (k : Nat) (c : Core) : (s.putCore k c).nodes = s.nodes := rfl
@[simp] theorem State.putCore_transfers (s : State) (k : Nat) (c : Core) : (s.putCore k c).transfers = s.transfers := rfl
@[simp] theorem State.putCore_nextKv (s : State) (k : Nat) (c : Core) : (s.putCore k c).nextKv = s.nextKv := rfl
@[simp] theorem State.putCore_tagQ (s : State) (k : Nat) (c : Core) : (s.putCore k c).tagQ = s.tagQ := rfl
@[simp] theorem State.putCore_out (s : State) (k : Nat) (c : Core) : (s.putCore k c).out = s.out := rfl
@[simp] theorem State.putCore_cur (s : State) (k : Nat) (c : Core) : (s.putCore k c).cur = s.cur := rfl
@[simp] theorem State.putCore_agenda (s : State) (k : Nat) (c : Core) : (s.putCore k c).agenda = s.agenda := rfl
@[simp] theorem State.putCore_clock (s : State) (k : Nat) (c : Core) : (s.putCore k c).clock = s.clock := rfl
@[simp] theorem State.putCore_nondet (s : State) (k : Nat) (c : Core) : (s.putCore k c).nondet = s.nondet := rfl
@[simp] theorem State.putCore_ticks (s : State) (k : Nat) (c : Core) : (s.putCore k c).ticks = s.ticks := rfl
@[simp] theorem State.putCore_fates (s : State) (k : Nat) (c : Core) : (s.putCore k c).fates = s.fates := rfl

@[simp] theorem State.setMe_mem (s : State) (c : Core) : (s.setMe c).mem = s.mem := rfl
@[simp] theorem State.setMe_tags (s : State) (c : Core) : (s.setMe c).tags = s.tags := rfl
@[simp] theorem State.setMe_poison (s : State) (c : Core) : (s.setMe c).poison = s.poison := rfl
@[simp] theorem State.setMe_soft (s : State) (c : Core) : (s.setMe c).soft = s.soft := rfl
@[simp] theorem State.setMe_lines (s : State) (c : Core) : (s.setMe c).lines = s.lines := rfl
@[simp] theorem State.setMe_stamps (s : State) (c : Core) : (s.setMe c).stamps = s.stamps := rfl
@[simp] theorem State.setMe_enc (s : State) (c : Core) : (s.setMe c).enc = s.enc := rfl
@[simp] theorem State.setMe_slices (s : State) (c : Core) : (s.setMe c).slices = s.slices := rfl
@[simp] theorem State.setMe_pkgs (s : State) (c : Core) : (s.setMe c).pkgs = s.pkgs := rfl
@[simp] theorem State.setMe_switches (s : State) (c : Core) : (s.setMe c).switches = s.switches := rfl
@[simp] theorem State.setMe_nodes (s : State) (c : Core) : (s.setMe c).nodes = s.nodes := rfl
@[simp] theorem State.setMe_transfers (s : State) (c : Core) : (s.setMe c).transfers = s.transfers := rfl
@[simp] theorem State.setMe_nextKv (s : State) (c : Core) : (s.setMe c).nextKv = s.nextKv := rfl
@[simp] theorem State.setMe_tagQ (s : State) (c : Core) : (s.setMe c).tagQ = s.tagQ := rfl
@[simp] theorem State.setMe_out (s : State) (c : Core) : (s.setMe c).out = s.out := rfl
@[simp] theorem State.setMe_cur (s : State) (c : Core) : (s.setMe c).cur = s.cur := rfl
@[simp] theorem State.setMe_agenda (s : State) (c : Core) : (s.setMe c).agenda = s.agenda := rfl
@[simp] theorem State.setMe_clock (s : State) (c : Core) : (s.setMe c).clock = s.clock := rfl
@[simp] theorem State.setMe_nondet (s : State) (c : Core) : (s.setMe c).nondet = s.nondet := rfl
@[simp] theorem State.setMe_ticks (s : State) (c : Core) : (s.setMe c).ticks = s.ticks := rfl
@[simp] theorem State.setMe_fates (s : State) (c : Core) : (s.setMe c).fates = s.fates := rfl

@[simp] theorem State.putSlice_mem (s : State) (k : Nat) (c : Slice) : (s.putSlice k c).mem = s.mem := rfl
@[simp] theorem State.putSlice_tags (s : State) (k : Nat) (c : Slice) : (s.putSlice k c).tags = s.tags := rfl
@[simp] theorem State.putSlice_poison (s : State) (k : Nat) (c : Slice) : (s.putSlice k c).poison = s.poison := rfl
@[simp] theorem State.putSlice_soft (s : State) (k : Nat) (c : Slice) : (s.putSlice k c).soft = s.soft := rfl
@[simp] theorem State.putSlice_lines (s : State) (k : Nat) (c : Slice) : (s.putSlice k c).lines = s.lines := rfl
@[simp] theorem State.putSlice_stamps (s : State) (k : Nat) (c : Slice) : (s.putSlice k c).stamps = s.stamps := rfl
@[simp] theorem State.putSlice_enc (s : State) (k : Nat) (c : Slice) : (s.putSlice k c).enc = s.enc := rfl
@[simp] theorem State.putSlice_cores (s : State) (k : Nat) (c : Slice) : (s.putSlice k c).cores = s.cores := rfl
@[simp] theorem State.putSlice_pkgs (s : State) (k : Nat) (c : Slice) : (s.putSlice k c).pkgs = s.pkgs := rfl
@[simp] theorem State.putSlice_switches (s : State) (k : Nat) (c : Slice) : (s.putSlice k c).switches = s.switches := rfl
@[simp] theorem State.putSlice_nodes (s : State) (k : Nat) (c : Slice) : (s.putSlice k c).nodes = s.nodes := rfl
@[simp] theorem State.putSlice_transfers (s : State) (k : Nat) (c : Slice) : (s.putSlice k c).transfers = s.transfers := rfl
@[simp] theorem State.putSlice_nextKv (s : State) (k : Nat) (c : Slice) : (s.putSlice k c).nextKv = s.nextKv := rfl
@[simp] theorem State.putSlice_tagQ (s : State) (k : Nat) (c : Slice) : (s.putSlice k c).tagQ = s.tagQ := rfl
@[simp] theorem State.putSlice_out (s : State) (k : Nat) (c : Slice) : (s.putSlice k c).out = s.out := rfl
@[simp] theorem State.putSlice_cur (s : State) (k : Nat) (c : Slice) : (s.putSlice k c).cur = s.cur := rfl
@[simp] theorem State.putSlice_agenda (s : State) (k : Nat) (c : Slice) : (s.putSlice k c).agenda = s.agenda := rfl
@[simp] theorem State.putSlice_clock (s : State) (k : Nat) (c : Slice) : (s.putSlice k c).clock = s.clock := rfl
@[simp] theorem State.putSlice_nondet (s : State) (k : Nat) (c : Slice) : (s.putSlice k c).nondet = s.nondet := rfl
@[simp] theorem State.putSlice_ticks (s : State) (k : Nat) (c : Slice) : (s.putSlice k c).ticks = s.ticks := rfl
@[simp] theorem State.putSlice_fates (s : State) (k : Nat) (c : Slice) : (s.putSlice k c).fates = s.fates := rfl

@[simp] theorem State.putPkg_mem (s : State) (k : Nat) (p : Package) : (s.putPkg k p).mem = s.mem := rfl
@[simp] theorem State.putPkg_tags (s : State) (k : Nat) (p : Package) : (s.putPkg k p).tags = s.tags := rfl
@[simp] theorem State.putPkg_poison (s : State) (k : Nat) (p : Package) : (s.putPkg k p).poison = s.poison := rfl
@[simp] theorem State.putPkg_soft (s : State) (k : Nat) (p : Package) : (s.putPkg k p).soft = s.soft := rfl
@[simp] theorem State.putPkg_lines (s : State) (k : Nat) (p : Package) : (s.putPkg k p).lines = s.lines := rfl
@[simp] theorem State.putPkg_stamps (s : State) (k : Nat) (p : Package) : (s.putPkg k p).stamps = s.stamps := rfl
@[simp] theorem State.putPkg_enc (s : State) (k : Nat) (p : Package) : (s.putPkg k p).enc = s.enc := rfl
@[simp] theorem State.putPkg_cores (s : State) (k : Nat) (p : Package) : (s.putPkg k p).cores = s.cores := rfl
@[simp] theorem State.putPkg_slices (s : State) (k : Nat) (p : Package) : (s.putPkg k p).slices = s.slices := rfl
@[simp] theorem State.putPkg_switches (s : State) (k : Nat) (p : Package) : (s.putPkg k p).switches = s.switches := rfl
@[simp] theorem State.putPkg_nodes (s : State) (k : Nat) (p : Package) : (s.putPkg k p).nodes = s.nodes := rfl
@[simp] theorem State.putPkg_transfers (s : State) (k : Nat) (p : Package) : (s.putPkg k p).transfers = s.transfers := rfl
@[simp] theorem State.putPkg_nextKv (s : State) (k : Nat) (p : Package) : (s.putPkg k p).nextKv = s.nextKv := rfl
@[simp] theorem State.putPkg_tagQ (s : State) (k : Nat) (p : Package) : (s.putPkg k p).tagQ = s.tagQ := rfl
@[simp] theorem State.putPkg_out (s : State) (k : Nat) (p : Package) : (s.putPkg k p).out = s.out := rfl
@[simp] theorem State.putPkg_cur (s : State) (k : Nat) (p : Package) : (s.putPkg k p).cur = s.cur := rfl
@[simp] theorem State.putPkg_agenda (s : State) (k : Nat) (p : Package) : (s.putPkg k p).agenda = s.agenda := rfl
@[simp] theorem State.putPkg_clock (s : State) (k : Nat) (p : Package) : (s.putPkg k p).clock = s.clock := rfl
@[simp] theorem State.putPkg_nondet (s : State) (k : Nat) (p : Package) : (s.putPkg k p).nondet = s.nondet := rfl
@[simp] theorem State.putPkg_ticks (s : State) (k : Nat) (p : Package) : (s.putPkg k p).ticks = s.ticks := rfl
@[simp] theorem State.putPkg_fates (s : State) (k : Nat) (p : Package) : (s.putPkg k p).fates = s.fates := rfl

@[simp] theorem State.putSwitch_mem (s : State) (k : Nat) (w : Switch) : (s.putSwitch k w).mem = s.mem := rfl
@[simp] theorem State.putSwitch_tags (s : State) (k : Nat) (w : Switch) : (s.putSwitch k w).tags = s.tags := rfl
@[simp] theorem State.putSwitch_poison (s : State) (k : Nat) (w : Switch) : (s.putSwitch k w).poison = s.poison := rfl
@[simp] theorem State.putSwitch_soft (s : State) (k : Nat) (w : Switch) : (s.putSwitch k w).soft = s.soft := rfl
@[simp] theorem State.putSwitch_lines (s : State) (k : Nat) (w : Switch) : (s.putSwitch k w).lines = s.lines := rfl
@[simp] theorem State.putSwitch_stamps (s : State) (k : Nat) (w : Switch) : (s.putSwitch k w).stamps = s.stamps := rfl
@[simp] theorem State.putSwitch_enc (s : State) (k : Nat) (w : Switch) : (s.putSwitch k w).enc = s.enc := rfl
@[simp] theorem State.putSwitch_cores (s : State) (k : Nat) (w : Switch) : (s.putSwitch k w).cores = s.cores := rfl
@[simp] theorem State.putSwitch_slices (s : State) (k : Nat) (w : Switch) : (s.putSwitch k w).slices = s.slices := rfl
@[simp] theorem State.putSwitch_pkgs (s : State) (k : Nat) (w : Switch) : (s.putSwitch k w).pkgs = s.pkgs := rfl
@[simp] theorem State.putSwitch_nodes (s : State) (k : Nat) (w : Switch) : (s.putSwitch k w).nodes = s.nodes := rfl
@[simp] theorem State.putSwitch_transfers (s : State) (k : Nat) (w : Switch) : (s.putSwitch k w).transfers = s.transfers := rfl
@[simp] theorem State.putSwitch_nextKv (s : State) (k : Nat) (w : Switch) : (s.putSwitch k w).nextKv = s.nextKv := rfl
@[simp] theorem State.putSwitch_tagQ (s : State) (k : Nat) (w : Switch) : (s.putSwitch k w).tagQ = s.tagQ := rfl
@[simp] theorem State.putSwitch_out (s : State) (k : Nat) (w : Switch) : (s.putSwitch k w).out = s.out := rfl
@[simp] theorem State.putSwitch_cur (s : State) (k : Nat) (w : Switch) : (s.putSwitch k w).cur = s.cur := rfl
@[simp] theorem State.putSwitch_agenda (s : State) (k : Nat) (w : Switch) : (s.putSwitch k w).agenda = s.agenda := rfl
@[simp] theorem State.putSwitch_clock (s : State) (k : Nat) (w : Switch) : (s.putSwitch k w).clock = s.clock := rfl
@[simp] theorem State.putSwitch_nondet (s : State) (k : Nat) (w : Switch) : (s.putSwitch k w).nondet = s.nondet := rfl
@[simp] theorem State.putSwitch_ticks (s : State) (k : Nat) (w : Switch) : (s.putSwitch k w).ticks = s.ticks := rfl
@[simp] theorem State.putSwitch_fates (s : State) (k : Nat) (w : Switch) : (s.putSwitch k w).fates = s.fates := rfl

@[simp] theorem State.later_mem (s : State) (h : Happening) : (s.later h).mem = s.mem := rfl
@[simp] theorem State.later_tags (s : State) (h : Happening) : (s.later h).tags = s.tags := rfl
@[simp] theorem State.later_poison (s : State) (h : Happening) : (s.later h).poison = s.poison := rfl
@[simp] theorem State.later_soft (s : State) (h : Happening) : (s.later h).soft = s.soft := rfl
@[simp] theorem State.later_lines (s : State) (h : Happening) : (s.later h).lines = s.lines := rfl
@[simp] theorem State.later_stamps (s : State) (h : Happening) : (s.later h).stamps = s.stamps := rfl
@[simp] theorem State.later_enc (s : State) (h : Happening) : (s.later h).enc = s.enc := rfl
@[simp] theorem State.later_cores (s : State) (h : Happening) : (s.later h).cores = s.cores := rfl
@[simp] theorem State.later_slices (s : State) (h : Happening) : (s.later h).slices = s.slices := rfl
@[simp] theorem State.later_pkgs (s : State) (h : Happening) : (s.later h).pkgs = s.pkgs := rfl
@[simp] theorem State.later_switches (s : State) (h : Happening) : (s.later h).switches = s.switches := rfl
@[simp] theorem State.later_nodes (s : State) (h : Happening) : (s.later h).nodes = s.nodes := rfl
@[simp] theorem State.later_transfers (s : State) (h : Happening) : (s.later h).transfers = s.transfers := rfl
@[simp] theorem State.later_nextKv (s : State) (h : Happening) : (s.later h).nextKv = s.nextKv := rfl
@[simp] theorem State.later_tagQ (s : State) (h : Happening) : (s.later h).tagQ = s.tagQ := rfl
@[simp] theorem State.later_out (s : State) (h : Happening) : (s.later h).out = s.out := rfl
@[simp] theorem State.later_cur (s : State) (h : Happening) : (s.later h).cur = s.cur := rfl
@[simp] theorem State.later_clock (s : State) (h : Happening) : (s.later h).clock = s.clock := rfl
@[simp] theorem State.later_nondet (s : State) (h : Happening) : (s.later h).nondet = s.nondet := rfl
@[simp] theorem State.later_ticks (s : State) (h : Happening) : (s.later h).ticks = s.ticks := rfl
@[simp] theorem State.later_fates (s : State) (h : Happening) : (s.later h).fates = s.fates := rfl

@[simp] theorem State.now_mem (s : State) (h : Happening) : (s.now h).mem = s.mem := rfl
@[simp] theorem State.now_tags (s : State) (h : Happening) : (s.now h).tags = s.tags := rfl
@[simp] theorem State.now_poison (s : State) (h : Happening) : (s.now h).poison = s.poison := rfl
@[simp] theorem State.now_soft (s : State) (h : Happening) : (s.now h).soft = s.soft := rfl
@[simp] theorem State.now_lines (s : State) (h : Happening) : (s.now h).lines = s.lines := rfl
@[simp] theorem State.now_stamps (s : State) (h : Happening) : (s.now h).stamps = s.stamps := rfl
@[simp] theorem State.now_enc (s : State) (h : Happening) : (s.now h).enc = s.enc := rfl
@[simp] theorem State.now_cores (s : State) (h : Happening) : (s.now h).cores = s.cores := rfl
@[simp] theorem State.now_slices (s : State) (h : Happening) : (s.now h).slices = s.slices := rfl
@[simp] theorem State.now_pkgs (s : State) (h : Happening) : (s.now h).pkgs = s.pkgs := rfl
@[simp] theorem State.now_switches (s : State) (h : Happening) : (s.now h).switches = s.switches := rfl
@[simp] theorem State.now_nodes (s : State) (h : Happening) : (s.now h).nodes = s.nodes := rfl
@[simp] theorem State.now_transfers (s : State) (h : Happening) : (s.now h).transfers = s.transfers := rfl
@[simp] theorem State.now_nextKv (s : State) (h : Happening) : (s.now h).nextKv = s.nextKv := rfl
@[simp] theorem State.now_tagQ (s : State) (h : Happening) : (s.now h).tagQ = s.tagQ := rfl
@[simp] theorem State.now_out (s : State) (h : Happening) : (s.now h).out = s.out := rfl
@[simp] theorem State.now_cur (s : State) (h : Happening) : (s.now h).cur = s.cur := rfl
@[simp] theorem State.now_clock (s : State) (h : Happening) : (s.now h).clock = s.clock := rfl
@[simp] theorem State.now_nondet (s : State) (h : Happening) : (s.now h).nondet = s.nondet := rfl
@[simp] theorem State.now_ticks (s : State) (h : Happening) : (s.now h).ticks = s.ticks := rfl
@[simp] theorem State.now_fates (s : State) (h : Happening) : (s.now h).fates = s.fates := rfl

@[simp] theorem State.setBytes_tags (s : State) (a : Nat) (bs : List Byte) : (s.setBytes a bs).tags = s.tags := rfl
@[simp] theorem State.setBytes_poison (s : State) (a : Nat) (bs : List Byte) : (s.setBytes a bs).poison = s.poison := rfl
@[simp] theorem State.setBytes_soft (s : State) (a : Nat) (bs : List Byte) : (s.setBytes a bs).soft = s.soft := rfl
@[simp] theorem State.setBytes_lines (s : State) (a : Nat) (bs : List Byte) : (s.setBytes a bs).lines = s.lines := rfl
@[simp] theorem State.setBytes_stamps (s : State) (a : Nat) (bs : List Byte) : (s.setBytes a bs).stamps = s.stamps := rfl
@[simp] theorem State.setBytes_enc (s : State) (a : Nat) (bs : List Byte) : (s.setBytes a bs).enc = s.enc := rfl
@[simp] theorem State.setBytes_cores (s : State) (a : Nat) (bs : List Byte) : (s.setBytes a bs).cores = s.cores := rfl
@[simp] theorem State.setBytes_slices (s : State) (a : Nat) (bs : List Byte) : (s.setBytes a bs).slices = s.slices := rfl
@[simp] theorem State.setBytes_pkgs (s : State) (a : Nat) (bs : List Byte) : (s.setBytes a bs).pkgs = s.pkgs := rfl
@[simp] theorem State.setBytes_switches (s : State) (a : Nat) (bs : List Byte) : (s.setBytes a bs).switches = s.switches := rfl
@[simp] theorem State.setBytes_nodes (s : State) (a : Nat) (bs : List Byte) : (s.setBytes a bs).nodes = s.nodes := rfl
@[simp] theorem State.setBytes_transfers (s : State) (a : Nat) (bs : List Byte) : (s.setBytes a bs).transfers = s.transfers := rfl
@[simp] theorem State.setBytes_nextKv (s : State) (a : Nat) (bs : List Byte) : (s.setBytes a bs).nextKv = s.nextKv := rfl
@[simp] theorem State.setBytes_tagQ (s : State) (a : Nat) (bs : List Byte) : (s.setBytes a bs).tagQ = s.tagQ := rfl
@[simp] theorem State.setBytes_out (s : State) (a : Nat) (bs : List Byte) : (s.setBytes a bs).out = s.out := rfl
@[simp] theorem State.setBytes_cur (s : State) (a : Nat) (bs : List Byte) : (s.setBytes a bs).cur = s.cur := rfl
@[simp] theorem State.setBytes_agenda (s : State) (a : Nat) (bs : List Byte) : (s.setBytes a bs).agenda = s.agenda := rfl
@[simp] theorem State.setBytes_clock (s : State) (a : Nat) (bs : List Byte) : (s.setBytes a bs).clock = s.clock := rfl
@[simp] theorem State.setBytes_nondet (s : State) (a : Nat) (bs : List Byte) : (s.setBytes a bs).nondet = s.nondet := rfl
@[simp] theorem State.setBytes_ticks (s : State) (a : Nat) (bs : List Byte) : (s.setBytes a bs).ticks = s.ticks := rfl
@[simp] theorem State.setBytes_fates (s : State) (a : Nat) (bs : List Byte) : (s.setBytes a bs).fates = s.fates := rfl

@[simp] theorem State.setWord_tags (s : State) (a : Nat) (v : W64) : (s.setWord a v).tags = s.tags := rfl
@[simp] theorem State.setWord_poison (s : State) (a : Nat) (v : W64) : (s.setWord a v).poison = s.poison := rfl
@[simp] theorem State.setWord_soft (s : State) (a : Nat) (v : W64) : (s.setWord a v).soft = s.soft := rfl
@[simp] theorem State.setWord_lines (s : State) (a : Nat) (v : W64) : (s.setWord a v).lines = s.lines := rfl
@[simp] theorem State.setWord_stamps (s : State) (a : Nat) (v : W64) : (s.setWord a v).stamps = s.stamps := rfl
@[simp] theorem State.setWord_enc (s : State) (a : Nat) (v : W64) : (s.setWord a v).enc = s.enc := rfl
@[simp] theorem State.setWord_cores (s : State) (a : Nat) (v : W64) : (s.setWord a v).cores = s.cores := rfl
@[simp] theorem State.setWord_slices (s : State) (a : Nat) (v : W64) : (s.setWord a v).slices = s.slices := rfl
@[simp] theorem State.setWord_pkgs (s : State) (a : Nat) (v : W64) : (s.setWord a v).pkgs = s.pkgs := rfl
@[simp] theorem State.setWord_switches (s : State) (a : Nat) (v : W64) : (s.setWord a v).switches = s.switches := rfl
@[simp] theorem State.setWord_nodes (s : State) (a : Nat) (v : W64) : (s.setWord a v).nodes = s.nodes := rfl
@[simp] theorem State.setWord_transfers (s : State) (a : Nat) (v : W64) : (s.setWord a v).transfers = s.transfers := rfl
@[simp] theorem State.setWord_nextKv (s : State) (a : Nat) (v : W64) : (s.setWord a v).nextKv = s.nextKv := rfl
@[simp] theorem State.setWord_tagQ (s : State) (a : Nat) (v : W64) : (s.setWord a v).tagQ = s.tagQ := rfl
@[simp] theorem State.setWord_out (s : State) (a : Nat) (v : W64) : (s.setWord a v).out = s.out := rfl
@[simp] theorem State.setWord_cur (s : State) (a : Nat) (v : W64) : (s.setWord a v).cur = s.cur := rfl
@[simp] theorem State.setWord_agenda (s : State) (a : Nat) (v : W64) : (s.setWord a v).agenda = s.agenda := rfl
@[simp] theorem State.setWord_clock (s : State) (a : Nat) (v : W64) : (s.setWord a v).clock = s.clock := rfl
@[simp] theorem State.setWord_nondet (s : State) (a : Nat) (v : W64) : (s.setWord a v).nondet = s.nondet := rfl
@[simp] theorem State.setWord_ticks (s : State) (a : Nat) (v : W64) : (s.setWord a v).ticks = s.ticks := rfl
@[simp] theorem State.setWord_fates (s : State) (a : Nat) (v : W64) : (s.setWord a v).fates = s.fates := rfl

@[simp] theorem State.setReg_mem (s : State) (r : BitVec 5) (v : W64) : (s.setReg r v).mem = s.mem := rfl
@[simp] theorem State.setReg_tags (s : State) (r : BitVec 5) (v : W64) : (s.setReg r v).tags = s.tags := rfl
@[simp] theorem State.setReg_poison (s : State) (r : BitVec 5) (v : W64) : (s.setReg r v).poison = s.poison := rfl
@[simp] theorem State.setReg_soft (s : State) (r : BitVec 5) (v : W64) : (s.setReg r v).soft = s.soft := rfl
@[simp] theorem State.setReg_lines (s : State) (r : BitVec 5) (v : W64) : (s.setReg r v).lines = s.lines := rfl
@[simp] theorem State.setReg_stamps (s : State) (r : BitVec 5) (v : W64) : (s.setReg r v).stamps = s.stamps := rfl
@[simp] theorem State.setReg_enc (s : State) (r : BitVec 5) (v : W64) : (s.setReg r v).enc = s.enc := rfl
@[simp] theorem State.setReg_slices (s : State) (r : BitVec 5) (v : W64) : (s.setReg r v).slices = s.slices := rfl
@[simp] theorem State.setReg_pkgs (s : State) (r : BitVec 5) (v : W64) : (s.setReg r v).pkgs = s.pkgs := rfl
@[simp] theorem State.setReg_switches (s : State) (r : BitVec 5) (v : W64) : (s.setReg r v).switches = s.switches := rfl
@[simp] theorem State.setReg_nodes (s : State) (r : BitVec 5) (v : W64) : (s.setReg r v).nodes = s.nodes := rfl
@[simp] theorem State.setReg_transfers (s : State) (r : BitVec 5) (v : W64) : (s.setReg r v).transfers = s.transfers := rfl
@[simp] theorem State.setReg_nextKv (s : State) (r : BitVec 5) (v : W64) : (s.setReg r v).nextKv = s.nextKv := rfl
@[simp] theorem State.setReg_tagQ (s : State) (r : BitVec 5) (v : W64) : (s.setReg r v).tagQ = s.tagQ := rfl
@[simp] theorem State.setReg_out (s : State) (r : BitVec 5) (v : W64) : (s.setReg r v).out = s.out := rfl
@[simp] theorem State.setReg_cur (s : State) (r : BitVec 5) (v : W64) : (s.setReg r v).cur = s.cur := rfl
@[simp] theorem State.setReg_agenda (s : State) (r : BitVec 5) (v : W64) : (s.setReg r v).agenda = s.agenda := rfl
@[simp] theorem State.setReg_clock (s : State) (r : BitVec 5) (v : W64) : (s.setReg r v).clock = s.clock := rfl
@[simp] theorem State.setReg_nondet (s : State) (r : BitVec 5) (v : W64) : (s.setReg r v).nondet = s.nondet := rfl
@[simp] theorem State.setReg_ticks (s : State) (r : BitVec 5) (v : W64) : (s.setReg r v).ticks = s.ticks := rfl
@[simp] theorem State.setReg_fates (s : State) (r : BitVec 5) (v : W64) : (s.setReg r v).fates = s.fates := rfl

@[simp] theorem State.setPred_mem (s : State) (r : BitVec 3) (v : Bool) : (s.setPred r v).mem = s.mem := rfl
@[simp] theorem State.setPred_tags (s : State) (r : BitVec 3) (v : Bool) : (s.setPred r v).tags = s.tags := rfl
@[simp] theorem State.setPred_poison (s : State) (r : BitVec 3) (v : Bool) : (s.setPred r v).poison = s.poison := rfl
@[simp] theorem State.setPred_soft (s : State) (r : BitVec 3) (v : Bool) : (s.setPred r v).soft = s.soft := rfl
@[simp] theorem State.setPred_lines (s : State) (r : BitVec 3) (v : Bool) : (s.setPred r v).lines = s.lines := rfl
@[simp] theorem State.setPred_stamps (s : State) (r : BitVec 3) (v : Bool) : (s.setPred r v).stamps = s.stamps := rfl
@[simp] theorem State.setPred_enc (s : State) (r : BitVec 3) (v : Bool) : (s.setPred r v).enc = s.enc := rfl
@[simp] theorem State.setPred_slices (s : State) (r : BitVec 3) (v : Bool) : (s.setPred r v).slices = s.slices := rfl
@[simp] theorem State.setPred_pkgs (s : State) (r : BitVec 3) (v : Bool) : (s.setPred r v).pkgs = s.pkgs := rfl
@[simp] theorem State.setPred_switches (s : State) (r : BitVec 3) (v : Bool) : (s.setPred r v).switches = s.switches := rfl
@[simp] theorem State.setPred_nodes (s : State) (r : BitVec 3) (v : Bool) : (s.setPred r v).nodes = s.nodes := rfl
@[simp] theorem State.setPred_transfers (s : State) (r : BitVec 3) (v : Bool) : (s.setPred r v).transfers = s.transfers := rfl
@[simp] theorem State.setPred_nextKv (s : State) (r : BitVec 3) (v : Bool) : (s.setPred r v).nextKv = s.nextKv := rfl
@[simp] theorem State.setPred_tagQ (s : State) (r : BitVec 3) (v : Bool) : (s.setPred r v).tagQ = s.tagQ := rfl
@[simp] theorem State.setPred_out (s : State) (r : BitVec 3) (v : Bool) : (s.setPred r v).out = s.out := rfl
@[simp] theorem State.setPred_cur (s : State) (r : BitVec 3) (v : Bool) : (s.setPred r v).cur = s.cur := rfl
@[simp] theorem State.setPred_agenda (s : State) (r : BitVec 3) (v : Bool) : (s.setPred r v).agenda = s.agenda := rfl
@[simp] theorem State.setPred_clock (s : State) (r : BitVec 3) (v : Bool) : (s.setPred r v).clock = s.clock := rfl
@[simp] theorem State.setPred_nondet (s : State) (r : BitVec 3) (v : Bool) : (s.setPred r v).nondet = s.nondet := rfl
@[simp] theorem State.setPred_ticks (s : State) (r : BitVec 3) (v : Bool) : (s.setPred r v).ticks = s.ticks := rfl
@[simp] theorem State.setPred_fates (s : State) (r : BitVec 3) (v : Bool) : (s.setPred r v).fates = s.fates := rfl

@[simp] theorem State.setBytes_mem (s : State) (a : Nat) (bs : List Byte) : (s.setBytes a bs).mem = s.mem.write a bs := rfl
@[simp] theorem State.setWord_mem (s : State) (a : Nat) (v : W64) : (s.setWord a v).mem = s.mem.write a (wordBytes v) := rfl

@[simp] theorem State.wake_mem (s : State) (h : Happening) : (s.wake h).mem = s.mem := by unfold State.wake; split <;> rfl
@[simp] theorem State.wake_tags (s : State) (h : Happening) : (s.wake h).tags = s.tags := by unfold State.wake; split <;> rfl
@[simp] theorem State.wake_poison (s : State) (h : Happening) : (s.wake h).poison = s.poison := by unfold State.wake; split <;> rfl
@[simp] theorem State.wake_soft (s : State) (h : Happening) : (s.wake h).soft = s.soft := by unfold State.wake; split <;> rfl
@[simp] theorem State.wake_lines (s : State) (h : Happening) : (s.wake h).lines = s.lines := by unfold State.wake; split <;> rfl
@[simp] theorem State.wake_stamps (s : State) (h : Happening) : (s.wake h).stamps = s.stamps := by unfold State.wake; split <;> rfl
@[simp] theorem State.wake_enc (s : State) (h : Happening) : (s.wake h).enc = s.enc := by unfold State.wake; split <;> rfl
@[simp] theorem State.wake_cores (s : State) (h : Happening) : (s.wake h).cores = s.cores := by unfold State.wake; split <;> rfl
@[simp] theorem State.wake_slices (s : State) (h : Happening) : (s.wake h).slices = s.slices := by unfold State.wake; split <;> rfl
@[simp] theorem State.wake_pkgs (s : State) (h : Happening) : (s.wake h).pkgs = s.pkgs := by unfold State.wake; split <;> rfl
@[simp] theorem State.wake_switches (s : State) (h : Happening) : (s.wake h).switches = s.switches := by unfold State.wake; split <;> rfl
@[simp] theorem State.wake_nodes (s : State) (h : Happening) : (s.wake h).nodes = s.nodes := by unfold State.wake; split <;> rfl
@[simp] theorem State.wake_transfers (s : State) (h : Happening) : (s.wake h).transfers = s.transfers := by unfold State.wake; split <;> rfl
@[simp] theorem State.wake_nextKv (s : State) (h : Happening) : (s.wake h).nextKv = s.nextKv := by unfold State.wake; split <;> rfl
@[simp] theorem State.wake_tagQ (s : State) (h : Happening) : (s.wake h).tagQ = s.tagQ := by unfold State.wake; split <;> rfl
@[simp] theorem State.wake_out (s : State) (h : Happening) : (s.wake h).out = s.out := by unfold State.wake; split <;> rfl
@[simp] theorem State.wake_cur (s : State) (h : Happening) : (s.wake h).cur = s.cur := by unfold State.wake; split <;> rfl
@[simp] theorem State.wake_clock (s : State) (h : Happening) : (s.wake h).clock = s.clock := by unfold State.wake; split <;> rfl
@[simp] theorem State.wake_nondet (s : State) (h : Happening) : (s.wake h).nondet = s.nondet := by unfold State.wake; split <;> rfl
@[simp] theorem State.wake_ticks (s : State) (h : Happening) : (s.wake h).ticks = s.ticks := by unfold State.wake; split <;> rfl
@[simp] theorem State.wake_fates (s : State) (h : Happening) : (s.wake h).fates = s.fates := by unfold State.wake; split <;> rfl
@[simp] theorem State.putCore_slice (s : State) (k : Nat) (c : Core) (j : Nat) : (s.putCore k c).slice j = s.slice j := rfl
@[simp] theorem State.putCore_pkg (s : State) (k : Nat) (c : Core) (j : Nat) : (s.putCore k c).pkg j = s.pkg j := rfl
@[simp] theorem State.putCore_switch (s : State) (k : Nat) (c : Core) (j : Nat) : (s.putCore k c).switch j = s.switch j := rfl
@[simp] theorem State.setMe_slice (s : State) (c : Core) (j : Nat) : (s.setMe c).slice j = s.slice j := rfl
@[simp] theorem State.setMe_pkg (s : State) (c : Core) (j : Nat) : (s.setMe c).pkg j = s.pkg j := rfl
@[simp] theorem State.setMe_switch (s : State) (c : Core) (j : Nat) : (s.setMe c).switch j = s.switch j := rfl
@[simp] theorem State.putSlice_core (s : State) (k : Nat) (c : Slice) (j : Nat) : (s.putSlice k c).core j = s.core j := rfl
@[simp] theorem State.putSlice_pkg (s : State) (k : Nat) (c : Slice) (j : Nat) : (s.putSlice k c).pkg j = s.pkg j := rfl
@[simp] theorem State.putSlice_switch (s : State) (k : Nat) (c : Slice) (j : Nat) : (s.putSlice k c).switch j = s.switch j := rfl
@[simp] theorem State.putSlice_me (s : State) (k : Nat) (c : Slice) : (s.putSlice k c).me = s.me := rfl
@[simp] theorem State.putPkg_core (s : State) (k : Nat) (p : Package) (j : Nat) : (s.putPkg k p).core j = s.core j := rfl
@[simp] theorem State.putPkg_slice (s : State) (k : Nat) (p : Package) (j : Nat) : (s.putPkg k p).slice j = s.slice j := rfl
@[simp] theorem State.putPkg_switch (s : State) (k : Nat) (p : Package) (j : Nat) : (s.putPkg k p).switch j = s.switch j := rfl
@[simp] theorem State.putPkg_me (s : State) (k : Nat) (p : Package) : (s.putPkg k p).me = s.me := rfl
@[simp] theorem State.putSwitch_core (s : State) (k : Nat) (w : Switch) (j : Nat) : (s.putSwitch k w).core j = s.core j := rfl
@[simp] theorem State.putSwitch_slice (s : State) (k : Nat) (w : Switch) (j : Nat) : (s.putSwitch k w).slice j = s.slice j := rfl
@[simp] theorem State.putSwitch_pkg (s : State) (k : Nat) (w : Switch) (j : Nat) : (s.putSwitch k w).pkg j = s.pkg j := rfl
@[simp] theorem State.putSwitch_me (s : State) (k : Nat) (w : Switch) : (s.putSwitch k w).me = s.me := rfl
@[simp] theorem State.later_core (s : State) (h : Happening) (j : Nat) : (s.later h).core j = s.core j := rfl
@[simp] theorem State.later_slice (s : State) (h : Happening) (j : Nat) : (s.later h).slice j = s.slice j := rfl
@[simp] theorem State.later_pkg (s : State) (h : Happening) (j : Nat) : (s.later h).pkg j = s.pkg j := rfl
@[simp] theorem State.later_switch (s : State) (h : Happening) (j : Nat) : (s.later h).switch j = s.switch j := rfl
@[simp] theorem State.later_me (s : State) (h : Happening) : (s.later h).me = s.me := rfl
@[simp] theorem State.now_core (s : State) (h : Happening) (j : Nat) : (s.now h).core j = s.core j := rfl
@[simp] theorem State.now_slice (s : State) (h : Happening) (j : Nat) : (s.now h).slice j = s.slice j := rfl
@[simp] theorem State.now_pkg (s : State) (h : Happening) (j : Nat) : (s.now h).pkg j = s.pkg j := rfl
@[simp] theorem State.now_switch (s : State) (h : Happening) (j : Nat) : (s.now h).switch j = s.switch j := rfl
@[simp] theorem State.now_me (s : State) (h : Happening) : (s.now h).me = s.me := rfl
@[simp] theorem State.setBytes_core (s : State) (a : Nat) (bs : List Byte) (j : Nat) : (s.setBytes a bs).core j = s.core j := rfl
@[simp] theorem State.setBytes_slice (s : State) (a : Nat) (bs : List Byte) (j : Nat) : (s.setBytes a bs).slice j = s.slice j := rfl
@[simp] theorem State.setBytes_pkg (s : State) (a : Nat) (bs : List Byte) (j : Nat) : (s.setBytes a bs).pkg j = s.pkg j := rfl
@[simp] theorem State.setBytes_switch (s : State) (a : Nat) (bs : List Byte) (j : Nat) : (s.setBytes a bs).switch j = s.switch j := rfl
@[simp] theorem State.setBytes_me (s : State) (a : Nat) (bs : List Byte) : (s.setBytes a bs).me = s.me := rfl
@[simp] theorem State.setWord_core (s : State) (a : Nat) (v : W64) (j : Nat) : (s.setWord a v).core j = s.core j := rfl
@[simp] theorem State.setWord_slice (s : State) (a : Nat) (v : W64) (j : Nat) : (s.setWord a v).slice j = s.slice j := rfl
@[simp] theorem State.setWord_pkg (s : State) (a : Nat) (v : W64) (j : Nat) : (s.setWord a v).pkg j = s.pkg j := rfl
@[simp] theorem State.setWord_switch (s : State) (a : Nat) (v : W64) (j : Nat) : (s.setWord a v).switch j = s.switch j := rfl
@[simp] theorem State.setWord_me (s : State) (a : Nat) (v : W64) : (s.setWord a v).me = s.me := rfl
@[simp] theorem State.setReg_slice (s : State) (r : BitVec 5) (v : W64) (j : Nat) : (s.setReg r v).slice j = s.slice j := rfl
@[simp] theorem State.setReg_pkg (s : State) (r : BitVec 5) (v : W64) (j : Nat) : (s.setReg r v).pkg j = s.pkg j := rfl
@[simp] theorem State.setReg_switch (s : State) (r : BitVec 5) (v : W64) (j : Nat) : (s.setReg r v).switch j = s.switch j := rfl
@[simp] theorem State.setPred_slice (s : State) (r : BitVec 3) (v : Bool) (j : Nat) : (s.setPred r v).slice j = s.slice j := rfl
@[simp] theorem State.setPred_pkg (s : State) (r : BitVec 3) (v : Bool) (j : Nat) : (s.setPred r v).pkg j = s.pkg j := rfl
@[simp] theorem State.setPred_switch (s : State) (r : BitVec 3) (v : Bool) (j : Nat) : (s.setPred r v).switch j = s.switch j := rfl
@[simp] theorem State.wake_core (s : State) (h : Happening) (j : Nat) : (s.wake h).core j = s.core j := by unfold State.wake; split <;> rfl
@[simp] theorem State.wake_slice (s : State) (h : Happening) (j : Nat) : (s.wake h).slice j = s.slice j := by unfold State.wake; split <;> rfl
@[simp] theorem State.wake_pkg (s : State) (h : Happening) (j : Nat) : (s.wake h).pkg j = s.pkg j := by unfold State.wake; split <;> rfl
@[simp] theorem State.wake_switch (s : State) (h : Happening) (j : Nat) : (s.wake h).switch j = s.switch j := by unfold State.wake; split <;> rfl
@[simp] theorem State.wake_me (s : State) (h : Happening) : (s.wake h).me = s.me := by unfold State.wake; split <;> rfl

end Sys2Proof.Machine
end

