-- ==== Sys2Proof/Laws/Ops.lean ====
section
/-!
SUPPORT. What the shared operations of the access core do, said once each.
-/
namespace Sys2Proof.Machine

/-! ### Frames -/

theorem OnlyMe.refl (s : State) : OnlyMe s s := ⟨rfl, fun _ _ => rfl⟩

theorem OnlyMe.cur {s t : State} (h : OnlyMe s t) : t.cur = s.cur := by rw [h.1]
theorem OnlyMe.mem {s t : State} (h : OnlyMe s t) : t.mem = s.mem := by rw [h.1]

theorem OnlyMe.trans {s t u : State} (h : OnlyMe s t) (k : OnlyMe t u) : OnlyMe s u := by
  refine ⟨?_, fun ck hk => ?_⟩
  · rw [k.1, h.1]
  · rw [k.2 ck (by rw [h.cur]; exact hk), h.2 ck hk]

theorem OnlyMe.setMe (s : State) (c : Core) : OnlyMe s (s.setMe c) :=
  ⟨rfl, fun ck hk => by simp [hk]⟩

theorem OnlyMe.now (s : State) (h : Happening) : OnlyMe s (s.now h) := ⟨rfl, fun _ _ => rfl⟩
theorem OnlyMe.later (s : State) (h : Happening) : OnlyMe s (s.later h) := ⟨rfl, fun _ _ => rfl⟩
theorem OnlyMe.wake (s : State) (h : Happening) : OnlyMe s (s.wake h) := by
  unfold State.wake
  split
  · exact OnlyMe.refl s
  · exact OnlyMe.later s h

/-! ### The end of an instruction (R125, R126, R248) -/

theorem State.spend_only (s : State) : OnlyMe s s.spend := by
  unfold State.spend
  dsimp only
  split
  · exact OnlyMe.refl s
  · split
    · exact (OnlyMe.setMe s _).trans (OnlyMe.now _ _)
    · exact OnlyMe.setMe s _

theorem State.spend_me (s : State) : s.spend.me = { s.me with watchdog := s.spend.me.watchdog } := by
  unfold State.spend
  dsimp only
  split
  · rfl
  · split <;> simp

/-- An instruction that completes counts toward the watchdog of a thread (R248). -/
theorem State.spend_watchdog (s : State) : s.spend.me.watchdog = if s.me.slice.isSome then s.me.watchdog - 1 else s.me.watchdog := by
  unfold State.spend
  dsimp only
  split
  · rename_i h; simp [h]
  · rename_i h
    split <;> simp [h]

theorem State.finishAt_only (s : State) (n : W64) : OnlyMe s (s.finishAt n) :=
  (OnlyMe.setMe s _).trans (State.spend_only _)

theorem State.finishAt_place (s : State) (n : W64) : PlaceOnly s (s.finishAt n) := by
  refine ⟨s.finishAt_only n, ?_⟩
  unfold State.finishAt
  dsimp only
  rw [State.spend_me]
  simp

theorem State.finishAt_pc (s : State) (n : W64) (h : s.me.loops = []) : (s.finishAt n).pc = n := by
  unfold State.finishAt State.pc
  dsimp only
  rw [State.spend_me]
  simp [h, loopEnd]

theorem State.finish_place (s : State) : PlaceOnly s s.finish := s.finishAt_place _
theorem State.finish_only (s : State) : OnlyMe s s.finish := s.finishAt_only _
theorem State.finish_pc (s : State) (h : s.me.loops = []) : s.finish.pc = s.pc + 4 := s.finishAt_pc _ h
theorem State.finish_advances (s : State) : Advances s s.finish := s.finish_pc

theorem State.finish_reg (s : State) (q : BitVec 5) : s.finish.reg q = s.reg q := by
  unfold State.reg
  rw [(s.finish_place).2]
  rfl
theorem State.finish_pred (s : State) (q : BitVec 3) : s.finish.pred q = s.pred q := by
  unfold State.pred
  rw [(s.finish_place).2]
  rfl
@[simp] theorem State.finish_mem (s : State) : s.finish.mem = s.mem := s.finish_only.mem
@[simp] theorem State.finish_cur (s : State) : s.finish.cur = s.cur := s.finish_only.cur

theorem State.jump_place (s : State) (a : W64) : PlaceOnly s (s.jump a) ∧ (s.jump a).pc = a := by
  unfold State.jump State.pc
  dsimp only
  refine ⟨⟨(OnlyMe.setMe s _).trans (State.spend_only _), ?_⟩, ?_⟩ <;> rw [State.spend_me] <;> simp

/-! ### Shapes of instruction -/

theorem Core.setReg_eq (c : Core) (r : BitVec 5) (v : W64) : c.setReg r v = { c with s := (c.setReg r v).s } := by
  unfold Core.setReg
  split <;> rfl
theorem Core.setPred_eq (c : Core) (r : BitVec 3) (v : Bool) : c.setPred r v = { c with p := (c.setPred r v).p } := by
  unfold Core.setPred
  split <;> rfl

/-- A register takes a value, and the next instruction follows. -/
theorem State.setNext_result (s : State) (d : BitVec 5) (v : W64) : RegResult s (s.setNext d v) d v := by
  unfold State.setNext
  refine ⟨fun q => ?_, fun h => ?_, (OnlyMe.setMe s _).trans (State.finish_only _), ?_⟩
  · rw [State.finish_reg, State.reg_setReg]
  · rw [State.finish_pc _ (by simpa using h)]; simp [State.pc]
  · rw [(State.finish_place _).2, State.setReg_me, Core.setReg_eq]

/-- A predicate takes a value, and the next instruction follows. -/
theorem State.setPredNext_result (s : State) (d : BitVec 3) (v : Bool) : PredResult s (s.setPredNext d v) d v := by
  unfold State.setPredNext
  refine ⟨fun q => ?_, fun h => ?_, (OnlyMe.setMe s _).trans (State.finish_only _), ?_⟩
  · rw [State.finish_pred, State.pred_setPred]
  · rw [State.finish_pc _ (by simpa using h)]; simp [State.pc]
  · rw [(State.finish_place _).2, State.setPred_me, Core.setPred_eq]

/-- A unit for which no fault is in store meets none. -/
theorem State.takeUpset_healthy {s : State} {unit : Nat} (h : s.Healthy unit) : s.takeUpset s.cur unit = (none, s) := by
  unfold State.takeUpset
  have e : s.core s.cur = s.me := rfl
  dsimp only
  rw [e]
  cases hu : s.me.upsets with
  | nil => rfl
  | cons u t =>
    have := h u (by simp [hu])
    simp [this]

/-- A residue-checked result without a fault is the plain result (R118). -/
theorem State.checkedNext_healthy {s : State} (h : s.Healthy 1) (i : Instr) (d : BitVec 5) (v : W64) :
    s.checkedNext i d v = s.setNext d v := by
  unfold State.checkedNext
  rw [State.takeUpset_healthy h]

theorem State.guarded_true {s : State} {g : BitVec 3} (h : s.pred g = true) (k : State → State) : s.guarded g k = .next (k s) := by
  unfold State.guarded
  rw [if_pos h]
theorem State.guarded_false {s : State} {g : BitVec 3} (h : s.pred g = false) (k : State → State) : s.guarded g k = .next s.finish := by
  unfold State.guarded
  rw [if_neg (by simp [h])]

/-! ### Traps (R300) -/

theorem leBytes_length (n v : Nat) : (leBytes n v).length = n := by
  induction n generalizing v with
  | zero => rfl
  | succ n ih => simp [leBytes, ih]

theorem State.count_fields (s : State) (node cause : Nat) : s.count node cause = { s with mem := (s.count node cause).mem } := by
  unfold State.count
  split
  · dsimp only
    split <;> rfl
  · rfl
@[simp] theorem State.count_me (s : State) (node cause : Nat) : (s.count node cause).me = s.me := by rw [State.count_fields]; rfl
@[simp] theorem State.count_core (s : State) (node cause ck : Nat) : (s.count node cause).core ck = s.core ck := by
  rw [State.count_fields]; rfl
@[simp] theorem State.count_cur (s : State) (node cause : Nat) : (s.count node cause).cur = s.cur := by rw [State.count_fields]

/-- A counter changes its own four bytes and no other byte (R314). -/
theorem State.count_mem {s : State} (h : s.Inv) (node cause a : Nat)
    (ha : ¬(ctl node (0x200000 + 8 * cause) ≤ a ∧ a < ctl node (0x200000 + 8 * cause) + 4)) :
    (s.count node cause).mem.get a = s.mem.get a := by
  have e : ctl node 0x200000 + 8 * cause = ctl node (0x200000 + 8 * cause) := by simp [ctl]; omega
  unfold State.count
  split
  · dsimp only
    rw [e]
    split
    · rfl
    · rw [State.setBytes_mem, Memory.get_write h.1, leBytes_length, if_neg ha]
  · rfl

theorem State.count_inv {s : State} (h : s.Inv) (node cause : Nat) : (s.count node cause).Inv := by
  unfold State.count State.Inv
  split
  · dsimp only
    split
    · exact h
    · exact ⟨Memory.wf_write h.1 _ _, h.2⟩
  · exact h

/-- A core that can take a trap takes it, and nothing else happens. -/
theorem State.deliver_trapped {s : State} (hc : s.CanTrap) (h : s.Inv) (cause : Nat) (addr ret : W64) :
    Trapped s (s.deliver cause addr ret) cause addr ret := by
  obtain ⟨h1, h2, h3⟩ := hc
  have h3' : s.me.tvec.fld 0 2 = 0 := by simpa [BitVec.fld] using h3
  have e : s.deliver cause addr ret = (s.count s.node cause).setMe { s.me with
      trapCause := BitVec.ofNat 8 cause, trapAddr := addr, trapPc := ret, trapH := true
      cdepth := s.me.cdepth + 1, wait := none, relWait := none, pushHeld := none, pc := s.me.tvec } := by
    unfold State.deliver
    simp [h1, h3']
    intro h; exact absurd h h2
  rw [e]
  refine ⟨by simp, fun ck hk => ?_, ?_, fun a ha => ?_⟩
  · simp [hk]
  · rw [State.count_fields]; rfl
  · simpa using State.count_mem h s.node cause a ha

theorem State.trap_trapped {s : State} (hc : s.CanTrap) (h : s.Inv) (cause : Nat) (addr : W64) :
    Trapped s (s.trap cause addr) cause addr s.pc := State.deliver_trapped hc h cause addr s.pc

/-! ### Parts of an instruction -/

@[simp] theorem Res.run_ok {α : Type} (v : α) (s : State) (k : α → State → State) : (Res.ok v s).run k = k v s := rfl
@[simp] theorem Res.run_stop {α : Type} (s : State) (k : α → State → State) : (Res.stop s : Res α).run k = s := rfl
@[simp] theorem Res.then_ok {α β : Type} (v : α) (s : State) (k : α → State → Res β) : (Res.ok v s).then_ k = k v s := rfl
@[simp] theorem Res.then_stop {α β : Type} (s : State) (k : α → State → Res β) : (Res.stop s : Res α).then_ k = .stop s := rfl

end Sys2Proof.Machine
end

