-- ==== Sys2Proof/Laws/Inv.lean ====
section
/-!
SUPPORT. Sets of numbers, and the operations on memory and tags that keep the state's invariant.
-/
namespace Sys2Proof

/-! ### Sets -/

theorem NSet.sorted_cons {a : Nat} {t : NSet} : NSet.sorted (a :: t) = true ↔ (∀ x ∈ t, a < x) ∧ NSet.sorted t = true := by
  induction t generalizing a with
  | nil => simp [NSet.sorted]
  | cons b u ih =>
    simp only [NSet.sorted, Bool.and_eq_true, decide_eq_true_eq, List.mem_cons, forall_eq_or_imp]
    constructor
    · rintro ⟨h1, h2⟩
      refine ⟨⟨h1, fun x hx => ?_⟩, h2⟩
      exact Nat.lt_trans h1 ((ih.1 h2).1 x hx)
    · rintro ⟨⟨h1, -⟩, h2⟩
      exact ⟨h1, h2⟩

theorem NSet.mem_add {t : NSet} {a x : Nat} (h : x ∈ NSet.add t a) : x = a ∨ x ∈ t := by
  induction t with
  | nil => simpa [NSet.add] using h
  | cons b u ih =>
    unfold NSet.add at h
    split at h
    · simpa using h
    · split at h
      · exact .inr h
      · rcases List.mem_cons.1 h with h | h
        · exact .inr (by simp [h])
        · rcases ih h with h | h
          · exact .inl h
          · exact .inr (by simp [h])

theorem NSet.mem_del {t : NSet} {a x : Nat} (h : x ∈ NSet.del t a) : x ∈ t := by
  induction t with
  | nil => simp [NSet.del] at h
  | cons b u ih =>
    unfold NSet.del at h
    split at h
    · simp [h]
    · split at h
      · exact h
      · rcases List.mem_cons.1 h with h | h
        · simp [h]
        · simp [ih h]

theorem NSet.sorted_add {t : NSet} (h : NSet.sorted t = true) (a : Nat) : NSet.sorted (NSet.add t a) = true := by
  induction t with
  | nil => rfl
  | cons b u ih =>
    obtain ⟨h1, h2⟩ := NSet.sorted_cons.1 h
    unfold NSet.add
    split
    · next hab => exact NSet.sorted_cons.2 ⟨fun x hx => by
        rcases List.mem_cons.1 hx with hx | hx
        · omega
        · exact Nat.lt_trans hab (h1 x hx), h⟩
    · split
      · exact h
      · exact NSet.sorted_cons.2 ⟨fun x hx => by
          rcases NSet.mem_add hx with hx | hx
          · omega
          · exact h1 x hx, ih h2⟩

theorem NSet.sorted_del {t : NSet} (h : NSet.sorted t = true) (a : Nat) : NSet.sorted (NSet.del t a) = true := by
  induction t with
  | nil => rfl
  | cons b u ih =>
    obtain ⟨h1, h2⟩ := NSet.sorted_cons.1 h
    unfold NSet.del
    split
    · exact h2
    · split
      · exact h
      · exact NSet.sorted_cons.2 ⟨fun x hx => h1 x (NSet.mem_del hx), ih h2⟩

theorem NSet.sorted_filter {t : NSet} (h : NSet.sorted t = true) (p : Nat → Bool) : NSet.sorted (t.filter p) = true := by
  induction t with
  | nil => rfl
  | cons b u ih =>
    obtain ⟨h1, h2⟩ := NSet.sorted_cons.1 h
    rw [List.filter_cons]
    split
    · exact NSet.sorted_cons.2 ⟨fun x hx => h1 x (List.mem_filter.1 hx).1, ih h2⟩
    · exact ih h2

theorem NSet.sorted_cut {t : NSet} (h : NSet.sorted t = true) (lo hi : Nat) : NSet.sorted (t.cut lo hi) = true := NSet.sorted_filter h _

theorem NSet.has_add (t : NSet) (a x : Nat) : (NSet.add t a).has x = (decide (x = a) || t.has x) := by
  induction t with
  | nil =>
    simp only [NSet.add, NSet.has]
    split
    · simp [*]
    · simp [*]
  | cons b u ih =>
    unfold NSet.add
    split
    · simp only [NSet.has]
      split
      · simp [*]
      · split
        · have : ¬x = b := by omega
          have : x < b := by omega
          simp [*]
        · simp [*]
    · split
      · subst_vars
        simp only [NSet.has]
        split <;> simp [*]
      · simp only [NSet.has, ih]
        split
        · simp [*]
        · split
          · have : ¬x = a := by omega
            simp [*]
          · rfl

theorem NSet.has_none {t : NSet} {x : Nat} (h : ∀ y ∈ t, x < y) : t.has x = false := by
  cases t with
  | nil => rfl
  | cons b u =>
    have := h b (by simp)
    simp only [NSet.has]
    have : ¬x = b := by omega
    simp [*]

theorem NSet.has_del {t : NSet} (h : NSet.sorted t = true) (a x : Nat) : (NSet.del t a).has x = (!decide (x = a) && t.has x) := by
  induction t with
  | nil => simp [NSet.del, NSet.has]
  | cons b u ih =>
    obtain ⟨h1, h2⟩ := NSet.sorted_cons.1 h
    unfold NSet.del
    split
    · subst_vars
      by_cases hx : x = b
      · subst hx
        simp [NSet.has_none h1]
      · simp only [NSet.has, hx, if_false, decide_false, Bool.not_false, Bool.true_and]
        split
        · next hlt => exact NSet.has_none fun y hy => Nat.lt_trans hlt (h1 y hy)
        · rfl
    · split
      · by_cases hx : x = a
        · subst hx
          have : ¬x = b := by omega
          simp [NSet.has, *]
        · simp [hx]
      · simp only [NSet.has, ih h2]
        split
        · subst_vars
          have : ¬b = a := fun e => by simp_all
          simp [this]
        · split
          · simp
          · rfl

end Sys2Proof

namespace Sys2Proof.Machine

/-! ### The invariant under the operations on memory -/

theorem State.Inv.of_same {s t : State} (h : s.Inv) (hm : t.mem = s.mem) (ht : t.tags = s.tags) : t.Inv := by
  unfold State.Inv
  rw [hm, ht]
  exact h

theorem State.reset_Inv : State.reset.Inv := ⟨rfl, rfl⟩
theorem State.setMe_Inv {s : State} (h : s.Inv) (c : Core) : (s.setMe c).Inv := h
theorem State.putCore_Inv {s : State} (h : s.Inv) (ck : Nat) (c : Core) : (s.putCore ck c).Inv := h
theorem State.setBytes_Inv {s : State} (h : s.Inv) (a : Nat) (bs : List Byte) : (s.setBytes a bs).Inv := ⟨Memory.wf_write h.1 a bs, h.2⟩
theorem State.setWord_Inv {s : State} (h : s.Inv) (a : Nat) (v : W64) : (s.setWord a v).Inv := State.setBytes_Inv h _ _

theorem State.rekey_Inv {s : State} (h : s.Inv) (k : Option Key) (l : Nat) : (s.rekey k l).Inv := by
  unfold State.rekey
  split
  · exact h
  · cases k <;> exact State.setBytes_Inv h _ _

/-- A poke keeps the canonical form. -/
theorem State.poke_Inv {s : State} (h : s.Inv) (k : Option Key) (a : Nat) (bs : List Byte) : (s.poke k a bs).Inv := by
  have h1 := State.setBytes_Inv (State.rekey_Inv h k (a / 64)) a bs
  unfold State.poke
  dsimp only
  split
  · exact h1
  · exact h1

theorem State.noteWrite_Inv {s : State} (h : s.Inv) (ck : Nat) (pg : Page) (n : Nat) : (s.noteWrite ck pg n).Inv := by
  unfold State.noteWrite
  dsimp only
  have h0 : ∀ s' : State, s'.mem = s.mem → s'.tags = s.tags → s'.Inv := fun s' => h.of_same
  have h1 : (if s.stamps.isEmpty then s else
    { s with stamps := s.stamps.filter fun e => e.1 < pg.pa || pg.pa + n ≤ e.1 }).Inv := by
    split
    · exact h
    · exact h
  generalize (if s.stamps.isEmpty then s else
    { s with stamps := s.stamps.filter fun e => e.1 < pg.pa || pg.pa + n ≤ e.1 }) = u at h1 ⊢
  split
  · split
    · split
      · exact h1
      · exact h1
    · refine State.count_inv ?_ _ _
      exact h1
  · exact h1

end Sys2Proof.Machine
end

