-- ==== Sys2Proof/Laws/PerInstr.lean ====
section
/-!
SUPPORT. The family Words: how many words an instruction of each stream has (R99), one lemma per constructor.
-/
namespace Sys2Proof

/-- Word counts that a stream admits (R99): an access instruction has one to three, an engine instruction one, an event none. -/
def Stream.admits : Stream → Nat → Bool
  | .access, n => 1 ≤ n && n ≤ 3
  | .event, n => n == 0
  | _, n => n == 1

namespace Laws.Words

/-- The instruction has as many words as its stream admits. -/
def Statement (i : Instr) : Prop := i.stream.admits (encode i).length = true

theorem addI64 (d : BitVec 5) (a : BitVec 5) (b : BitVec 5) (g : BitVec 3) : Statement (.addI64 d a b g) := rfl
theorem subI64 (d : BitVec 5) (a : BitVec 5) (b : BitVec 5) (g : BitVec 3) : Statement (.subI64 d a b g) := rfl
theorem mulI64 (d : BitVec 5) (a : BitVec 5) (b : BitVec 5) (g : BitVec 3) : Statement (.mulI64 d a b g) := rfl
theorem mulhI64 (d : BitVec 5) (a : BitVec 5) (b : BitVec 5) (g : BitVec 3) : Statement (.mulhI64 d a b g) := rfl
theorem mulhW64 (d : BitVec 5) (a : BitVec 5) (b : BitVec 5) (g : BitVec 3) : Statement (.mulhW64 d a b g) := rfl
theorem divI64 (d : BitVec 5) (a : BitVec 5) (b : BitVec 5) (g : BitVec 3) : Statement (.divI64 d a b g) := rfl
theorem divW64 (d : BitVec 5) (a : BitVec 5) (b : BitVec 5) (g : BitVec 3) : Statement (.divW64 d a b g) := rfl
theorem remI64 (d : BitVec 5) (a : BitVec 5) (b : BitVec 5) (g : BitVec 3) : Statement (.remI64 d a b g) := rfl
theorem andW64 (d : BitVec 5) (a : BitVec 5) (b : BitVec 5) (g : BitVec 3) : Statement (.andW64 d a b g) := rfl
theorem orW64 (d : BitVec 5) (a : BitVec 5) (b : BitVec 5) (g : BitVec 3) : Statement (.orW64 d a b g) := rfl
theorem xorW64 (d : BitVec 5) (a : BitVec 5) (b : BitVec 5) (g : BitVec 3) : Statement (.xorW64 d a b g) := rfl
theorem shlI64 (d : BitVec 5) (a : BitVec 5) (b : BitVec 5) (g : BitVec 3) : Statement (.shlI64 d a b g) := rfl
theorem shrW64 (d : BitVec 5) (a : BitVec 5) (b : BitVec 5) (g : BitVec 3) : Statement (.shrW64 d a b g) := rfl
theorem sraI64 (d : BitVec 5) (a : BitVec 5) (b : BitVec 5) (g : BitVec 3) : Statement (.sraI64 d a b g) := rfl
theorem cmpEqI64 (d : BitVec 3) (a : BitVec 5) (b : BitVec 5) (g : BitVec 3) : Statement (.cmpEqI64 d a b g) := rfl
theorem cmpNeI64 (d : BitVec 3) (a : BitVec 5) (b : BitVec 5) (g : BitVec 3) : Statement (.cmpNeI64 d a b g) := rfl
theorem cmpLtI64 (d : BitVec 3) (a : BitVec 5) (b : BitVec 5) (g : BitVec 3) : Statement (.cmpLtI64 d a b g) := rfl
theorem cmpGeI64 (d : BitVec 3) (a : BitVec 5) (b : BitVec 5) (g : BitVec 3) : Statement (.cmpGeI64 d a b g) := rfl
theorem cmpLtW64 (d : BitVec 3) (a : BitVec 5) (b : BitVec 5) (g : BitVec 3) : Statement (.cmpLtW64 d a b g) := rfl
theorem cmpGeW64 (d : BitVec 3) (a : BitVec 5) (b : BitVec 5) (g : BitVec 3) : Statement (.cmpGeW64 d a b g) := rfl
theorem pand (d : BitVec 3) (a : BitVec 3) (b : BitVec 3) (g : BitVec 3) : Statement (.pand d a b g) := rfl
theorem por (d : BitVec 3) (a : BitVec 3) (b : BitVec 3) (g : BitVec 3) : Statement (.por d a b g) := rfl
theorem pxor (d : BitVec 3) (a : BitVec 3) (b : BitVec 3) (g : BitVec 3) : Statement (.pxor d a b g) := rfl
theorem pandn (d : BitVec 3) (a : BitVec 3) (b : BitVec 3) (g : BitVec 3) : Statement (.pandn d a b g) := rfl
theorem pset (d : BitVec 3) (a : BitVec 5) (g : BitVec 3) : Statement (.pset d a g) := rfl
theorem pget (d : BitVec 5) (a : BitVec 3) (g : BitVec 3) : Statement (.pget d a g) := rfl
theorem addiI64 (d : BitVec 5) (a : BitVec 5) (g : BitVec 3) (i : BitVec 12) : Statement (.addiI64 d a g i) := rfl
theorem andiW64 (d : BitVec 5) (a : BitVec 5) (g : BitVec 3) (i : BitVec 12) : Statement (.andiW64 d a g i) := rfl
theorem oriW64 (d : BitVec 5) (a : BitVec 5) (g : BitVec 3) (i : BitVec 12) : Statement (.oriW64 d a g i) := rfl
theorem xoriW64 (d : BitVec 5) (a : BitVec 5) (g : BitVec 3) (i : BitVec 12) : Statement (.xoriW64 d a g i) := rfl
theorem shliI64 (d : BitVec 5) (a : BitVec 5) (g : BitVec 3) (i : BitVec 6) : Statement (.shliI64 d a g i) := rfl
theorem shriW64 (d : BitVec 5) (a : BitVec 5) (g : BitVec 3) (i : BitVec 6) : Statement (.shriW64 d a g i) := rfl
theorem sraiI64 (d : BitVec 5) (a : BitVec 5) (g : BitVec 3) (i : BitVec 6) : Statement (.sraiI64 d a g i) := rfl
theorem li (d : BitVec 5) (i : BitVec 20) : Statement (.li d i) := rfl
theorem lea (d : BitVec 5) (a : BitVec 4) (g : BitVec 3) (i : BitVec 12) : Statement (.lea d a g i) := rfl
theorem bxlen (d : BitVec 5) (a : BitVec 4) (g : BitVec 3) : Statement (.bxlen d a g) := rfl
theorem br (g : BitVec 3) (n : BitVec 1) (i : BitVec 21) : Statement (.br g n i) := rfl
theorem call (g : BitVec 3) (n : BitVec 1) (i : BitVec 21) : Statement (.call g n i) := rfl
theorem jr (a : BitVec 5) (g : BitVec 3) : Statement (.jr a g) := rfl
theorem ret (g : BitVec 3) : Statement (.ret g) := rfl
theorem loop (a : BitVec 5) (g : BitVec 3) (i : BitVec 12) : Statement (.loop a g i) := rfl
theorem ldW8 (d : BitVec 5) (a : BitVec 5) (g : BitVec 3) (i : BitVec 12) : Statement (.ldW8 d a g i) := rfl
theorem ldW16 (d : BitVec 5) (a : BitVec 5) (g : BitVec 3) (i : BitVec 12) : Statement (.ldW16 d a g i) := rfl
theorem ldW32 (d : BitVec 5) (a : BitVec 5) (g : BitVec 3) (i : BitVec 12) : Statement (.ldW32 d a g i) := rfl
theorem ldW64 (d : BitVec 5) (a : BitVec 5) (g : BitVec 3) (i : BitVec 12) : Statement (.ldW64 d a g i) := rfl
theorem ldI8 (d : BitVec 5) (a : BitVec 5) (g : BitVec 3) (i : BitVec 12) : Statement (.ldI8 d a g i) := rfl
theorem ldI32 (d : BitVec 5) (a : BitVec 5) (g : BitVec 3) (i : BitVec 12) : Statement (.ldI32 d a g i) := rfl
theorem stW8 (d : BitVec 5) (a : BitVec 5) (g : BitVec 3) (i : BitVec 12) : Statement (.stW8 d a g i) := rfl
theorem stW16 (d : BitVec 5) (a : BitVec 5) (g : BitVec 3) (i : BitVec 12) : Statement (.stW16 d a g i) := rfl
theorem stW32 (d : BitVec 5) (a : BitVec 5) (g : BitVec 3) (i : BitVec 12) : Statement (.stW32 d a g i) := rfl
theorem stW64 (d : BitVec 5) (a : BitVec 5) (g : BitVec 3) (i : BitVec 12) : Statement (.stW64 d a g i) := rfl
theorem ldAcqW32 (d : BitVec 5) (a : BitVec 5) (g : BitVec 3) (s : BitVec 3) : Statement (.ldAcqW32 d a g s) := rfl
theorem ldAcqW64 (d : BitVec 5) (a : BitVec 5) (g : BitVec 3) (s : BitVec 3) : Statement (.ldAcqW64 d a g s) := rfl
theorem stRelW32 (a : BitVec 5) (b : BitVec 5) (g : BitVec 3) (s : BitVec 3) : Statement (.stRelW32 a b g s) := rfl
theorem stRelW64 (a : BitVec 5) (b : BitVec 5) (g : BitVec 3) (s : BitVec 3) : Statement (.stRelW64 a b g s) := rfl
theorem waitTk (p : BitVec 3) (k : BitVec 7) (t : BitVec 5) : Statement (.waitTk p k t) := rfl
theorem barWait (p : BitVec 3) (k : BitVec 7) (t : BitVec 5) : Statement (.barWait p k t) := rfl
theorem ldwfW64 (p : BitVec 3) (a : BitVec 5) (t : BitVec 5) (d : BitVec 5) : Statement (.ldwfW64 p a t d) := rfl
theorem stweW64 (p : BitVec 3) (a : BitVec 5) (t : BitVec 5) (d : BitVec 5) : Statement (.stweW64 p a t d) := rfl
theorem pop (p : BitVec 3) (q : BitVec 7) (t : BitVec 5) (d : BitVec 5) : Statement (.pop p q t d) := rfl
theorem sigTk (k : BitVec 7) : Statement (.sigTk k) := rfl
theorem barArrive (k : BitVec 7) : Statement (.barArrive k) := rfl
theorem join (k : BitVec 7) : Statement (.join k) := rfl
theorem leave (k : BitVec 7) : Statement (.leave k) := rfl
theorem amoAddW64 (d : BitVec 5) (a : BitVec 5) (b : BitVec 5) (g : BitVec 3) : Statement (.amoAddW64 d a b g) := rfl
theorem amoMinI64 (d : BitVec 5) (a : BitVec 5) (b : BitVec 5) (g : BitVec 3) : Statement (.amoMinI64 d a b g) := rfl
theorem amoMaxI64 (d : BitVec 5) (a : BitVec 5) (b : BitVec 5) (g : BitVec 3) : Statement (.amoMaxI64 d a b g) := rfl
theorem amoAndW64 (d : BitVec 5) (a : BitVec 5) (b : BitVec 5) (g : BitVec 3) : Statement (.amoAndW64 d a b g) := rfl
theorem amoOrW64 (d : BitVec 5) (a : BitVec 5) (b : BitVec 5) (g : BitVec 3) : Statement (.amoOrW64 d a b g) := rfl
theorem amoXorW64 (d : BitVec 5) (a : BitVec 5) (b : BitVec 5) (g : BitVec 3) : Statement (.amoXorW64 d a b g) := rfl
theorem amoXchgW64 (d : BitVec 5) (a : BitVec 5) (b : BitVec 5) (g : BitVec 3) : Statement (.amoXchgW64 d a b g) := rfl
theorem amoCasW64 (d : BitVec 5) (a : BitVec 5) (b : BitVec 5) (g : BitVec 3) : Statement (.amoCasW64 d a b g) := rfl
theorem fence (g : BitVec 3) (s : BitVec 3) : Statement (.fence g s) := rfl
theorem fenceR (a : BitVec 5) (b : BitVec 5) (g : BitVec 3) (s : BitVec 3) : Statement (.fenceR a b g s) := rfl
theorem rld (d : BitVec 2) (a : BitVec 5) (b : BitVec 5) (g : BitVec 3) : Statement (.rld d a b g) := rfl
theorem setshapeV (d : BitVec 5) (a : BitVec 5) (b : BitVec 5) (g : BitVec 3) (n : BitVec 3) : Statement (.setshapeV d a b g n) := rfl
theorem setshapeM (d : BitVec 5) (a : BitVec 5) (b : BitVec 5) (g : BitVec 3) (n : BitVec 3) : Statement (.setshapeM d a b g n) := rfl
theorem asnap (d : BitVec 5) (a : BitVec 5) (b : BitVec 5) (g : BitVec 3) (n : BitVec 3) : Statement (.asnap d a b g n) := rfl
theorem tstat (d : BitVec 5) (g : BitVec 3) (n : BitVec 3) : Statement (.tstat d g n) := rfl
theorem swalloc (d : BitVec 5) (a : BitVec 5) (b : BitVec 5) (g : BitVec 3) : Statement (.swalloc d a b g) := rfl
theorem swfree (d : BitVec 5) (a : BitVec 5) (g : BitVec 3) : Statement (.swfree d a g) := rfl
theorem swquota (d : BitVec 5) (a : BitVec 5) (g : BitVec 3) : Statement (.swquota d a g) := rfl
theorem yield (i : BitVec 20) : Statement (.yield i) := rfl
theorem enqueuePrefix (e : BitVec 2) (w : BitVec 6) (k : BitVec 6) (t : BitVec 1) (a : BitVec 5) (b : BitVec 5) (w1 w2 : BitVec 32) : Statement (.enqueuePrefix e w k t a b w1 w2) := by
  show Stream.admits .access (word 0x80000000 [put e 23, put w 17, put k 11, put t 10, put a 5, put b 0] ++
    (if e = 0 then [] else if e = 3 && bit w1.toNat 20 then [w1, w2] else [w1])).length = true
  split
  · rfl
  · split <;> rfl
theorem trap (i : BitVec 20) : Statement (.trap i) := rfl
theorem rft (g : BitVec 3) : Statement (.rft g) := rfl
theorem endThread (g : BitVec 3) : Statement (.endThread g) := rfl
theorem csrr (d : BitVec 5) (g : BitVec 3) (c : BitVec 12) : Statement (.csrr d g c) := rfl
theorem csrw (a : BitVec 5) (g : BitVec 3) (c : BitVec 12) : Statement (.csrw a g c) := rfl
theorem resume (d : BitVec 5) (a : BitVec 5) (g : BitVec 3) : Statement (.resume d a g) := rfl
theorem qreset (d : BitVec 5) (a : BitVec 5) (g : BitVec 3) : Statement (.qreset d a g) := rfl
theorem tinvPg1 (a : BitVec 5) (g : BitVec 3) : Statement (.tinvPg1 a g) := rfl
theorem tinvRg1 (a : BitVec 5) (b : BitVec 5) (g : BitVec 3) : Statement (.tinvRg1 a b g) := rfl
theorem tinvAll1 (g : BitVec 3) : Statement (.tinvAll1 g) := rfl
theorem tinvPg2 (a : BitVec 5) (b : BitVec 5) (g : BitVec 3) : Statement (.tinvPg2 a b g) := rfl
theorem tinvRg2 (a : BitVec 5) (b : BitVec 5) (g : BitVec 3) : Statement (.tinvRg2 a b g) := rfl
theorem tinvAll2 (b : BitVec 5) (g : BitVec 3) : Statement (.tinvAll2 b g) := rfl
theorem einj (a : BitVec 5) (b : BitVec 5) (g : BitVec 3) : Statement (.einj a b g) := rfl
theorem takeIb (d : BitVec 5) (a : BitVec 5) (g : BitVec 3) : Statement (.takeIb d a g) := rfl
theorem commitIb (d : BitVec 5) (a : BitVec 5) (b : BitVec 5) (g : BitVec 3) : Statement (.commitIb d a b g) := rfl
theorem attest (d : BitVec 5) (a : BitVec 5) (b : BitVec 5) (g : BitVec 3) : Statement (.attest d a b g) := rfl
theorem vaddF32 (d : BitVec 6) (a : BitVec 6) (b : BitVec 6) (s : BitVec 3) (m : BitVec 3) (x : BitVec 2) : Statement (.vaddF32 d a b s m x) := rfl
theorem vsubF32 (d : BitVec 6) (a : BitVec 6) (b : BitVec 6) (s : BitVec 3) (m : BitVec 3) (x : BitVec 2) : Statement (.vsubF32 d a b s m x) := rfl
theorem vmulF32 (d : BitVec 6) (a : BitVec 6) (b : BitVec 6) (s : BitVec 3) (m : BitVec 3) (x : BitVec 2) : Statement (.vmulF32 d a b s m x) := rfl
theorem vfmaF32 (d : BitVec 6) (a : BitVec 6) (b : BitVec 6) (s : BitVec 3) (m : BitVec 3) (x : BitVec 2) : Statement (.vfmaF32 d a b s m x) := rfl
theorem vfmaF32TMultiplier (d : BitVec 6) (a : BitVec 6) (b : BitVec 6) (s : BitVec 3) (m : BitVec 3) (x : BitVec 2) : Statement (.vfmaF32TMultiplier d a b s m x) := rfl
theorem vminF32 (d : BitVec 6) (a : BitVec 6) (b : BitVec 6) (s : BitVec 3) (m : BitVec 3) : Statement (.vminF32 d a b s m) := rfl
theorem vmaxF32 (d : BitVec 6) (a : BitVec 6) (b : BitVec 6) (s : BitVec 3) (m : BitVec 3) : Statement (.vmaxF32 d a b s m) := rfl
theorem vabsF32 (d : BitVec 6) (a : BitVec 6) (s : BitVec 3) (m : BitVec 3) : Statement (.vabsF32 d a s m) := rfl
theorem vnegF32 (d : BitVec 6) (a : BitVec 6) (s : BitVec 3) (m : BitVec 3) : Statement (.vnegF32 d a s m) := rfl
theorem vcmpF32 (d : BitVec 6) (a : BitVec 6) (b : BitVec 6) (s : BitVec 3) (m : BitVec 3) (c : BitVec 2) : Statement (.vcmpF32 d a b s m c) := rfl
theorem vrcpF32 (d : BitVec 6) (a : BitVec 6) (s : BitVec 3) (m : BitVec 3) : Statement (.vrcpF32 d a s m) := rfl
theorem vrsqrtF32 (d : BitVec 6) (a : BitVec 6) (s : BitVec 3) (m : BitVec 3) : Statement (.vrsqrtF32 d a s m) := rfl
theorem vexp2F32 (d : BitVec 6) (a : BitVec 6) (s : BitVec 3) (m : BitVec 3) : Statement (.vexp2F32 d a s m) := rfl
theorem vlog2F32 (d : BitVec 6) (a : BitVec 6) (s : BitVec 3) (m : BitVec 3) : Statement (.vlog2F32 d a s m) := rfl
theorem vtanhF32 (d : BitVec 6) (a : BitVec 6) (s : BitVec 3) (m : BitVec 3) : Statement (.vtanhF32 d a s m) := rfl
theorem vaddInt (d : BitVec 6) (a : BitVec 6) (b : BitVec 6) (s : BitVec 3) (m : BitVec 3) (x : BitVec 2) : Statement (.vaddInt d a b s m x) := rfl
theorem vsubInt (d : BitVec 6) (a : BitVec 6) (b : BitVec 6) (s : BitVec 3) (m : BitVec 3) (x : BitVec 2) : Statement (.vsubInt d a b s m x) := rfl
theorem vmulInt (d : BitVec 6) (a : BitVec 6) (b : BitVec 6) (s : BitVec 3) (m : BitVec 3) (x : BitVec 2) : Statement (.vmulInt d a b s m x) := rfl
theorem vmulh (d : BitVec 6) (a : BitVec 6) (b : BitVec 6) (s : BitVec 3) (m : BitVec 3) (u : BitVec 1) : Statement (.vmulh d a b s m u) := rfl
theorem vminInt (d : BitVec 6) (a : BitVec 6) (b : BitVec 6) (s : BitVec 3) (m : BitVec 3) (u : BitVec 1) : Statement (.vminInt d a b s m u) := rfl
theorem vmaxInt (d : BitVec 6) (a : BitVec 6) (b : BitVec 6) (s : BitVec 3) (m : BitVec 3) (u : BitVec 1) : Statement (.vmaxInt d a b s m u) := rfl
theorem vabsInt (d : BitVec 6) (a : BitVec 6) (s : BitVec 3) (m : BitVec 3) : Statement (.vabsInt d a s m) := rfl
theorem vand (d : BitVec 6) (a : BitVec 6) (b : BitVec 6) (s : BitVec 3) (m : BitVec 3) : Statement (.vand d a b s m) := rfl
theorem vor (d : BitVec 6) (a : BitVec 6) (b : BitVec 6) (s : BitVec 3) (m : BitVec 3) : Statement (.vor d a b s m) := rfl
theorem vxor (d : BitVec 6) (a : BitVec 6) (b : BitVec 6) (s : BitVec 3) (m : BitVec 3) : Statement (.vxor d a b s m) := rfl
theorem vshl (d : BitVec 6) (a : BitVec 6) (b : BitVec 6) (s : BitVec 3) (m : BitVec 3) : Statement (.vshl d a b s m) := rfl
theorem vshr (d : BitVec 6) (a : BitVec 6) (b : BitVec 6) (s : BitVec 3) (m : BitVec 3) (u : BitVec 1) : Statement (.vshr d a b s m u) := rfl
theorem vcmpSigned (d : BitVec 6) (a : BitVec 6) (b : BitVec 6) (s : BitVec 3) (m : BitVec 3) (c : BitVec 2) : Statement (.vcmpSigned d a b s m c) := rfl
theorem vcmpUnsigned (d : BitVec 6) (a : BitVec 6) (b : BitVec 6) (s : BitVec 3) (m : BitVec 3) (c : BitVec 2) : Statement (.vcmpUnsigned d a b s m c) := rfl
theorem vsel (d : BitVec 6) (a : BitVec 6) (b : BitVec 6) (s : BitVec 3) (m : BitVec 3) : Statement (.vsel d a b s m) := rfl
theorem vmask (d : BitVec 6) (a : BitVec 6) (b : BitVec 6) (s : BitVec 3) (o : BitVec 2) : Statement (.vmask d a b s o) := rfl
theorem vmov (d : BitVec 6) (a : BitVec 6) (s : BitVec 3) (m : BitVec 3) : Statement (.vmov d a s m) := rfl
theorem vcvt (d : BitVec 6) (a : BitVec 6) (t : BitVec 6) (s : BitVec 3) (m : BitVec 3) (x : BitVec 2) : Statement (.vcvt d a t s m x) := rfl
theorem vcvtSat (d : BitVec 6) (a : BitVec 6) (t : BitVec 6) (s : BitVec 3) (m : BitVec 3) (x : BitVec 2) : Statement (.vcvtSat d a t s m x) := rfl
theorem vcvtFloatToInt (d : BitVec 6) (a : BitVec 6) (t : BitVec 6) (s : BitVec 3) (m : BitVec 3) (x : BitVec 2) : Statement (.vcvtFloatToInt d a t s m x) := rfl
theorem vcvtIntToFloat (d : BitVec 6) (a : BitVec 6) (t : BitVec 6) (s : BitVec 3) (m : BitVec 3) (x : BitVec 2) : Statement (.vcvtIntToFloat d a t s m x) := rfl
theorem vcvtIntToInt (d : BitVec 6) (a : BitVec 6) (t : BitVec 6) (s : BitVec 3) (m : BitVec 3) (x : BitVec 2) : Statement (.vcvtIntToInt d a t s m x) := rfl
theorem vbscale (d : BitVec 6) (a : BitVec 6) (f : BitVec 6) (s : BitVec 3) (x : BitVec 2) : Statement (.vbscale d a f s x) := rfl
theorem vquant (d : BitVec 6) (a : BitVec 6) (f : BitVec 6) (s : BitVec 3) (x : BitVec 2) : Statement (.vquant d a f s x) := rfl
theorem vredF32 (d : BitVec 6) (a : BitVec 6) (s : BitVec 3) (m : BitVec 3) (o : BitVec 2) : Statement (.vredF32 d a s m o) := rfl
theorem vredInt (d : BitVec 6) (a : BitVec 6) (u : BitVec 1) (s : BitVec 3) (m : BitVec 3) (o : BitVec 2) : Statement (.vredInt d a u s m o) := rfl
theorem vscanF32 (d : BitVec 6) (a : BitVec 6) (s : BitVec 3) (m : BitVec 3) (o : BitVec 2) : Statement (.vscanF32 d a s m o) := rfl
theorem vscanInt (d : BitVec 6) (a : BitVec 6) (u : BitVec 1) (s : BitVec 3) (m : BitVec 3) (o : BitVec 2) : Statement (.vscanInt d a u s m o) := rfl
theorem vperm (d : BitVec 6) (a : BitVec 6) (b : BitVec 6) (s : BitVec 3) (m : BitVec 3) : Statement (.vperm d a b s m) := rfl
theorem vrot (d : BitVec 6) (a : BitVec 6) (s : BitVec 3) (m : BitVec 3) : Statement (.vrot d a s m) := rfl
theorem viota (d : BitVec 6) (s : BitVec 3) (m : BitVec 3) : Statement (.viota d s m) := rfl
theorem vpart (d : BitVec 6) (a : BitVec 6) (b : BitVec 6) (s : BitVec 3) (m : BitVec 3) : Statement (.vpart d a b s m) := rfl
theorem vport (d : BitVec 6) (s : BitVec 3) : Statement (.vport d s) := rfl
theorem vportd (d : BitVec 6) (s : BitVec 3) : Statement (.vportd d s) := rfl
theorem vrep (n : BitVec 6) : Statement (.vrep n) := rfl
theorem vsplat (d : BitVec 6) (s : BitVec 3) (m : BitVec 3) (c : BitVec 2) : Statement (.vsplat d s m c) := rfl
theorem vnop : Statement .vnop := rfl
theorem mld (a : BitVec 3) (s : BitVec 3) (k : BitVec 1) : Statement (.mld a s k) := rfl
theorem mldt (a : BitVec 3) (s : BitVec 3) (k : BitVec 1) : Statement (.mldt a s k) := rfl
theorem mwld (a : BitVec 3) (s : BitVec 3) (k : BitVec 1) : Statement (.mwld a s k) := rfl
theorem mwldt (a : BitVec 3) (s : BitVec 3) (k : BitVec 1) : Statement (.mwldt a s k) := rfl
theorem mmulOvw (a : BitVec 3) (b : BitVec 3) (c : BitVec 3) (s : BitVec 3) (k : BitVec 1) : Statement (.mmulOvw a b c s k) := rfl
theorem mmulAcc (a : BitVec 3) (b : BitVec 3) (c : BitVec 3) (s : BitVec 3) (k : BitVec 1) : Statement (.mmulAcc a b c s k) := rfl
theorem mgangOvw (a : BitVec 3) (b : BitVec 3) (c : BitVec 3) (s : BitVec 3) (g : BitVec 3) (h : BitVec 3) (n : BitVec 7) (k : BitVec 1) : Statement (.mgangOvw a b c s g h n k) := rfl
theorem mgangAcc (a : BitVec 3) (b : BitVec 3) (c : BitVec 3) (s : BitVec 3) (g : BitVec 3) (h : BitVec 3) (n : BitVec 7) (k : BitVec 1) : Statement (.mgangAcc a b c s g h n k) := rfl
theorem mzero (c : BitVec 3) (s : BitVec 3) : Statement (.mzero c s) := rfl
theorem macc (b : BitVec 3) (c : BitVec 3) (s : BitVec 3) : Statement (.macc b c s) := rfl
theorem mldacc (c : BitVec 3) (s : BitVec 3) : Statement (.mldacc c s) := rfl
theorem mescale (c : BitVec 3) (s : BitVec 3) : Statement (.mescale c s) := rfl
theorem mescv (c : BitVec 3) (s : BitVec 3) : Statement (.mescv c s) := rfl
theorem mebias (c : BitVec 3) (s : BitVec 3) : Statement (.mebias c s) := rfl
theorem meact (c : BitVec 3) (s : BitVec 3) (f : BitVec 4) : Statement (.meact c s f) := rfl
theorem meclamp (c : BitVec 3) (s : BitVec 3) : Statement (.meclamp c s) := rfl
theorem mecvt (c : BitVec 3) (s : BitVec 3) (t : BitVec 1) (r : BitVec 2) (f : BitVec 5) : Statement (.mecvt c s t r f) := rfl
theorem mst (c : BitVec 3) (s : BitVec 3) (t : BitVec 1) (r : BitVec 2) (f : BitVec 5) : Statement (.mst c s t r f) := rfl
theorem mstn (c : BitVec 3) (s : BitVec 3) (t : BitVec 1) (r : BitVec 2) (f : BitVec 5) : Statement (.mstn c s t r f) := rfl
theorem msnap (c : BitVec 3) (s : BitVec 3) : Statement (.msnap c s) := rfl
theorem mstt (a : BitVec 3) (s : BitVec 3) : Statement (.mstt a s) := rfl
theorem mmov (a : BitVec 3) (b : BitVec 3) (s : BitVec 3) : Statement (.mmov a b s) := rfl
theorem mtr (a : BitVec 3) (b : BitVec 3) (s : BitVec 3) : Statement (.mtr a b s) := rfl
theorem mnop : Statement .mnop := rfl
theorem cldHbm (q : BitVec 1) (r : BitVec 1) (s : BitVec 3) (f : BitVec 1) (x : BitVec 20) : Statement (.cldHbm q r s f x) := rfl
theorem cstHbm (q : BitVec 1) (r : BitVec 1) (s : BitVec 3) (x : BitVec 20) : Statement (.cstHbm q r s x) := rfl
theorem cld2d (q : BitVec 1) (r : BitVec 1) (s : BitVec 3) (f : BitVec 1) (x : BitVec 20) : Statement (.cld2d q r s f x) := rfl
theorem cst2d (q : BitVec 1) (r : BitVec 1) (s : BitVec 3) (x : BitVec 20) : Statement (.cst2d q r s x) := rfl
theorem ccpy (q : BitVec 1) (r : BitVec 1) (s : BitVec 3) (x : BitVec 20) : Statement (.ccpy q r s x) := rfl
theorem ccvt (q : BitVec 1) (r : BitVec 1) (s : BitVec 3) (x : BitVec 20) : Statement (.ccvt q r s x) := rfl
theorem cgat (q : BitVec 1) (r : BitVec 1) (s : BitVec 3) (f : BitVec 1) (x : BitVec 20) : Statement (.cgat q r s f x) := rfl
theorem csct (q : BitVec 1) (r : BitVec 1) (s : BitVec 3) (x : BitVec 20) : Statement (.csct q r s x) := rfl
theorem cfill (q : BitVec 1) (r : BitVec 1) (s : BitVec 3) (x : BitVec 20) : Statement (.cfill q r s x) := rfl
theorem cfillSp (q : BitVec 1) (r : BitVec 1) (s : BitVec 3) (x : BitVec 20) : Statement (.cfillSp q r s x) := rfl
theorem ctag (q : BitVec 1) (r : BitVec 1) (s : BitVec 3) (x : BitVec 20) : Statement (.ctag q r s x) := rfl
theorem cpref (q : BitVec 1) (r : BitVec 1) (s : BitVec 3) (x : BitVec 20) : Statement (.cpref q r s x) := rfl
theorem cmovSp (q : BitVec 1) (r : BitVec 1) (s : BitVec 3) (f : BitVec 1) (x : BitVec 20) : Statement (.cmovSp q r s f x) := rfl
theorem cmst (q : BitVec 1) (r : BitVec 1) (s : BitVec 3) (x : BitVec 20) : Statement (.cmst q r s x) := rfl
theorem ckvSend (q : BitVec 1) (r : BitVec 1) (s : BitVec 3) : Statement (.ckvSend q r s) := rfl
theorem ckvPull (q : BitVec 1) (r : BitVec 1) (s : BitVec 3) (p : BitVec 1) : Statement (.ckvPull q r s p) := rfl
theorem ckvSync (q : BitVec 1) (r : BitVec 1) (s : BitVec 3) : Statement (.ckvSync q r s) := rfl
theorem cldSw (q : BitVec 1) (r : BitVec 1) (s : BitVec 3) (f : BitVec 1) (x : BitVec 20) : Statement (.cldSw q r s f x) := rfl
theorem cstSw (q : BitVec 1) (r : BitVec 1) (s : BitVec 3) (x : BitVec 20) : Statement (.cstSw q r s x) := rfl
theorem credInit (q : BitVec 1) (r : BitVec 1) (s : BitVec 3) (x : BitVec 20) : Statement (.credInit q r s x) := rfl
theorem credSw (q : BitVec 1) (r : BitVec 1) (s : BitVec 3) (x : BitVec 20) : Statement (.credSw q r s x) := rfl
theorem cldrSw (q : BitVec 1) (r : BitVec 1) (s : BitVec 3) (f : BitVec 1) (x : BitVec 20) : Statement (.cldrSw q r s f x) := rfl
theorem credDrop (q : BitVec 1) (r : BitVec 1) (s : BitVec 3) (b : BitVec 1) : Statement (.credDrop q r s b) := rfl
theorem cmstSw (q : BitVec 1) (r : BitVec 1) (s : BitVec 3) (x : BitVec 20) : Statement (.cmstSw q r s x) := rfl
theorem cbatAdd (q : BitVec 1) (r : BitVec 1) (s : BitVec 3) (x : BitVec 20) : Statement (.cbatAdd q r s x) := rfl
theorem cbatMin (q : BitVec 1) (r : BitVec 1) (s : BitVec 3) (x : BitVec 20) : Statement (.cbatMin q r s x) := rfl
theorem cbatMax (q : BitVec 1) (r : BitVec 1) (s : BitVec 3) (x : BitVec 20) : Statement (.cbatMax q r s x) := rfl
theorem cbatOr (q : BitVec 1) (r : BitVec 1) (s : BitVec 3) (x : BitVec 20) : Statement (.cbatOr q r s x) := rfl
theorem cbatXchg (q : BitVec 1) (r : BitVec 1) (s : BitVec 3) (x : BitVec 20) : Statement (.cbatXchg q r s x) := rfl
theorem cskInit (q : BitVec 1) (r : BitVec 1) (s : BitVec 3) (c : BitVec 1) : Statement (.cskInit q r s c) := rfl
theorem cskIns (q : BitVec 1) (r : BitVec 1) (s : BitVec 3) : Statement (.cskIns q r s) := rfl
theorem cskDel (q : BitVec 1) (r : BitVec 1) (s : BitVec 3) : Statement (.cskDel q r s) := rfl
theorem cskSend (q : BitVec 1) (r : BitVec 1) (s : BitVec 3) : Statement (.cskSend q r s) := rfl
theorem cskXchg (q : BitVec 1) (r : BitVec 1) (s : BitVec 3) : Statement (.cskXchg q r s) := rfl
theorem cskPeel (q : BitVec 1) (r : BitVec 1) (s : BitVec 3) : Statement (.cskPeel q r s) := rfl
theorem cskFetch (q : BitVec 1) (r : BitVec 1) (s : BitVec 3) (m : BitVec 1) : Statement (.cskFetch q r s m) := rfl
theorem cskRsz (q : BitVec 1) (r : BitVec 1) (s : BitVec 3) : Statement (.cskRsz q r s) := rfl
theorem cnop : Statement .cnop := rfl
theorem cfence (q : BitVec 1) (r : BitVec 1) (s : BitVec 3) : Statement (.cfence q r s) := rfl
theorem csig (q : BitVec 1) (r : BitVec 1) (s : BitVec 3) (k : BitVec 2) : Statement (.csig q r s k) := rfl
theorem invocationStart (node slice slot : Nat) : Statement (.invocationStart node slice slot) := rfl
theorem iterationDispatch (node slice : Nat) : Statement (.iterationDispatch node slice) := rfl
theorem threadStart (node core : Nat) : Statement (.threadStart node core) := rfl
theorem threadEnd (node core : Nat) : Statement (.threadEnd node core) := rfl
theorem copyNodeRetire (node slice slot n : Nat) : Statement (.copyNodeRetire node slice slot n) := rfl
theorem nodeCond (node slice slot n : Nat) : Statement (.nodeCond node slice slot n) := rfl
theorem nodeWhile (node slice slot n : Nat) : Statement (.nodeWhile node slice slot n) := rfl
theorem nodeNotify (node slice slot n : Nat) : Statement (.nodeNotify node slice slot n) := rfl
theorem invocationRetire (node slice slot : Nat) : Statement (.invocationRetire node slice slot) := rfl
theorem schedBoundary (node slice slot : Nat) : Statement (.schedBoundary node slice slot) := rfl
theorem packPlacementDone (node slice req : Nat) : Statement (.packPlacementDone node slice req) := rfl
theorem faultHandlerStart (node slice worker : Nat) : Statement (.faultHandlerStart node slice worker) := rfl
theorem watchdogExpire (node core : Nat) : Statement (.watchdogExpire node core) := rfl
theorem loadQueueFill (node core q idx : Nat) : Statement (.loadQueueFill node core q idx) := rfl
theorem gangPartArrive (node core member : Nat) : Statement (.gangPartArrive node core member) := rfl
theorem gangPartCommit (node core member : Nat) : Statement (.gangPartCommit node core member) := rfl
theorem fabricRequestReceive (src dst seq : Nat) : Statement (.fabricRequestReceive src dst seq) := rfl
theorem taggedWaitWithdrawal (node core : Nat) : Statement (.taggedWaitWithdrawal node core) := rfl
theorem retransmitTimeout (src dst seq : Nat) : Statement (.retransmitTimeout src dst seq) := rfl
theorem kvHalvesMatch (send pull : Nat) : Statement (.kvHalvesMatch send pull) := rfl
theorem reductionRoundTimeout (sw ctx : Nat) : Statement (.reductionRoundTimeout sw ctx) := rfl
theorem contextRestoreDone (node : Nat) : Statement (.contextRestoreDone node) := rfl
theorem kvPageLanded (pull page : Nat) : Statement (.kvPageLanded pull page) := rfl
theorem kvTransferTimeout (half : Nat) : Statement (.kvTransferTimeout half) := rfl
theorem kvTransferEnd (half code : Nat) : Statement (.kvTransferEnd half code) := rfl
theorem stopComplete (node slice : Nat) : Statement (.stopComplete node slice) := rfl
theorem contextSaveDone (node : Nat) : Statement (.contextSaveDone node) := rfl
theorem heldReleasePerform (dst src seq : Nat) : Statement (.heldReleasePerform dst src seq) := rfl
theorem commandMessage (node func ep host seq op len resv bytes : Nat) (tag : BitVec 64) (payload : List (BitVec 64)) : Statement (.commandMessage node func ep host seq op len resv bytes tag payload) := rfl
theorem slotLoad (node func idx : Nat) : Statement (.slotLoad node func idx) := rfl
theorem slotUnload (node func idx : Nat) : Statement (.slotUnload node func idx) := rfl
theorem slotQuery (node func idx : Nat) : Statement (.slotQuery node func idx) := rfl
theorem invoke (node func idx : Nat) : Statement (.invoke node func idx) := rfl
theorem schedSet (node func idx : Nat) : Statement (.schedSet node func idx) := rfl
theorem admitRequest (node func idx : Nat) : Statement (.admitRequest node func idx) := rfl
theorem cancel (node func idx : Nat) : Statement (.cancel node func idx) := rfl
theorem packRegister (node func idx : Nat) : Statement (.packRegister node func idx) := rfl
theorem packDrop (node func idx : Nat) : Statement (.packDrop node func idx) := rfl
theorem translationWalk (node core unit kind : Nat) (va : BitVec 64) : Statement (.translationWalk node core unit kind va) := rfl
theorem timedWaitTimeout (node core : Nat) : Statement (.timedWaitTimeout node core) := rfl
theorem bankPowerGate (node core bank : Nat) : Statement (.bankPowerGate node core bank) := rfl
theorem taggedRequestAtHome (node core : Nat) : Statement (.taggedRequestAtHome node core) := rfl
theorem routerAtomic (node core fn : Nat) (addr operand cmp : BitVec 64) : Statement (.routerAtomic node core fn addr operand cmp) := rfl
theorem packetResidencyDrop (src dst seq : Nat) : Statement (.packetResidencyDrop src dst seq) := rfl
theorem switchPortDownTimeout (sw node : Nat) : Statement (.switchPortDownTimeout sw node) := rfl
theorem switchDropNotice (src dst seq : Nat) : Statement (.switchDropNotice src dst seq) := rfl
theorem packageReset (node : Nat) : Statement (.packageReset node) := rfl
theorem linkReady (node link : Nat) : Statement (.linkReady node link) := rfl
theorem linkDown (node link : Nat) : Statement (.linkDown node link) := rfl
theorem rejoinQuietExpire (node : Nat) : Statement (.rejoinQuietExpire node) := rfl
theorem rejoinNotice (home src : Nat) : Statement (.rejoinNotice home src) := rfl
theorem rejoinAck (node src : Nat) : Statement (.rejoinAck node src) := rfl
theorem rejoinAckTimeout (node src : Nat) : Statement (.rejoinAckTimeout node src) := rfl
theorem probeFire (node router : Nat) : Statement (.probeFire node router) := rfl
theorem probeReturn (node router : Nat) : Statement (.probeReturn node router) := rfl
theorem switchFailureDeclare (node sw : Nat) : Statement (.switchFailureDeclare node sw) := rfl
theorem switchFailureNotice (node sw : Nat) : Statement (.switchFailureNotice node sw) := rfl
theorem mirrorAck (sw idx : Nat) : Statement (.mirrorAck sw idx) := rfl
theorem reductionContribution (node core : Nat) (form : Bool) (ctx capb : BitVec 64) (data : List Byte) : Statement (.reductionContribution node core form ctx capb data) := rfl
theorem reductionLoad (node core : Nat) (ctx capb : BitVec 64) : Statement (.reductionLoad node core ctx capb) := rfl
theorem d2dLinkFail (node pair : Nat) : Statement (.d2dLinkFail node pair) := rfl
theorem slbind (node : Nat) (v : BitVec 64) : Statement (.slbind node v) := rfl
theorem funcStore (node slice func : Nat) : Statement (.funcStore node slice func) := rfl
theorem preempt (node : Nat) (v : BitVec 64) : Statement (.preempt node v) := rfl
theorem freeze (node core : Nat) : Statement (.freeze node core) := rfl
theorem ctxopSave (node : Nat) (v : BitVec 64) : Statement (.ctxopSave node v) := rfl
theorem ctxopHold (node : Nat) (v : BitVec 64) : Statement (.ctxopHold node v) := rfl
theorem ctxopRestore (node : Nat) (v : BitVec 64) : Statement (.ctxopRestore node v) := rfl
theorem ctxopResume (node : Nat) (v : BitVec 64) : Statement (.ctxopResume node v) := rfl
theorem epbindDetach (node : Nat) (v : BitVec 64) : Statement (.epbindDetach node v) := rfl
theorem epbindAttach (node : Nat) (v : BitVec 64) : Statement (.epbindAttach node v) := rfl
theorem slfree (node : Nat) (v : BitVec 64) : Statement (.slfree node v) := rfl
theorem fnfree (node : Nat) (v : BitVec 64) : Statement (.fnfree node v) := rfl
theorem keyctlLoad (node : Nat) (v : BitVec 64) : Statement (.keyctlLoad node v) := rfl
theorem keyctlErase (node : Nat) (v : BitVec 64) : Statement (.keyctlErase node v) := rfl
theorem debugUnlock (node : Nat) (v : BitVec 64) : Statement (.debugUnlock node v) := rfl
theorem relbase (node : Nat) (v : BitVec 64) : Statement (.relbase node v) := rfl
theorem reltail (node : Nat) (v : BitVec 64) : Statement (.reltail node v) := rfl
theorem relovf (node : Nat) (v : BitVec 64) : Statement (.relovf node v) := rfl
theorem relhead (node core : Nat) (d : BitVec 5) : Statement (.relhead node core d) := rfl
theorem rstkbase (node core : Nat) (v : BitVec 64) : Statement (.rstkbase node core v) := rfl
theorem spdmMessage (node ep code : Nat) (param : BitVec 64) : Statement (.spdmMessage node ep code param) := rfl
theorem operatorCommand (node ep kind : Nat) (key : BitVec 256) (cseq : BitVec 64) (body : List (BitVec 64)) (sig : BitVec 512) : Statement (.operatorCommand node ep kind key cseq body sig) := rfl
theorem imageWrite (node ep : Nat) (key : BitVec 256) (cseq : BitVec 64) (hdr : BitVec 64) (image : List Byte) (sig : BitVec 512) : Statement (.imageWrite node ep key cseq hdr image sig) := rfl
theorem tenantKeyDelivery (node ep func : Nat) (key : BitVec 512) : Statement (.tenantKeyDelivery node ep func key) := rfl
theorem switchAttach (owner ofunc entry node func : Nat) (vbase : BitVec 64) : Statement (.switchAttach owner ofunc entry node func vbase) := rfl
theorem switchReadmit (node sw : Nat) : Statement (.switchReadmit node sw) := rfl
theorem readmitNotice (node sw : Nat) : Statement (.readmitNotice node sw) := rfl
theorem lockstepMismatch (node : Nat) : Statement (.lockstepMismatch node) := rfl
theorem workerTimeout (node worker : Nat) : Statement (.workerTimeout node worker) := rfl
theorem thermalThrottle (node die : Nat) : Statement (.thermalThrottle node die) := rfl
theorem powerThrottle (node die : Nat) : Statement (.powerThrottle node die) := rfl
theorem replyReceive (src dst seq : Nat) : Statement (.replyReceive src dst seq) := rfl
theorem patrolScrub (node : Nat) (line : BitVec 64) : Statement (.patrolScrub node line) := rfl
theorem lifecycleChange (node state : Nat) : Statement (.lifecycleChange node state) := rfl

end Laws.Words
end Sys2Proof
end

