-- ==== Sys2Proof/Tests/Slice0.lean ====
section
/-!
SUPPORT. Tests: the words of every row of the opcode table and of the encoding chapter decode to the instructions they stand for; ill-formed terms and
words are refused; examples that the spec works out; and, for every obligation with hypotheses, states and operands that meet them (the theorems wit_…,
each naming its obligation).
-/
open Sys2Proof Sys2Proof.Machine
namespace Sys2Proof.Tests
-- one proof at a time: each of the checker's threads takes a large stack
set_option Elab.async false

/-! ### Decoding: one word per constructor, put together from the opcode and the field places that the maps of the spec give -/

/-- Words of the access stream (R105 to R107, Tables 7.2 to 7.9). -/
theorem test_words_access_0 :
    decodeAccess 0x0254C980 0 0 = .ok (.addI64 5 9 18 3) ∧
    decodeAccess 0x0254C981 0 0 = .ok (.subI64 5 9 18 3) ∧
    decodeAccess 0x0254C982 0 0 = .ok (.mulI64 5 9 18 3) ∧
    decodeAccess 0x0254C983 0 0 = .ok (.mulhI64 5 9 18 3) ∧
    decodeAccess 0x0254C984 0 0 = .ok (.mulhW64 5 9 18 3) ∧
    decodeAccess 0x0254C985 0 0 = .ok (.divI64 5 9 18 3) ∧
    decodeAccess 0x0254C986 0 0 = .ok (.divW64 5 9 18 3) ∧
    decodeAccess 0x0254C987 0 0 = .ok (.remI64 5 9 18 3) ∧
    decodeAccess 0x0254C988 0 0 = .ok (.andW64 5 9 18 3) ∧
    decodeAccess 0x0254C989 0 0 = .ok (.orW64 5 9 18 3) ∧
    decodeAccess 0x0254C98A 0 0 = .ok (.xorW64 5 9 18 3) ∧
    decodeAccess 0x0254C98B 0 0 = .ok (.shlI64 5 9 18 3) ∧
    decodeAccess 0x0254C98C 0 0 = .ok (.shrW64 5 9 18 3) ∧
    decodeAccess 0x0254C98D 0 0 = .ok (.sraI64 5 9 18 3) ∧
    decodeAccess 0x0454C980 0 0 = .ok (.cmpEqI64 5 9 18 3) ∧
    decodeAccess 0x0454C981 0 0 = .ok (.cmpNeI64 5 9 18 3) :=
  ⟨rfl, rfl, rfl, rfl, rfl, rfl, rfl, rfl, rfl, rfl, rfl, rfl, rfl, rfl, rfl, rfl⟩

/-- Words of the access stream (R105 to R107, Tables 7.2 to 7.9). -/
theorem test_words_access_1 :
    decodeAccess 0x0454C982 0 0 = .ok (.cmpLtI64 5 9 18 3) ∧
    decodeAccess 0x0454C983 0 0 = .ok (.cmpGeI64 5 9 18 3) ∧
    decodeAccess 0x0454C984 0 0 = .ok (.cmpLtW64 5 9 18 3) ∧
    decodeAccess 0x0454C985 0 0 = .ok (.cmpGeW64 5 9 18 3) ∧
    decodeAccess 0x06508980 0 0 = .ok (.pand 5 1 2 3) ∧
    decodeAccess 0x06508981 0 0 = .ok (.por 5 1 2 3) ∧
    decodeAccess 0x06508982 0 0 = .ok (.pxor 5 1 2 3) ∧
    decodeAccess 0x06508983 0 0 = .ok (.pandn 5 1 2 3) ∧
    decodeAccess 0x06548184 0 0 = .ok (.pset 5 9 3) ∧
    decodeAccess 0x06508185 0 0 = .ok (.pget 5 1 3) ∧
    decodeAccess 0x1054B7A5 0 0 = .ok (.addiI64 5 9 3 1957) ∧
    decodeAccess 0x1254B7A5 0 0 = .ok (.andiW64 5 9 3 1957) ∧
    decodeAccess 0x1454B7A5 0 0 = .ok (.oriW64 5 9 3 1957) ∧
    decodeAccess 0x1654B7A5 0 0 = .ok (.xoriW64 5 9 3 1957) ∧
    decodeAccess 0x1854B025 0 0 = .ok (.shliI64 5 9 3 37) ∧
    decodeAccess 0x1A54B025 0 0 = .ok (.shriW64 5 9 3 37) :=
  ⟨rfl, rfl, rfl, rfl, rfl, rfl, rfl, rfl, rfl, rfl, rfl, rfl, rfl, rfl, rfl, rfl⟩

/-- Words of the access stream (R105 to R107, Tables 7.2 to 7.9). -/
theorem test_words_access_2 :
    decodeAccess 0x1C54B025 0 0 = .ok (.sraiI64 5 9 3 37) ∧
    decodeAccess 0x205ABCDE 0 0 = .ok (.li 5 703710) ∧
    decodeAccess 0x2454B7A5 0 0 = .ok (.lea 5 9 3 1957) ∧
    decodeAccess 0x2654B000 0 0 = .ok (.bxlen 5 9 3) ∧
    decodeAccess 0x30FFFFFC 0 0 = .ok (.br 3 1 2097148) ∧
    decodeAccess 0x32E15555 0 0 = .ok (.call 3 1 87381) ∧
    decodeAccess 0x34048180 0 0 = .ok (.jr 9 3) ∧
    decodeAccess 0x34000181 0 0 = .ok (.ret 3) ∧
    decodeAccess 0x3604B7A5 0 0 = .ok (.loop 9 3 1957) ∧
    decodeAccess 0x4054B7A5 0 0 = .ok (.ldW8 5 9 3 1957) ∧
    decodeAccess 0x4254B7A5 0 0 = .ok (.ldW16 5 9 3 1957) ∧
    decodeAccess 0x4454B7A5 0 0 = .ok (.ldW32 5 9 3 1957) ∧
    decodeAccess 0x4654B7A5 0 0 = .ok (.ldW64 5 9 3 1957) ∧
    decodeAccess 0x4854B7A5 0 0 = .ok (.ldI8 5 9 3 1957) ∧
    decodeAccess 0x4A54B7A5 0 0 = .ok (.ldI32 5 9 3 1957) ∧
    decodeAccess 0x5054B7A5 0 0 = .ok (.stW8 5 9 3 1957) :=
  ⟨rfl, rfl, rfl, rfl, rfl, rfl, rfl, rfl, rfl, rfl, rfl, rfl, rfl, rfl, rfl, rfl⟩

/-- Words of the access stream (R105 to R107, Tables 7.2 to 7.9). -/
theorem test_words_access_3 :
    decodeAccess 0x5254B7A5 0 0 = .ok (.stW16 5 9 3 1957) ∧
    decodeAccess 0x5454B7A5 0 0 = .ok (.stW32 5 9 3 1957) ∧
    decodeAccess 0x5654B7A5 0 0 = .ok (.stW64 5 9 3 1957) ∧
    decodeAccess 0x58548182 0 0 = .ok (.ldAcqW32 5 9 3 2) ∧
    decodeAccess 0x5854818A 0 0 = .ok (.ldAcqW64 5 9 3 2) ∧
    decodeAccess 0x5804C992 0 0 = .ok (.stRelW32 9 18 3 2) ∧
    decodeAccess 0x5804C99A 0 0 = .ok (.stRelW64 9 18 3 2) ∧
    decodeAccess 0x6182B000 0 0 = .ok (.waitTk 6 5 12) ∧
    decodeAccess 0x61A6B001 0 0 = .ok (.barWait 6 77 12) ∧
    decodeAccess 0x6184B0A2 0 0 = .ok (.ldwfW64 6 9 12 5) ∧
    decodeAccess 0x6184B0A3 0 0 = .ok (.stweW64 6 9 12 5) ∧
    decodeAccess 0x618130C4 0 0 = .ok (.pop 6 2 12 6) ∧
    decodeAccess 0x62028000 0 0 = .ok (.sigTk 5) ∧
    decodeAccess 0x62268001 0 0 = .ok (.barArrive 77) ∧
    decodeAccess 0x62028002 0 0 = .ok (.join 5) ∧
    decodeAccess 0x62028003 0 0 = .ok (.leave 5) :=
  ⟨rfl, rfl, rfl, rfl, rfl, rfl, rfl, rfl, rfl, rfl, rfl, rfl, rfl, rfl, rfl, rfl⟩

/-- Words of the access stream (R105 to R107, Tables 7.2 to 7.9). -/
theorem test_words_access_4 :
    decodeAccess 0x6854C980 0 0 = .ok (.amoAddW64 5 9 18 3) ∧
    decodeAccess 0x6854C981 0 0 = .ok (.amoMinI64 5 9 18 3) ∧
    decodeAccess 0x6854C982 0 0 = .ok (.amoMaxI64 5 9 18 3) ∧
    decodeAccess 0x6854C983 0 0 = .ok (.amoAndW64 5 9 18 3) ∧
    decodeAccess 0x6854C984 0 0 = .ok (.amoOrW64 5 9 18 3) ∧
    decodeAccess 0x6854C985 0 0 = .ok (.amoXorW64 5 9 18 3) ∧
    decodeAccess 0x6854C986 0 0 = .ok (.amoXchgW64 5 9 18 3) ∧
    decodeAccess 0x6854C987 0 0 = .ok (.amoCasW64 5 9 18 3) ∧
    decodeAccess 0x6C000182 0 0 = .ok (.fence 3 2) ∧
    decodeAccess 0x6C04C98A 0 0 = .ok (.fenceR 9 18 3 2) ∧
    decodeAccess 0x6E14C980 0 0 = .ok (.rld 1 9 18 3) ∧
    decodeAccess 0x7054C983 0 0 = .ok (.setshapeV 5 9 18 3 3) ∧
    decodeAccess 0x7054C98B 0 0 = .ok (.setshapeM 5 9 18 3 3) ∧
    decodeAccess 0x7444C983 0 0 = .ok (.asnap 4 9 18 3 3) ∧
    decodeAccess 0x7450018B 0 0 = .ok (.tstat 5 3 3) ∧
    decodeAccess 0x7854C980 0 0 = .ok (.swalloc 5 9 18 3) :=
  ⟨rfl, rfl, rfl, rfl, rfl, rfl, rfl, rfl, rfl, rfl, rfl, rfl, rfl, rfl, rfl, rfl⟩

/-- Words of the access stream (R105 to R107, Tables 7.2 to 7.9). -/
theorem test_words_access_5 :
    decodeAccess 0x78548181 0 0 = .ok (.swfree 5 9 3) ∧
    decodeAccess 0x78448182 0 0 = .ok (.swquota 4 9 3) ∧
    decodeAccess 0x7E012345 0 0 = .ok (.yield 74565) ∧
    decodeAccess 0xE0012345 0 0 = .ok (.trap 74565) ∧
    decodeAccess 0xE2000180 0 0 = .ok (.rft 3) ∧
    decodeAccess 0xE2000181 0 0 = .ok (.endThread 3) ∧
    decodeAccess 0xE4503034 0 0 = .ok (.csrr 5 3 52) ∧
    decodeAccess 0xE604B021 0 0 = .ok (.csrw 9 3 33) ∧
    decodeAccess 0xE8548180 0 0 = .ok (.resume 5 9 3) ∧
    decodeAccess 0xE8548181 0 0 = .ok (.qreset 5 9 3) ∧
    decodeAccess 0xE8048182 0 0 = .ok (.tinvPg1 9 3) ∧
    decodeAccess 0xE814C982 0 0 = .ok (.tinvRg1 9 18 3) ∧
    decodeAccess 0xE8200182 0 0 = .ok (.tinvAll1 3) ∧
    decodeAccess 0xE834C982 0 0 = .ok (.tinvPg2 9 18 3) ∧
    decodeAccess 0xE844C982 0 0 = .ok (.tinvRg2 9 18 3) ∧
    decodeAccess 0xE8504982 0 0 = .ok (.tinvAll2 18 3) :=
  ⟨rfl, rfl, rfl, rfl, rfl, rfl, rfl, rfl, rfl, rfl, rfl, rfl, rfl, rfl, rfl, rfl⟩

/-- Words of the access stream (R105 to R107, Tables 7.2 to 7.9). -/
theorem test_words_access_6 :
    decodeAccess 0xE804C983 0 0 = .ok (.einj 9 18 3) ∧
    decodeAccess 0xF8548180 0 0 = .ok (.takeIb 5 9 3) ∧
    decodeAccess 0xF854C981 0 0 = .ok (.commitIb 5 9 18 3) ∧
    decodeAccess 0xF854C982 0 0 = .ok (.attest 5 9 18 3) :=
  ⟨rfl, rfl, rfl, rfl⟩

/-- Words of the vector stream (R105 to R107, Tables 7.2 to 7.9). -/
theorem test_words_vector_0 :
    decodeVector 0x055297BA = .ok (.vaddF32 21 10 23 5 6 2) ∧
    decodeVector 0x095297BA = .ok (.vsubF32 21 10 23 5 6 2) ∧
    decodeVector 0x0D5297BA = .ok (.vmulF32 21 10 23 5 6 2) ∧
    decodeVector 0x115297BA = .ok (.vfmaF32 21 10 23 5 6 2) ∧
    decodeVector 0x155297BA = .ok (.vfmaF32TMultiplier 21 10 23 5 6 2) ∧
    decodeVector 0x195297B8 = .ok (.vminF32 21 10 23 5 6) ∧
    decodeVector 0x1D5297B8 = .ok (.vmaxF32 21 10 23 5 6) ∧
    decodeVector 0x215280B8 = .ok (.vabsF32 21 10 5 6) ∧
    decodeVector 0x255280B8 = .ok (.vnegF32 21 10 5 6) ∧
    decodeVector 0x285297BA = .ok (.vcmpF32 5 10 23 5 6 2) ∧
    decodeVector 0x2D5280B8 = .ok (.vrcpF32 21 10 5 6) ∧
    decodeVector 0x315280B8 = .ok (.vrsqrtF32 21 10 5 6) ∧
    decodeVector 0x355280B8 = .ok (.vexp2F32 21 10 5 6) ∧
    decodeVector 0x395280B8 = .ok (.vlog2F32 21 10 5 6) ∧
    decodeVector 0x3D5280B8 = .ok (.vtanhF32 21 10 5 6) ∧
    decodeVector 0x415297BA = .ok (.vaddInt 21 10 23 5 6 2) :=
  ⟨rfl, rfl, rfl, rfl, rfl, rfl, rfl, rfl, rfl, rfl, rfl, rfl, rfl, rfl, rfl, rfl⟩

/-- Words of the vector stream (R105 to R107, Tables 7.2 to 7.9). -/
theorem test_words_vector_1 :
    decodeVector 0x455297BA = .ok (.vsubInt 21 10 23 5 6 2) ∧
    decodeVector 0x495297BA = .ok (.vmulInt 21 10 23 5 6 2) ∧
    decodeVector 0x4D5297B9 = .ok (.vmulh 21 10 23 5 6 1) ∧
    decodeVector 0x515297B9 = .ok (.vminInt 21 10 23 5 6 1) ∧
    decodeVector 0x555297B9 = .ok (.vmaxInt 21 10 23 5 6 1) ∧
    decodeVector 0x595280B8 = .ok (.vabsInt 21 10 5 6) ∧
    decodeVector 0x5D5297B8 = .ok (.vand 21 10 23 5 6) ∧
    decodeVector 0x615297B8 = .ok (.vor 21 10 23 5 6) ∧
    decodeVector 0x655297B8 = .ok (.vxor 21 10 23 5 6) ∧
    decodeVector 0x695297B8 = .ok (.vshl 21 10 23 5 6) ∧
    decodeVector 0x6D5297B9 = .ok (.vshr 21 10 23 5 6 1) ∧
    decodeVector 0x705297BA = .ok (.vcmpSigned 5 10 23 5 6 2) ∧
    decodeVector 0x745297BA = .ok (.vcmpUnsigned 5 10 23 5 6 2) ∧
    decodeVector 0x795297B8 = .ok (.vsel 21 10 23 5 6) ∧
    decodeVector 0x7C50C6A1 = .ok (.vmask 5 3 6 5 1) ∧
    decodeVector 0x815280B8 = .ok (.vmov 21 10 5 6) :=
  ⟨rfl, rfl, rfl, rfl, rfl, rfl, rfl, rfl, rfl, rfl, rfl, rfl, rfl, rfl, rfl, rfl⟩

/-- Words of the vector stream (R105 to R107, Tables 7.2 to 7.9). -/
theorem test_words_vector_2 :
    decodeVector 0x85528ABA = .ok (.vcvt 21 10 10 5 6 2) ∧
    decodeVector 0x89528ABA = .ok (.vcvtSat 21 10 10 5 6 2) ∧
    decodeVector 0x8D5281BA = .ok (.vcvtFloatToInt 21 10 1 5 6 2) ∧
    decodeVector 0x915288BA = .ok (.vcvtIntToFloat 21 10 8 5 6 2) ∧
    decodeVector 0x95528ABA = .ok (.vcvtIntToInt 21 10 10 5 6 2) ∧
    decodeVector 0x995288A2 = .ok (.vbscale 21 10 8 5 2) ∧
    decodeVector 0x9D5288A2 = .ok (.vquant 21 10 8 5 2) ∧
    decodeVector 0xA15280BA = .ok (.vredF32 21 10 5 6 2) ∧
    decodeVector 0xA55281BA = .ok (.vredInt 21 10 1 5 6 2) ∧
    decodeVector 0xA95280BA = .ok (.vscanF32 21 10 5 6 2) ∧
    decodeVector 0xAD5281BA = .ok (.vscanInt 21 10 1 5 6 2) ∧
    decodeVector 0xB15297B8 = .ok (.vperm 21 10 23 5 6) ∧
    decodeVector 0xB55280B8 = .ok (.vrot 21 10 5 6) ∧
    decodeVector 0xB95000B8 = .ok (.viota 21 5 6) ∧
    decodeVector 0xBC8289B8 = .ok (.vpart 8 10 9 5 6) ∧
    decodeVector 0xC04000A0 = .ok (.vport 4 5) :=
  ⟨rfl, rfl, rfl, rfl, rfl, rfl, rfl, rfl, rfl, rfl, rfl, rfl, rfl, rfl, rfl, rfl⟩

/-- Words of the vector stream (R105 to R107, Tables 7.2 to 7.9). -/
theorem test_words_vector_3 :
    decodeVector 0xC49000A0 = .ok (.vportd 9 5) ∧
    decodeVector 0xC9100000 = .ok (.vrep 17) ∧
    decodeVector 0xCD5000B9 = .ok (.vsplat 21 5 6 1) ∧
    decodeVector 0xD0000000 = .ok .vnop :=
  ⟨rfl, rfl, rfl, rfl⟩

/-- Words of the matrix stream (R105 to R107, Tables 7.2 to 7.9). -/
theorem test_words_matrix_0 :
    decodeMatrix 0x0D020001 = .ok (.mld 5 4 1) ∧
    decodeMatrix 0x15020001 = .ok (.mldt 5 4 1) ∧
    decodeMatrix 0x1D020001 = .ok (.mwld 5 4 1) ∧
    decodeMatrix 0x25020001 = .ok (.mwldt 5 4 1) ∧
    decodeMatrix 0x2DCE0001 = .ok (.mmulOvw 5 6 3 4 1) ∧
    decodeMatrix 0x35CE0001 = .ok (.mmulAcc 5 6 3 4 1) ∧
    decodeMatrix 0x3DCE2F35 = .ok (.mgangOvw 5 6 3 4 2 7 77 1) ∧
    decodeMatrix 0x45CE2F35 = .ok (.mgangAcc 5 6 3 4 2 7 77 1) ∧
    decodeMatrix 0x480E0000 = .ok (.mzero 3 4) ∧
    decodeMatrix 0x50CE0000 = .ok (.macc 6 3 4) ∧
    decodeMatrix 0x580E0000 = .ok (.mldacc 3 4) ∧
    decodeMatrix 0x600E0000 = .ok (.mescale 3 4) ∧
    decodeMatrix 0x680E0000 = .ok (.mescv 3 4) ∧
    decodeMatrix 0x700E0000 = .ok (.mebias 3 4) ∧
    decodeMatrix 0x780E0002 = .ok (.meact 3 4 2) ∧
    decodeMatrix 0x800E0000 = .ok (.meclamp 3 4) :=
  ⟨rfl, rfl, rfl, rfl, rfl, rfl, rfl, rfl, rfl, rfl, rfl, rfl, rfl, rfl, rfl, rfl⟩

/-- Words of the matrix stream (R105 to R107, Tables 7.2 to 7.9). -/
theorem test_words_matrix_1 :
    decodeMatrix 0x880E00C1 = .ok (.mecvt 3 4 1 2 1) ∧
    decodeMatrix 0x900E00C1 = .ok (.mst 3 4 1 2 1) ∧
    decodeMatrix 0x980E00C1 = .ok (.mstn 3 4 1 2 1) ∧
    decodeMatrix 0xA00E0000 = .ok (.msnap 3 4) ∧
    decodeMatrix 0xAD020000 = .ok (.mstt 5 4) ∧
    decodeMatrix 0xB5C20000 = .ok (.mmov 5 6 4) ∧
    decodeMatrix 0xBDC20000 = .ok (.mtr 5 6 4) ∧
    decodeMatrix 0xC0000000 = .ok .mnop :=
  ⟨rfl, rfl, rfl, rfl, rfl, rfl, rfl, rfl⟩

/-- Words of the copy stream (R105 to R107, Tables 7.2 to 7.9). -/
theorem test_words_copy_0 :
    decodeCopy 0x05404105 = .ok (.cldHbm 0 1 2 0 16645) ∧
    decodeCopy 0x09404105 = .ok (.cstHbm 0 1 2 16645) ∧
    decodeCopy 0x0D404105 = .ok (.cld2d 0 1 2 0 16645) ∧
    decodeCopy 0x11404105 = .ok (.cst2d 0 1 2 16645) ∧
    decodeCopy 0x15404105 = .ok (.ccpy 0 1 2 16645) ∧
    decodeCopy 0x194041C1 = .ok (.ccvt 0 1 2 16833) ∧
    decodeCopy 0x1D404105 = .ok (.cgat 0 1 2 0 16645) ∧
    decodeCopy 0x21404105 = .ok (.csct 0 1 2 16645) ∧
    decodeCopy 0x25404105 = .ok (.cfill 0 1 2 16645) ∧
    decodeCopy 0x29404105 = .ok (.cfillSp 0 1 2 16645) ∧
    decodeCopy 0x2D404105 = .ok (.ctag 0 1 2 16645) ∧
    decodeCopy 0x31404105 = .ok (.cpref 0 1 2 16645) ∧
    decodeCopy 0x35404105 = .ok (.cmovSp 0 1 2 0 16645) ∧
    decodeCopy 0x39404105 = .ok (.cmst 0 1 2 16645) ∧
    decodeCopy 0x3D400000 = .ok (.ckvSend 0 1 2) ∧
    decodeCopy 0x41400000 = .ok (.ckvPull 0 1 2 0) :=
  ⟨rfl, rfl, rfl, rfl, rfl, rfl, rfl, rfl, rfl, rfl, rfl, rfl, rfl, rfl, rfl, rfl⟩

/-- Words of the copy stream (R105 to R107, Tables 7.2 to 7.9). -/
theorem test_words_copy_1 :
    decodeCopy 0x45400000 = .ok (.ckvSync 0 1 2) ∧
    decodeCopy 0x49404105 = .ok (.cldSw 0 1 2 0 16645) ∧
    decodeCopy 0x4D404105 = .ok (.cstSw 0 1 2 16645) ∧
    decodeCopy 0x51410805 = .ok (.credInit 0 1 2 67589) ∧
    decodeCopy 0x55404105 = .ok (.credSw 0 1 2 16645) ∧
    decodeCopy 0x59404105 = .ok (.cldrSw 0 1 2 0 16645) ∧
    decodeCopy 0x5D400000 = .ok (.credDrop 0 1 2 0) ∧
    decodeCopy 0x61404105 = .ok (.cmstSw 0 1 2 16645) ∧
    decodeCopy 0x65404105 = .ok (.cbatAdd 0 1 2 16645) ∧
    decodeCopy 0x69404105 = .ok (.cbatMin 0 1 2 16645) ∧
    decodeCopy 0x6D404105 = .ok (.cbatMax 0 1 2 16645) ∧
    decodeCopy 0x71404105 = .ok (.cbatOr 0 1 2 16645) ∧
    decodeCopy 0x75404105 = .ok (.cbatXchg 0 1 2 16645) ∧
    decodeCopy 0x79400001 = .ok (.cskInit 0 1 2 1) ∧
    decodeCopy 0x7D400000 = .ok (.cskIns 0 1 2) ∧
    decodeCopy 0x81400000 = .ok (.cskDel 0 1 2) :=
  ⟨rfl, rfl, rfl, rfl, rfl, rfl, rfl, rfl, rfl, rfl, rfl, rfl, rfl, rfl, rfl, rfl⟩

/-- Words of the copy stream (R105 to R107, Tables 7.2 to 7.9). -/
theorem test_words_copy_2 :
    decodeCopy 0x85400000 = .ok (.cskSend 0 1 2) ∧
    decodeCopy 0x89400000 = .ok (.cskXchg 0 1 2) ∧
    decodeCopy 0x8D400000 = .ok (.cskPeel 0 1 2) ∧
    decodeCopy 0x91400001 = .ok (.cskFetch 0 1 2 1) ∧
    decodeCopy 0x95400000 = .ok (.cskRsz 0 1 2) ∧
    decodeCopy 0x98000000 = .ok .cnop ∧
    decodeCopy 0x9D400000 = .ok (.cfence 0 1 2) ∧
    decodeCopy 0xA1400001 = .ok (.csig 0 1 2 1) :=
  ⟨rfl, rfl, rfl, rfl, rfl, rfl, rfl, rfl⟩

/-- Words that the spec writes out with the assembly they stand for: chapters 3, 7, 8, 14, 21, 23 and 24. -/
theorem test_words_of_the_chapters :
    decodeTableWord 32 0x60C130C4 = some (.pop 3 2 12 6) ∧ decodeTableWord 32 0xE6008020 = some (.csrw 1 0 0x020) ∧
    decodeTableWord 32 0x32000002 = some (.call 0 0 2) ∧ decodeTableWord 32 0x321FFFFC = some (.call 0 0 0x1FFFFC) ∧
    decodeTableWord 32 0x6080E000 = some (.waitTk 2 1 24) ∧ decodeTableWord 32 0x60C2B001 = some (.barWait 3 5 12) ∧
    decodeTableWord 32 0x6102B0E3 = some (.stweW64 4 5 12 7) ∧ decodeTableWord 32 0x62020000 = some (.sigTk 4) ∧
    decodeTableWord 32 0x62028001 = some (.barArrive 5) ∧ decodeTableWord 32 0x62018002 = some (.join 3) ∧
    decodeTableWord 32 0x62018003 = some (.leave 3) ∧ decodeTableWord 32 0x68429807 = some (.amoCasW64 4 5 6 0) ∧
    decodeTableWord 32 0x6C000003 = some (.fence 0 3) ∧ decodeTableWord 32 0x6C029809 = some (.fenceR 5 6 0 1) ∧
    decodeTableWord 32 0x7E001000 = some (.yield 0x1000) ∧ decodeTableWord 32 0x78429800 = some (.swalloc 4 5 6 0) ∧
    decodeTableWord 32 0x78428002 = some (.swquota 4 5 0) ∧ decodeTableWord 32 0xF8530000 = some (.takeIb 5 6 0) ∧
    decodeTableWord 32 0xF872A001 = some (.commitIb 7 5 8 0) ∧ decodeTableWord 32 0xF8531C02 = some (.attest 5 6 7 0) ∧
    decodeTableWord 32 0xE6028104 = some (.csrw 5 0 0x104) ∧ decodeTableWord 32 0xE6028108 = some (.csrw 5 0 0x108) :=
  ⟨rfl, rfl, rfl, rfl, rfl, rfl, rfl, rfl, rfl, rfl, rfl, rfl, rfl, rfl, rfl, rfl, rfl, rfl, rfl, rfl, rfl, rfl⟩

/-- Engine words that chapters 9 to 12 write out. -/
theorem test_words_of_the_engine_chapters :
    decodeVector 0x28103C42 = .ok (.vcmpF32 1 0 0x3C 2 0 2) ∧ decodeVector 0xBC880944 = .ok (.vpart 8 0x20 9 2 1) ∧
    decodeVector 0xC8200000 = .ok (.vrep 2) ∧ decodeMatrix 0x08018000 = .ok (.mld 0 3 0) ∧ decodeMatrix 0x19018000 = .ok (.mwld 1 3 0) ∧
    decodeMatrix 0x28298001 = .ok (.mmulOvw 0 1 2 3 1) ∧ decodeMatrix 0xA0098000 = .ok (.msnap 2 3) ∧
    decodeCopy 0x09404100 = .ok (.cstHbm 0 1 2 0x4100) ∧ decodeCopy 0x04102000 = .ok (.cldHbm 0 0 0 1 0x2000) :=
  ⟨rfl, rfl, rfl, rfl, rfl, rfl, rfl, rfl, rfl⟩

/-- Pushes that chapters 12 and 7 write out: a prefix with its engine word, one with a follow-on word, one that names no engine. -/
theorem test_words_of_pushes :
    decodeAccess 0x8180014B 0x04102000 0x19000000 = .ok (.enqueuePrefix 3 0 0 0 10 11 0x04102000 0x19000000) ∧
    decodeAccess 0x81840358 0x09404100 0 = .ok (.enqueuePrefix 3 2 0 0 26 24 0x09404100 0) ∧
    decodeAccess 0x81000540 0x08018000 0 = .ok (.enqueuePrefix 2 0 0 1 10 0 0x08018000 0) ∧
    decodeAccess 0x80000000 0 0 = .ok (.enqueuePrefix 0 0 0 0 0 0 0 0) :=
  ⟨rfl, rfl, rfl, rfl⟩

/-- R109: a reserved opcode, a reserved field, a variant, a range, an illegal bank (0x08, the rule's example) and an engine word's
reserved field are named, each by its cause. -/
theorem test_encoding_causes :
    (decodeAccess 0x00000000 0 0).isOk = false ∧ decodeAccess 0x02421880 0 0 = .ok (.addI64 4 4 6 1) ∧
    decodeAccess 0x18000040 0 0 = .error .accessField ∧ decodeAccess 0x04800000 0 0 = .error .range ∧
    decodeVector 0x04008420 = .error .bank ∧ EncCause.bank.code = 0x08 ∧ EncCause.accessField.code = 0x02 ∧ EncCause.range.code = 0x03 :=
  ⟨rfl, rfl, rfl, rfl, rfl, rfl, rfl, rfl⟩

/-! ### Well-formedness: an ill-formed term for each check -/

/-- R105, R107: destinations and sources that no table lists, and two registers of one bank. -/
theorem test_wf_vector_two_sources :
    (([fun d a b => .vaddF32 d a b 0 0 0, fun d a b => .vsubF32 d a b 0 0 0, fun d a b => .vmulF32 d a b 0 0 0,
        fun d a b => .vfmaF32 d a b 0 0 0, fun d a b => .vfmaF32TMultiplier d a b 0 0 0, fun d a b => .vminF32 d a b 0 0,
        fun d a b => .vmaxF32 d a b 0 0, fun d a b => .vaddInt d a b 0 0 0, fun d a b => .vsubInt d a b 0 0 0, fun d a b => .vmulInt d a b 0 0 0,
        fun d a b => .vmulh d a b 0 0 0, fun d a b => .vminInt d a b 0 0 0, fun d a b => .vmaxInt d a b 0 0 0, fun d a b => .vand d a b 0 0,
        fun d a b => .vor d a b 0 0, fun d a b => .vxor d a b 0 0, fun d a b => .vshl d a b 0 0, fun d a b => .vshr d a b 0 0 0,
        fun d a b => .vsel d a b 0 0, fun d a b => .vperm d a b 0 0] : List (BitVec 6 → BitVec 6 → BitVec 6 → Instr)).all fun f =>
      (f 0 0 1).wf && (f 0x33 0x3C 0x39).wf && !(f 0x34 0 1).wf && !(f 0x20 0 1).wf && !(f 0 0x3A 1).wf && !(f 0 0 0x3D).wf && !(f 0 2 4).wf) = true := by
  decide +kernel

/-- The same of the forms of one source. -/
theorem test_wf_vector_one_source :
    (([fun d a => .vabsF32 d a 0 0, fun d a => .vnegF32 d a 0 0, fun d a => .vrcpF32 d a 0 0, fun d a => .vrsqrtF32 d a 0 0,
        fun d a => .vexp2F32 d a 0 0, fun d a => .vlog2F32 d a 0 0, fun d a => .vtanhF32 d a 0 0, fun d a => .vabsInt d a 0 0, fun d a => .vmov d a 0 0,
        fun d a => .vcvt d a 0x0A 0 0 0, fun d a => .vcvtSat d a 0x0A 0 0 0, fun d a => .vcvtFloatToInt d a 1 0 0 0,
        fun d a => .vcvtIntToFloat d a 8 0 0 0, fun d a => .vcvtIntToInt d a 0x0A 0 0 0, fun d a => .vbscale d a 8 0 0,
        fun d a => .vquant d a 8 0 0, fun d a => .vredF32 d a 0 0 0, fun d a => .vredInt d a 0 0 0 0, fun d a => .vscanF32 d a 0 0 0,
        fun d a => .vscanInt d a 0 0 0 0, fun d a => .vrot d a 0 0] : List (BitVec 6 → BitVec 6 → Instr)).all fun f =>
      (f 0 0).wf && (f 0x3F 0x38).wf && !(f 0x34 0).wf && !(f 0x20 0).wf && !(f 0 0x3A).wf && !(f 0 0x3D).wf) = true := by decide +kernel

/-- Masks, conversions, blocks, reductions, ports, repeats: a field out of its range. -/
theorem test_wf_vector_fields :
    ([Instr.vcmpF32 0 0 1 0 0 0, .vcmpF32 8 0 1 0 0 0, .vcmpF32 1 0 2 0 0 0, .vcmpF32 1 0x3A 1 0 0 0, .vcmpSigned 0 0 1 0 0 0, .vcmpSigned 8 0 1 0 0 0,
      .vcmpSigned 1 0 2 0 0 0, .vcmpUnsigned 0 0 1 0 0 0, .vcmpUnsigned 8 0 1 0 0 0, .vcmpUnsigned 1 2 4 0 0 0, .vmask 0 1 2 0 0,
      .vmask 8 1 2 0 0, .vmask 1 8 2 0 0, .vmask 1 1 8 0 0, .vcvt 0 0 0x09 0 0 0, .vcvt 0 0 0x30 0 0 0, .vcvtSat 0 0 0x36 0 0 0, .vcvtFloatToInt 0 0 0x28 0 0 0,
      .vcvtIntToFloat 0 0 0x05 0 0 0, .vcvtIntToInt 0 0 0x09 0 0 0, .vbscale 0 0 1 0 0, .vquant 0 0 0x0B 0 0, .vredF32 0 0 0 0 3, .vscanF32 0 0 0 0 3,
      .viota 0x34 0 0, .vpart 7 0 9 0 1, .vpart 12 0 9 0 1, .vpart 8 0 7 0 1, .vpart 8 0 12 0 1, .vpart 8 0x3A 9 0 1, .vpart 8 0 9 0 0, .vport 12 0,
      .vportd 12 0, .vrep 0, .vsplat 0x34 0 0 0, .vsplat 0 0 0 2].all fun i => !i.wf) = true := by decide +kernel

/-- The access stream. -/
theorem test_wf_access :
    ([Instr.loop 0 0 0, .ldAcqW32 0 0 0 5, .ldAcqW64 0 0 0 5, .stRelW32 0 0 0 5, .stRelW64 0 0 0 5, .waitTk 0 0 0, .waitTk 0 64 0, .pop 0 4 0 0,
      .sigTk 0, .sigTk 64, .join 64, .leave 64, .fence 0 5, .fenceR 0 0 0 5, .setshapeM 0 30 0 0 0, .asnap 0 0 0 0 0, .asnap 31 0 0 0 0,
      .swquota 0 0 0, .swquota 31 0 0, .enqueuePrefix 0 0 0 0 0 0 1 0, .enqueuePrefix 0 0 0 0 0 0 0 1, .enqueuePrefix 1 0 0 0 0 0 0 1,
      .enqueuePrefix 3 0 0 0 0 0 0 1].all fun i => !i.wf) = true := by decide +kernel

/-- The matrix and the copy stream. -/
theorem test_wf_matrix_and_copy :
    ([Instr.meact 0 0 4, .mecvt 0 0 0 0 0, .mecvt 0 0 0 0 5, .mst 0 0 0 0 0, .mst 0 0 1 0 0x14, .mstn 0 0 0 0 0x07, .mstn 0 0 1 0 5,
      .ccpy 0 0 0 0, .ccvt 0 0 0 1, .ccvt 0 0 0 0x105, .cfill 0 0 0 0, .cpref 0 0 0 0, .credInit 0 0 0 0x10801, .credInit 0 0 0 0x40802,
      .credInit 0 0 0 0x10002, .credInit 0 0 0 0x10902, .credInit 0 0 0 0x1AC02, .credInit 0 0 0 0x10891, .csig 0 0 0 2].all fun i => !i.wf) = true := by
  decide +kernel

/-- R114: a scope without its acquire or release bit, a scope above 4, and a scratchpad field above the scratchpad. -/
theorem test_wf_copy_scope :
    (([fun q r s => .cldHbm q r s 0 1, fun q r s => .cstHbm q r s 1, fun q r s => .cld2d q r s 0 1, fun q r s => .cst2d q r s 1, fun q r s => .ccpy q r s 1,
        fun q r s => .ccvt q r s 0x101, fun q r s => .cgat q r s 0 1, fun q r s => .csct q r s 1, fun q r s => .cfill q r s 1, fun q r s => .cfillSp q r s 1,
        fun q r s => .ctag q r s 1, fun q r s => .cpref q r s 1, fun q r s => .cmovSp q r s 0 1, fun q r s => .cmst q r s 1, fun q r s => .ckvSend q r s,
        fun q r s => .ckvPull q r s 0, fun q r s => .ckvSync q r s, fun q r s => .cldSw q r s 0 1, fun q r s => .cstSw q r s 1,
        fun q r s => .credInit q r s 0x10802, fun q r s => .credSw q r s 1, fun q r s => .cldrSw q r s 0 1, fun q r s => .credDrop q r s 0,
        fun q r s => .cmstSw q r s 1, fun q r s => .cbatAdd q r s 1, fun q r s => .cbatMin q r s 1, fun q r s => .cbatMax q r s 1,
        fun q r s => .cbatOr q r s 1, fun q r s => .cbatXchg q r s 1, fun q r s => .cskInit q r s 0, fun q r s => .cskIns q r s, fun q r s => .cskDel q r s,
        fun q r s => .cskSend q r s, fun q r s => .cskXchg q r s, fun q r s => .cskPeel q r s, fun q r s => .cskFetch q r s 0, fun q r s => .cskRsz q r s,
        fun q r s => .cfence q r s, fun q r s => .csig q r s 0] : List (BitVec 1 → BitVec 1 → BitVec 3 → Instr)).all fun f =>
      (f 0 0 0).wf && (f 1 0 4).wf && (f 0 1 2).wf && !(f 0 0 1).wf && !(f 1 1 5).wf) = true ∧
    (([.cldHbm 0 0 0 0, .cstHbm 0 0 0, .cld2d 0 0 0 0, .cst2d 0 0 0, .cgat 0 0 0 0, .csct 0 0 0, .cfillSp 0 0 0, .ctag 0 0 0, .cmovSp 0 0 0 0, .cmst 0 0 0,
        .cldSw 0 0 0 0, .cstSw 0 0 0, .credSw 0 0 0, .cldrSw 0 0 0 0, .cmstSw 0 0 0, .cbatAdd 0 0 0, .cbatMin 0 0 0, .cbatMax 0 0 0, .cbatOr 0 0 0,
        .cbatXchg 0 0 0] : List (BitVec 20 → Instr)).all fun f => (f 0xBFFFF).wf && !(f 0xC0000).wf) = true := by decide +kernel

/-! ### Small states -/

/-- Scalar registers with these values, the others 0. -/
def regs (l : Tab W64) : Vector W64 32 := Vector.ofFn fun i => Tab.getD l i.val 0

/-- Predicate registers with these values, p0 being 1. -/
def preds (l : List Nat) : Vector Bool 8 := Vector.ofFn fun i => i.val == 0 || l.contains i.val

/-- Memory with these 8-byte words. -/
def words (l : List (Nat × W64)) : Memory := l.foldl (fun m x => m.write x.1 (wordBytes x.2)) []

/-- A state in which one core acts. -/
def one (ck : Nat) (c : Core) : State := { State.reset with cur := ck, cores := [(ck, c)] }

/-- A worker core of package 0, which works at physical addresses (R58). -/
def fwCore (l : Tab W64) : Core := { run := .running, pc := 0x1000, tvec := 0x2000, s := regs l }
def fw (l : Tab W64) : State := one 145 (fwCore l)

/-- The Handle of package 0. -/
def handle (l : Tab W64) : State := one 144 (fwCore l)

/-- A thread of slice 0 on core 0 of package 0, the slice being bound with quad 0. -/
def thCore (l : Tab W64) : Core := { fwCore l with slice := some 0, slcore := 0 }
def record0 : List (Nat × W64) := []
def th (c : Core) : State := { one 0 c with slices := [(0, { bound := true })] }

/-! ### How a hypothesis about a part of an instruction is met -/

def okAnd {α : Type} (r : Res α) (p : α → State → Bool) : Bool :=
  match r with
  | .ok a s => p a s
  | .stop _ => false

theorem okAnd_spec {α : Type} {r : Res α} {p : α → State → Bool} (h : okAnd r p = true) : ∃ a s, r = .ok a s ∧ p a s = true := by
  cases r with
  | ok a s => exact ⟨a, s, rfl, h⟩
  | stop s => cases h

def plainB (s : State) (pg : Page) (n acc : Nat) : Bool :=
  s.homeRefuses (s.party s.cur) pg.pa n acc pg.enc == none && s.raceAt s.cur pg n == none && pg.pa / 2 ^ 48 == s.node &&
  (match region pg.pa with | .control _ _ => false | _ => true) && pg.alt == none && s.enc.get? (pg.pa / 64) == s.keyOf pg &&
  decide (pg.pa % 64 + n ≤ 64) && s.poison == [] && s.soft == [] && s.me.upsets == []

theorem notControl_of {x : Nat} (h : (match region x with | .control _ _ => false | _ => true) = true) : ∀ m o, region x ≠ .control m o := by
  intro m o e; rw [e] at h; cases h

theorem plain_of {s : State} {pg : Page} {n acc : Nat} (h : plainB s pg n acc = true) : PlainAccess s pg n acc := by
  simp only [plainB, Bool.and_eq_true, beq_iff_eq, decide_eq_true_eq] at h
  obtain ⟨⟨⟨⟨⟨⟨⟨⟨⟨a, b⟩, c⟩, d⟩, e⟩, f⟩, g⟩, i⟩, j⟩, k⟩ := h
  exact ⟨a, b, c, notControl_of d, e, f, g, ⟨i, j⟩, k⟩

theorem healthy_of {s : State} (n : Nat) (h : s.me.upsets = []) : s.Healthy n := by
  intro u e; rw [h] at e; cases e

theorem isOk_spec {α : Type} {r : Res α} (h : okAnd r (fun _ _ => true) = true) : ∃ a s, r = .ok a s := by
  have ⟨a, s, e, _⟩ := okAnd_spec h; exact ⟨a, s, e⟩

theorem okP {α : Type} {r : Res α} {P : α → State → Prop} (p : α → State → Bool) (hp : ∀ a s, p a s = true → P a s) (h : okAnd r p = true) :
    ∃ a s, r = .ok a s ∧ P a s := by
  have ⟨a, s, e, q⟩ := okAnd_spec h; exact ⟨a, s, e, hp a s q⟩

def invB (s : State) : Bool := s.mem.wf && NSet.sorted s.tags

theorem inv_of {s : State} (h : invB s = true) : s.Inv := by
  simp only [invB, Bool.and_eq_true] at h; exact h

def canTrapB (s : State) : Bool := !s.me.trapH && decide (s.me.tvec ≠ 0) && decide (s.me.tvec.toNat % 4 = 0)

theorem canTrap_of {s : State} (h : canTrapB s = true) : s.CanTrap := by
  simp only [canTrapB, Bool.and_eq_true, Bool.not_eq_true', decide_eq_true_eq] at h; exact ⟨h.1.1, h.1.2, h.2⟩

/-- Tables of two pages of 1 GiB (Tables 5.2, 5.3): input addresses are those of channel 0, in format f, the second page being one of a
sparse-update set; slice 0 has quad 0, channel 0, function 1 and error injection enabled. -/
def tables (f : Nat) : List (Nat × W64) :=
  [(0x1000, 0x2003), (0x2000, BitVec.ofNat 64 (f * 2 ^ 59 + 0x020000000000001D)), (0x2008, 0x020000004000001D), (0x3000, 0x4003), (0x4000, 0x1D),
   (0x4008, 0x000200004000001D),
   (ctl 0 0x10000, BitVec.ofNat 64 (2 ^ 58 + 2 ^ 16)), (ctl 0 0x10008, 1), (ctl 0 0x10030, 0x1000), (ctl 0 0x10038, 0x1000000)]

/-- A state in which the thread of core 0 works in that slice, with these further words of memory. -/
def mapped (f : Nat) (more : List (Nat × W64)) (c : Core) : State :=
  { one 0 c with mem := words (tables f ++ more), slices := [(0, { bound := true, s1root := 0x3000 })] }

/-! ### The hypotheses of the obligations can be met -/

/-- RegisterArithmeticWritesItsResult. -/
theorem wit_registerArithmetic : (fw []).pred 0 = true ∧ (fw []).Healthy 1 := ⟨rfl, healthy_of 1 rfl⟩

/-- ImmediateFormsWriteTheirResult: a guard, and a shift amount above 63. -/
theorem wit_immediateForms : (fw []).pred 0 = true ∧ (fw []).Healthy 1 ∧
    ((0x18000040 : W32).toNat / 2 ^ 25 ∈ [0x0C, 0x0D, 0x0E] ∧ (0x18000040 : W32).toNat / 64 % 64 ≠ 0) :=
  ⟨rfl, healthy_of 1 rfl, by decide, by decide⟩

/-- ComparesWriteOnePredicate: a guard, and a predicate field above 7. -/
theorem wit_compares : (fw []).pred 0 = true ∧
    (0x04800000 : W32).toNat / 2 ^ 25 = 0x02 ∧ (0x04800000 : W32).toNat % 128 ≤ 5 ∧ (0x04800000 : W32).toNat / 2 ^ 23 % 4 ≠ 0 :=
  ⟨rfl, by decide, by decide, by decide⟩

/-- FalseGuardHasNoEffect. -/
theorem wit_falseGuard : (Instr.addI64 1 1 1 1).guard = some 1 ∧ (fw []).pred 1 = false := ⟨rfl, rfl⟩

/-- ResidueDivergenceTraps: an upset that turns over bit 0, which the residue shows, and one that adds 3, which it does not. -/
def faulty (flip : W64) : State := one 145 { fwCore [] with upsets := [{ unit := 1, lane := 0, flip := flip, parity := false }] }
theorem wit_residue (flip : W64) : (faulty flip).pred 0 = true ∧ (faulty flip).me.upsets = { unit := 1, lane := 0, flip := flip, parity := false } :: [] ∧
    ((1 : W64) + 1).toNat % 3 ≠ (1 : W64).toNat % 3 ∧ ((1 : W64) + 3).toNat % 3 = (1 : W64).toNat % 3 ∧ (faulty flip).CanTrap ∧ (faulty flip).Inv :=
  ⟨rfl, rfl, by decide +kernel, by decide +kernel, ⟨rfl, by show (0x2000 : W64) ≠ 0; decide, by show (0x2000 : W64).toNat % 4 = 0; decide⟩, rfl, rfl⟩

theorem canTrap_fw (l : Tab W64) : (fw l).CanTrap := ⟨rfl, by show (0x2000 : W64) ≠ 0; decide, by show (0x2000 : W64).toNat % 4 = 0; decide⟩
theorem inv_fw (l : Tab W64) : (fw l).Inv := ⟨rfl, rfl⟩

/-- BranchesAndJumps: taken and not taken; an aligned and a misaligned target. -/
theorem wit_branches : (fw []).pred 0 ≠ decide ((0 : BitVec 1) = 1) ∧ (fw []).pred 0 = decide ((1 : BitVec 1) = 1) ∧
    ((fw [(1, 0x3000)]).reg 1).toNat % 4 = 0 ∧ ((fw [(1, 0x3002)]).reg 1).toNat % 4 ≠ 0 ∧ (fw [(1, 0x3002)]).CanTrap ∧ (fw [(1, 0x3002)]).Inv :=
  ⟨by decide +kernel, by decide +kernel, by decide +kernel, by decide +kernel, canTrap_fw _, inv_fw _⟩

/-- CallsAndReturns: room in the store; a full store with room in the spill area, its last word, and none; a return in the store, to a
misaligned address, from the spill area, and from an empty one. -/
def full (lim : W64) : State := one 0 { thCore [] with rstk := List.replicate 16 0x3000, rstkPtr := 0x100, rstkLim := lim }
theorem wit_calls : (fw []).me.rstk.length < 16 ∧
    (16 ≤ (full 0x108).me.rstk.length ∧ spillAddr (full 0x108).me.rstkPtr + 8 ≤ spillAddr (full 0x108).me.rstkLim ∧
      spillAddr (full 0x108).me.rstkLim ≤ ringRegion ∧ (full 0x108).enc.get? ((padBase (full 0x108).cur + spillAddr (full 0x108).me.rstkPtr) / 64) = none ∧
      (full 0x108).cur < 144 * 256 ∧
      (full 0x108).raceAt (full 0x108).cur { pa := padBase (full 0x108).cur + spillAddr (full 0x108).me.rstkPtr, left := 8 } 8 = none ∧ (full 0x108).Inv) ∧
    (16 ≤ (full 0x100).me.rstk.length ∧ spillAddr (full 0x100).me.rstkLim < spillAddr (full 0x100).me.rstkPtr + 8 ∧ (full 0x100).CanTrap ∧ (full 0x100).Inv) :=
  ⟨by decide +kernel, ⟨by decide +kernel, by decide +kernel, by decide +kernel, by decide +kernel, by decide +kernel, by decide +kernel, rfl, rfl⟩,
    ⟨by decide +kernel, by decide +kernel, ⟨rfl, by decide +kernel, by decide +kernel⟩, rfl, rfl⟩⟩
def returning (c : Core) : State := { one 0 c with mem := words [(padBase 0 + 0x100, 0x3000)] }
def inSpill : State := returning { thCore [] with rstkBase := 0x100, rstkPtr := 0x108 }
def noSpill : State := returning { thCore [] with rstkBase := 0x100, rstkPtr := 0x100 }
theorem wit_returns : (one 0 { thCore [] with rstk := [0x3000] }).me.rstk = 0x3000 :: [] ∧ (0x3000 : W64).toNat % 4 = 0 ∧
    ((one 0 { thCore [] with rstk := [0x3002] }).me.rstk = 0x3002 :: [] ∧ (0x3002 : W64).toNat % 4 ≠ 0 ∧
      (one 0 { thCore [] with rstk := [0x3002] }).CanTrap ∧ (one 0 { thCore [] with rstk := [0x3002] }).Inv) ∧
    (inSpill.me.rstk = [] ∧ spillAddr inSpill.me.rstkBase < spillAddr inSpill.me.rstkPtr ∧ spillAddr inSpill.me.rstkPtr ≤ ringRegion ∧
      inSpill.poison = [] ∧ inSpill.soft = [] ∧ inSpill.cur < 144 * 256 ∧
      inSpill.raceAt inSpill.cur { pa := padBase inSpill.cur + (spillAddr inSpill.me.rstkPtr - 8), left := 8 } 8 = none ∧
      (inSpill.word (padBase inSpill.cur + (spillAddr inSpill.me.rstkPtr - 8))).toNat % 4 = 0) ∧
    (noSpill.me.rstk = [] ∧ spillAddr noSpill.me.rstkPtr ≤ spillAddr noSpill.me.rstkBase ∧ noSpill.CanTrap ∧ noSpill.Inv) :=
  ⟨rfl, by decide, ⟨rfl, by decide, ⟨rfl, by decide +kernel, by decide +kernel⟩, rfl, rfl⟩,
    ⟨rfl, by decide +kernel, by decide +kernel, rfl, rfl, by decide +kernel, by decide +kernel, by decide +kernel⟩,
    ⟨rfl, by decide +kernel, ⟨rfl, by decide +kernel, by decide +kernel⟩, by decide +kernel, rfl⟩⟩

/-- LoopsBeginAndTurnBack: a count of 0; a first loop; a fourth and a fifth one; an end beyond that of the loop around it; the end of a
body with a count of 2 and of 1. -/
def inLoop (n : Nat) (count lend : W64) (l : Tab W64) : State :=
  one 145 { fwCore l with loops := List.replicate n { count := count, sta := 0x0F00, lend := lend, cdepth := 0 } }
theorem wit_loops : (fw []).reg 1 = 0 ∧ ((fw [(1, 1)]).reg 1 ≠ 0 ∧ (fw [(1, 1)]).me.loops.length < 4) ∧
    ((inLoop 3 1 0x1014 [(1, 1)]).reg 1 ≠ 0 ∧ (inLoop 3 1 0x1014 [(1, 1)]).me.loops.length < 4 ∧
      ∀ x l, (inLoop 3 1 0x1014 [(1, 1)]).me.loops = x :: l → x.cdepth = (inLoop 3 1 0x1014 [(1, 1)]).me.cdepth →
        ((inLoop 3 1 0x1014 [(1, 1)]).pc + 4 + BitVec.ofNat 64 (4 * (4 : BitVec 12).toNat)).toNat ≤ x.lend.toNat) ∧
    ((inLoop 4 1 0x1014 [(1, 1)]).reg 1 ≠ 0 ∧ (inLoop 4 1 0x1014 [(1, 1)]).me.loops.length = 4 ∧ (inLoop 4 1 0x1014 [(1, 1)]).CanTrap ∧
      (inLoop 4 1 0x1014 [(1, 1)]).Inv) ∧
    ((inLoop 1 1 0x1010 [(1, 1)]).me.loops = { count := 1, sta := 0x0F00, lend := 0x1010, cdepth := 0 } :: [] ∧
      (0x1010 : W64).toNat < ((inLoop 1 1 0x1010 [(1, 1)]).pc + 4 + BitVec.ofNat 64 (4 * (4 : BitVec 12).toNat)).toNat ∧
      (inLoop 1 1 0x1010 [(1, 1)]).CanTrap ∧ (inLoop 1 1 0x1010 [(1, 1)]).Inv) :=
  ⟨by decide +kernel, ⟨by decide +kernel, by decide +kernel⟩,
    ⟨by decide +kernel, by decide +kernel, by
      intro x l h _
      have e : x = { count := 1, sta := 0x0F00, lend := 0x1014, cdepth := 0 } := by
        have := congrArg List.head? h
        exact (Option.some.inj this).symm
      subst e; decide +kernel⟩,
    ⟨by decide +kernel, by decide +kernel, ⟨rfl, by decide +kernel, by decide +kernel⟩, rfl, rfl⟩,
    ⟨rfl, by decide +kernel, ⟨rfl, by decide +kernel, by decide +kernel⟩, rfl, rfl⟩⟩
theorem wit_loopTurns : (inLoop 1 2 0x1004 []).me.loops = [{ count := 2, sta := 0x0F00, lend := 0x1004, cdepth := 0 }] ∧
    (inLoop 1 2 0x1004 []).me.cdepth = 0 ∧ (inLoop 1 2 0x1004 []).pc + 4 = 0x1004 ∧ (inLoop 1 2 0x1004 []).pc.toNat < (0x1004 : W64).toNat ∧
    1 < (2 : W64).toNat ∧ (inLoop 1 1 0x1004 []).me.loops = [{ count := 1, sta := 0x0F00, lend := 0x1004, cdepth := 0 }] ∧ (1 : W64).toNat ≤ 1 :=
  ⟨rfl, rfl, by decide +kernel, by decide +kernel, by decide, rfl, by decide⟩

/-- TrapAndReturnFromTrap: outside a handler; in one with an aligned and with a misaligned TRAPPC. -/
def inHandler (at_ : W64) : State := one 145 { fwCore [] with trapH := true, trapPc := at_ }
theorem wit_traps : (fw []).Inv ∧ (fw []).CanTrap ∧ (fw []).pred 0 = true ∧
    ((inHandler 0x3000).Inv ∧ (inHandler 0x3000).pred 0 = true ∧ (inHandler 0x3000).me.trapH = true ∧ (inHandler 0x3000).me.trapPc.toNat % 4 = 0) ∧
    ((inHandler 0x3002).Inv ∧ (inHandler 0x3002).pred 0 = true ∧ (inHandler 0x3002).me.trapH = true ∧ (inHandler 0x3002).me.trapPc.toNat % 4 ≠ 0) :=
  ⟨inv_fw _, canTrap_fw _, rfl, ⟨⟨rfl, rfl⟩, rfl, rfl, by decide +kernel⟩, ⟨⟨rfl, rfl⟩, rfl, rfl, by decide +kernel⟩⟩

/-- EndAndYield: a thread that no handler runs for; a slice that runs and one that stops. -/
theorem wit_endAndYield : ((th (thCore [])).pred 0 = true ∧ (th (thCore [])).me.handling = none) ∧ (th (thCore [])).me.slice = some 0 ∧
    ((th (thCore [])).slice 0).stop = .running ∧
    ({ th (thCore []) with slices := [(0, { bound := true, stop := .stopping })] }.slice 0).stop = .stopping ∧ isFirmware (th (thCore [])).cur = false :=
  ⟨⟨rfl, rfl⟩, rfl, rfl, rfl, rfl⟩

/-- LoadsWriteTheRegister: the last bytes of a line, by a thread through both stages. -/
def memory0 : State :=
  mapped 0 [(0x10038, 0xFFEEDDCCBBAA9988)] (thCore [(1, 0x1003F), (2, 0x1003E), (3, 0x1003C), (4, 0x10038), (5, 0xFEDCBA9876543210)])
theorem wit_loads : memory0.pred 0 = true ∧
    (∃ bs u, memory0.load (memory0.reg 1 + (0 : BitVec 12).signExtend 64) 1 = .ok bs u ∧ bs = [0xFF]) ∧
    ((memory0.reg 2 + (0 : BitVec 12).signExtend 64).toNat % 2 = 0 ∧ ∃ bs u, memory0.load (memory0.reg 2 + (0 : BitVec 12).signExtend 64) 2 = .ok bs u) ∧
    ((memory0.reg 3 + (0 : BitVec 12).signExtend 64).toNat % 4 = 0 ∧ ∃ bs u, memory0.load (memory0.reg 3 + (0 : BitVec 12).signExtend 64) 4 = .ok bs u) ∧
    ((memory0.reg 4 + (0 : BitVec 12).signExtend 64).toNat % 8 = 0 ∧ ∃ bs u, memory0.load (memory0.reg 4 + (0 : BitVec 12).signExtend 64) 8 = .ok bs u) :=
  ⟨rfl, okP (fun bs _ => bs == [0xFF]) (fun _ _ h => by simpa using h) (by decide +kernel), ⟨by decide +kernel, isOk_spec (by decide +kernel)⟩,
    ⟨by decide +kernel, isOk_spec (by decide +kernel)⟩, ⟨by decide +kernel, isOk_spec (by decide +kernel)⟩⟩

/-- LoadsReadTheTranslatedBytes, through both stages and by the firmware complex. -/
theorem wit_loadsRead :
    (∃ pg u, memory0.dataPage 0x10038 .read = .ok pg u ∧ PlainAccess u pg 8 0 ∧ u.me.dcache.get? (pg.pa / 64) = none) ∧
    (fw []).me.slice = none ∧ ((fw []).pkg (fw []).node).outstanding = [] ∧ (fw []).me.rldLeft = false :=
  ⟨okP (fun pg u => plainB u pg 8 0 && u.me.dcache.get? (pg.pa / 64) == none)
    (fun _ _ h => by simp only [Bool.and_eq_true, beq_iff_eq] at h; exact ⟨plain_of h.1, h.2⟩) (by decide +kernel), rfl, rfl, rfl⟩

/-- StoresWriteTheirBytes: the access completes, and nothing refuses it. -/
theorem wit_stores : memory0.pred 0 = true ∧ ∀ n d, (n, d) ∈ [(1, 1), (2, 2), (4, 3), (8, 4)] →
    ((memory0.reg (BitVec.ofNat 5 d) + (0 : BitVec 12).signExtend 64).toNat % n = 0) ∧
    (∃ pg v, memory0.storeOut (memory0.reg (BitVec.ofNat 5 d) + (0 : BitVec 12).signExtend 64) (leBytes n (memory0.reg 5).toNat) none = .ok pg v) ∧
    ∃ pg u, memory0.dataPage (memory0.reg (BitVec.ofNat 5 d) + (0 : BitVec 12).signExtend 64) .write = .ok pg u ∧ PlainAccess u pg n 1 ∧ u.Inv := by
  refine ⟨rfl, fun n d h => ?_⟩
  simp only [List.mem_cons, List.not_mem_nil, or_false, Prod.mk.injEq] at h
  obtain ⟨rfl, rfl⟩ | ⟨rfl, rfl⟩ | ⟨rfl, rfl⟩ | ⟨rfl, rfl⟩ := h
  all_goals
    exact ⟨by decide +kernel, isOk_spec (by decide +kernel), okP (fun pg u => plainB u pg _ 1 && invB u)
      (fun _ _ h => by simp only [Bool.and_eq_true] at h; exact ⟨plain_of h.1, inv_of h.2⟩) (by decide +kernel)⟩

/-- MisalignedAccessesTrap: one byte off each alignment. -/
theorem wit_misaligned : (fw [(1, 0x10001)]).pred 0 = true ∧ (fw [(1, 0x10001)]).CanTrap ∧ (fw [(1, 0x10001)]).Inv ∧
    ((fw [(1, 0x10001)]).reg 1 + (0 : BitVec 12).signExtend 64).toNat % 2 ≠ 0 ∧ ((fw [(1, 0x10002)]).reg 1 + (0 : BitVec 12).signExtend 64).toNat % 4 ≠ 0 ∧
    ((fw [(1, 0x10004)]).reg 1 + (0 : BitVec 12).signExtend 64).toNat % 8 ≠ 0 ∧ ((fw [(1, 0x10002)]).reg 1).toNat % 4 ≠ 0 ∧
    ((fw [(1, 0x10004)]).reg 1).toNat % 8 ≠ 0 :=
  ⟨rfl, canTrap_fw _, inv_fw _, by decide +kernel, by decide +kernel, by decide +kernel, by decide +kernel, by decide +kernel⟩

/-- AcquireAndRelease: an acquire of each width; a release of each width by a core whose release counter is two steps from its end, and
by one that a remote load's data read keeps. -/
def releasing (l : Tab LqSlot) : State :=
  { memory0 with cores := [(0, { memory0.core 0 with rc := 2 ^ 40 - 3, lq := Vector.replicate 4 { issued := 1, slots := l } })] }
def ReleasePremises (s : State) (r : BitVec 5) (n : Nat) (left : Bool) : Prop :=
  ∃ pg u, s.dataPage (s.reg r) .write = .ok pg u ∧ u.Inv ∧ (u.pkg u.node).outstanding = [] ∧ u.me.fences = [] ∧ u.me.rc < 2 ^ 40 - 2 ∧
    u.me.rldLeft = left ∧ PlainAccess u pg n 1
theorem releasePremises_of {s : State} {r : BitVec 5} {n : Nat} {left : Bool} (h : okAnd (s.dataPage (s.reg r) .write) (fun pg u =>
    invB u && (u.pkg u.node).outstanding == [] && u.me.fences == [] && decide (u.me.rc < 2 ^ 40 - 2) && u.me.rldLeft == left && plainB u pg n 1) = true) :
    ReleasePremises s r n left :=
  okP _ (fun _ _ h => by
    simp only [Bool.and_eq_true, beq_iff_eq, decide_eq_true_eq] at h
    obtain ⟨⟨⟨⟨⟨a, b⟩, c⟩, d⟩, e⟩, f⟩ := h
    exact ⟨inv_of a, b, c, d, e, plain_of f⟩) h
theorem wit_acquire : memory0.pred 0 = true ∧ ((memory0.reg 3).toNat % 4 = 0 ∧ ∃ bs u, memory0.loadHome (memory0.reg 3) 4 4 = .ok bs u) ∧
    ((memory0.reg 4).toNat % 8 = 0 ∧ ∃ bs u, memory0.loadHome (memory0.reg 4) 8 1 = .ok bs u) ∧ (releasing []).pred 0 = true ∧
    ReleasePremises (releasing []) 3 4 false ∧ ReleasePremises (releasing []) 4 8 false ∧
    ReleasePremises (releasing [(0, .pending 0x20000 0x20000 8 1 false)]) 4 8 true :=
  ⟨rfl, ⟨by decide +kernel, isOk_spec (by decide +kernel)⟩, ⟨by decide +kernel, isOk_spec (by decide +kernel)⟩, rfl,
    releasePremises_of (by decide +kernel), releasePremises_of (by decide +kernel), releasePremises_of (by decide +kernel)⟩

/-- AtomicsExchangeTheWord. -/
theorem wit_atomics : memory0.pred 0 = true ∧ (memory0.reg 4).toNat % 8 = 0 ∧
    ∃ pg u, memory0.dataPage (memory0.reg 4) .atomic = .ok pg u ∧ PlainAccess u pg 8 2 ∧ u.Inv :=
  ⟨rfl, by decide +kernel, okP (fun pg u => plainB u pg 8 2 && invB u)
    (fun _ _ h => by simp only [Bool.and_eq_true] at h; exact ⟨plain_of h.1, inv_of h.2⟩) (by decide +kernel)⟩

/-- FencesReleaseAndDropTheCache: a posted store left, a remote load's data read left, and nothing left; an empty range and one of a byte. -/
def posted : Posted := {
  seq := 0, core := 145, thread := 0, func := 0, fw := true, release := false, counts := false, va := 2 ^ 48, pa := 2 ^ 48, size := 8, value := 0
  alt := none, index := 0, sends := 1, sent := 0, enc := false, chk := false, stamps := [] }
def posting : State := { fw [(1, 2 ^ 48), (2, 1)] with pkgs := [(0, { outstanding := [(1, [posted])] })] }
def reading : State := one 145 { fwCore [(1, 0x20000), (2, 1)] with lq := Vector.replicate 4 { issued := 1, slots := [(0, .pending 0x20000 0x20000 8 1 false)] } }
theorem wit_fences : (posting.pred 0 = true ∧ posting.postedLeft = true) ∧ (reading.pred 0 = true ∧ reading.me.rldLeft = true) ∧
    ((fw []).postedLeft = false ∧ (fw []).me.rldLeft = false ∧ (fw []).me.rc < 2 ^ 40 - 2 ∧ (fw []).me.seen = []) ∧ (fw []).reg 2 = 0 ∧
    (posting.reg 2 ≠ 0 ∧ posting.leftIn (posting.reg 1).toNat (min ((posting.reg 1).toNat + (posting.reg 2).toNat) (2 ^ 48)) = false) ∧
    (reading.reg 2 ≠ 0 ∧ reading.leftIn (reading.reg 1).toNat (min ((reading.reg 1).toNat + (reading.reg 2).toNat) (2 ^ 48)) = true) ∧
    ((fw [(2, 1)]).reg 2 ≠ 0 ∧ (fw [(2, 1)]).leftIn 0 (min (0 + ((fw [(2, 1)]).reg 2).toNat) (2 ^ 48)) = false ∧ (fw [(2, 1)]).me.rc < 2 ^ 40 - 2 ∧
      (fw [(2, 1)]).me.seen = [] ∧ 1 ≤ (1 : BitVec 3).toNat) :=
  ⟨⟨rfl, by decide +kernel⟩, ⟨rfl, by decide +kernel⟩, ⟨rfl, rfl, by decide +kernel, rfl⟩, by decide +kernel, ⟨by decide +kernel, by decide +kernel⟩,
    ⟨by decide +kernel, by decide +kernel⟩, ⟨by decide +kernel, by decide +kernel, by decide +kernel, rfl, by decide⟩⟩

/-- LoadQueuesTakeAndDeliver: an empty range, one of 513 bytes, one that leaves its page; 512 bytes up to the end of a page, with a place
free and with none. -/
def queueing (l : LoadQueue) : State := mapped 1 [] { thCore [(1, 0x10E00), (2, 512), (3, 513), (4, 0x10E01)] with lq := Vector.replicate 4 l }
def fullQueue : LoadQueue := { issued := 16, slots := (List.range 16).map fun k => (k, .data [] 1) }
def rldOk (s : State) : Prop := ∃ pg u, s.dataPage (s.reg 1) .read = .ok pg u ∧ fmtBytes pg.fmt ≠ 0 ∧ pg.fmt ≠ 0 ∧ blockCode pg.fmt = false ∧
  (s.reg 2).toNat % fmtBytes pg.fmt = 0 ∧ (s.reg 1).toNat % fmtBytes pg.fmt = 0 ∧ u.checked u.cur pg = false ∧ u.CanTrap ∧ u.Inv ∧ u.me.lq[0] = s.me.lq[0]
theorem rldOk_of {s : State} (h : okAnd (s.dataPage (s.reg 1) .read) (fun pg u => decide (fmtBytes pg.fmt ≠ 0) && decide (pg.fmt ≠ 0) && !blockCode pg.fmt &&
    decide ((s.reg 2).toNat % fmtBytes pg.fmt = 0) && decide ((s.reg 1).toNat % fmtBytes pg.fmt = 0) && !u.checked u.cur pg && canTrapB u && invB u &&
    decide (u.me.lq[0] = s.me.lq[0])) = true) : rldOk s :=
  okP _ (fun _ _ h => by
    simp only [Bool.and_eq_true, decide_eq_true_eq, Bool.not_eq_true'] at h
    obtain ⟨⟨⟨⟨⟨⟨⟨⟨a, b⟩, c⟩, d⟩, e⟩, f⟩, g⟩, i⟩, j⟩ := h
    exact ⟨a, b, c, d, e, f, canTrap_of g, inv_of i, j⟩) h
theorem wit_rld : (queueing {}).pred 0 = true ∧ ((queueing {}).reg 0).toNat = 0 ∧ 512 < ((queueing {}).reg 3).toNat ∧
    4096 < ((queueing {}).reg 4).toNat % 4096 + ((queueing {}).reg 2).toNat ∧ (queueing {}).CanTrap ∧ (queueing {}).Inv ∧
    (0 < ((queueing {}).reg 2).toNat ∧ ((queueing {}).reg 2).toNat ≤ 512 ∧ ((queueing {}).reg 1).toNat % 4096 + ((queueing {}).reg 2).toNat ≤ 4096) ∧
    (rldOk (queueing {}) ∧ (queueing {}).me.lq[0].issued - (queueing {}).me.lq[0].taken < 16) ∧
    (rldOk (queueing fullQueue) ∧ 16 ≤ (queueing fullQueue).me.lq[0].issued - (queueing fullQueue).me.lq[0].taken ∧
      (queueing fullQueue).me.lq[0].claimed ≤ (queueing fullQueue).me.lq[0].taken) :=
  ⟨rfl, by decide +kernel, by decide +kernel, by decide +kernel, canTrap_of (by decide +kernel), inv_of (by decide +kernel),
    ⟨by decide +kernel, by decide +kernel, by decide +kernel⟩, ⟨rldOk_of (by decide +kernel), by decide +kernel⟩,
    ⟨rldOk_of (by decide +kernel), by decide +kernel, by decide +kernel⟩⟩

/-- LoadQueuesTakeAndDeliver, a scratchpad read that is performed as it is issued; the arrival: bytes of two lines, bytes of the ring
region, and bytes that were read before. -/
def rldBytes (s : State) (ck : Nat) (pg : Page) (va n : Nat) : Bool := match s.performRld ck pg va n with | (.bytes bs, _) => bs.length == n | _ => false
theorem wit_rldNow : okAnd ((mapped 1 [(0x4000, 0x000100000000001D)] (thCore [(1, 0x10000), (2, 8)])).dataPage 0x10000 .read 8) (fun pg u =>
    decide (fmtBytes pg.fmt ≠ 0) && decide (pg.fmt ≠ 0) && !blockCode pg.fmt && decide (8 % fmtBytes pg.fmt = 0) && u.checked u.cur pg &&
      rldBytes u u.cur pg 0x10000 8) = true := by decide +kernel
def arriving (x : LqSlot) : State := queueing { issued := 1, slots := [(0, x)] }
def coming : LqSlot := .pending 0x10020 0x10020 128 1 false
def barred : LqSlot := .pending (BitVec.ofNat 64 (padBase 0 + 0x2E7FC0)) 0x10020 128 1 false
theorem wit_fill : ((arriving coming).core (0 * 256 + 0)).lq[0].slots.get? 0 = some coming ∧
    rldBytes (arriving coming) 0 { pa := 0x10020, left := 128 } 0x10020 128 = true ∧
    ((arriving barred).core (0 * 256 + 0)).lq[0].slots.get? 0 = some barred ∧
    (match (arriving barred).performRld 0 { pa := padBase 0 + 0x2E7FC0, left := 128 } 0x10020 128 with
      | (.refused _ x, _) => x == padBase 0 + 0x2E8000
      | _ => false) = true ∧
    ((arriving (.sent (.data [1] 1))).core (0 * 256 + 0)).lq[0].slots.get? 0 = some (.sent (.data [1] 1)) :=
  ⟨rfl, by decide +kernel, rfl, by decide +kernel, rfl⟩

/-- LoadQueuesTakeAndDeliver, pop: bytes, an error mark, nothing unclaimed, bytes on their way past the time-out. -/
def popping (l : LoadQueue) : State := queueing l
theorem wit_pop : (popping {}).me.wait = none ∧
    (let s := popping { issued := 1, slots := [(0, .data [1, 2] 1)] }
     s.me.lq[0].standing = none ∧ s.me.lq[0].claimed < s.me.lq[0].issued ∧ s.me.lq[0].slots.get? s.me.lq[0].claimed = some (.data [1, 2] 1)) ∧
    (let s := popping { issued := 1, slots := [(0, .mark 5 0x60)] }
     s.me.lq[0].standing = none ∧ s.me.lq[0].claimed < s.me.lq[0].issued ∧ s.me.lq[0].slots.get? s.me.lq[0].claimed = some (.mark 5 0x60) ∧ s.CanTrap ∧ s.Inv) ∧
    ((popping {}).me.lq[0].standing = none ∧ (popping {}).me.lq[0].issued ≤ (popping {}).me.lq[0].claimed ∧ (popping {}).CanTrap ∧ (popping {}).Inv) ∧
    (let s := popping { issued := 1, slots := [(0, .pending 0 0 2 1 false)] }
     s.me.lq[0].standing = none ∧ s.me.lq[0].claimed < s.me.lq[0].issued ∧
      s.me.lq[0].slots.get? s.me.lq[0].claimed = some (.pending 0 0 2 1 false) ∧ s.reg 5 = 0) :=
  ⟨rfl, ⟨rfl, by decide +kernel, rfl⟩, ⟨rfl, by decide +kernel, rfl, canTrap_of (by decide +kernel), inv_of (by decide +kernel)⟩,
    ⟨rfl, by decide +kernel, canTrap_of (by decide +kernel), inv_of (by decide +kernel)⟩, ⟨rfl, by decide +kernel, rfl, by decide +kernel⟩⟩

/-- TokensCountAndWait: VALUE all ones; VALUE below; a data read that is left; a wait that is met, one that cannot be, and one that is not. -/
def token (t : Token) : State := one 145 { fwCore [] with tokens := [(5, t)] }
def tk5 (s : State) : Token := s.me.token (5 : BitVec 7).toNat
theorem wit_tokens : reading.me.rldLeft = true ∧
    ((token { value := BitVec.allOnes 32 }).me.rldLeft = false ∧ (tk5 (token { value := BitVec.allOnes 32 })).value = BitVec.allOnes 32) ∧
    ((token { value := 0xFFFFFFFE }).me.rldLeft = false ∧ (tk5 (token { value := 0xFFFFFFFE })).value ≠ BitVec.allOnes 32) ∧
    (token { value := 1 }).me.wait = none ∧
    ((tk5 (token { value := 1 })).claims = [] ∧ (tk5 (token { value := 1 })).value ≠ 0 ∧
      1 + (tk5 (token { value := 1 })).pwait ≤ (tk5 (token { value := 1 })).value.toNat + (tk5 (token { value := 1 })).praise) ∧
    (tk5 (token { value := 1, pwait := 1 })).value.toNat + (tk5 (token { value := 1, pwait := 1 })).praise < 1 + (tk5 (token { value := 1, pwait := 1 })).pwait ∧
    (1 + (tk5 (token { praise := 1 })).pwait ≤ (tk5 (token { praise := 1 })).value.toNat + (tk5 (token { praise := 1 })).praise ∧
      ((tk5 (token { praise := 1 })).value = 0 ∨ (tk5 (token { praise := 1 })).claims ≠ []) ∧ Claim.access ∉ (tk5 (token { praise := 1 })).claims ∧
      (token { praise := 1 }).reg 0 = 0) :=
  ⟨by decide +kernel, ⟨rfl, by decide +kernel⟩, ⟨rfl, by decide +kernel⟩, rfl, ⟨by decide +kernel, by decide +kernel, by decide +kernel⟩,
    by decide +kernel, ⟨by decide +kernel, .inl (by decide +kernel), by decide +kernel, by decide +kernel⟩⟩

/-- TaggedWordsFillAndEmpty: a worker core at a word of core 0's scratchpad, full and empty. -/
def tagged (tags : NSet) : State := { fw [(1, BitVec.ofNat 64 (padBase 0 + 0x100))] with tags := tags }
theorem wit_tagged : (tagged []).me.wait = none ∧ (tagged []).tagQ = [] ∧ ((tagged []).reg 1).toNat % 8 = 0 ∧
    (∃ pg u, (tagged [(padBase 0 + 0x100) / 8]).dataPage ((tagged [(padBase 0 + 0x100) / 8]).reg 1) .read = .ok pg u ∧ region pg.pa = .pad 0 0x100 ∧
      (u.pkg u.node).outstanding = [] ∧ u.tagQ = [] ∧ u.me.wait = none ∧ u.Inv ∧ PlainAccess u pg 8 2 ∧ u.tags.has (pg.pa / 8) = true ∧ u.stamps = []) ∧
    ∃ pg u, (tagged []).dataPage ((tagged []).reg 1) .write = .ok pg u ∧ region pg.pa = .pad 0 0x100 ∧
      (u.pkg u.node).outstanding = [] ∧ u.tagQ = [] ∧ u.me.wait = none ∧ u.Inv ∧ PlainAccess u pg 8 2 ∧ u.tags.has (pg.pa / 8) = false ∧ u.me.rc < 2 ^ 40 - 2 ∧ u.me.rldLeft = false := by
  have key (b : Bool) (pg : Page) (u : State) (h : (decide (region pg.pa = .pad 0 0x100) && decide ((u.pkg u.node).outstanding = []) &&
      decide (u.tagQ = []) && decide (u.me.wait = none) && invB u && plainB u pg 8 2 && decide (u.tags.has (pg.pa / 8) = b) && decide (u.stamps = []) &&
      decide (u.me.rc < 2 ^ 40 - 2) && decide (u.me.rldLeft = false)) = true) : region pg.pa = .pad 0 0x100 ∧ (u.pkg u.node).outstanding = [] ∧
      u.tagQ = [] ∧ u.me.wait = none ∧ u.Inv ∧ PlainAccess u pg 8 2 ∧ u.tags.has (pg.pa / 8) = b ∧ u.stamps = [] ∧ u.me.rc < 2 ^ 40 - 2 ∧ u.me.rldLeft = false := by
    simp only [Bool.and_eq_true, decide_eq_true_eq] at h
    obtain ⟨⟨⟨⟨⟨⟨⟨⟨⟨a, c⟩, d⟩, e⟩, f⟩, g⟩, i⟩, j⟩, k⟩, l⟩ := h
    exact ⟨a, c, d, e, inv_of f, plain_of g, i, j, k, l⟩
  refine ⟨rfl, rfl, by decide +kernel, ?_, ?_⟩
  · have ⟨pg, u, e, h⟩ := okP _ (key true) (r := (tagged [(padBase 0 + 0x100) / 8]).dataPage ((tagged [(padBase 0 + 0x100) / 8]).reg 1) .read) (by decide +kernel)
    exact ⟨pg, u, e, h.1, h.2.1, h.2.2.1, h.2.2.2.1, h.2.2.2.2.1, h.2.2.2.2.2.1, h.2.2.2.2.2.2.1, h.2.2.2.2.2.2.2.1⟩
  · have ⟨pg, u, e, h⟩ := okP _ (key false) (r := (tagged []).dataPage ((tagged []).reg 1) .write) (by decide +kernel)
    exact ⟨pg, u, e, h.1, h.2.1, h.2.2.1, h.2.2.2.1, h.2.2.2.2.1, h.2.2.2.2.2.1, h.2.2.2.2.2.2.1, h.2.2.2.2.2.2.2.2⟩

/-- GroupsAndBarriers: a thread joins and leaves; a firmware core. -/
theorem wit_groups : (th (thCore [])).me.slice = some 0 ∧ isFirmware (th (thCore [])).cur = false ∧ NSet.sorted (((th (thCore [])).slice 0).group 5) = true ∧
    isFirmware (fw []).cur = true ∧ (fw []).CanTrap ∧ (fw []).Inv := ⟨rfl, rfl, rfl, rfl, canTrap_fw _, inv_fw _⟩

/-- GroupsAndBarriers: the last arrival of a group of one; no member; a second arrival; a wait on a completed generation, on a gang's
completion, and one that times out. -/
def barrier (g : NSet) (c : CoreBar) (gen : W32) : State :=
  { th { thCore [] with bars := [(5, c)] } with slices := [(0, { bound := true, groups := [(5, g)], bars := [(5, { gen := gen })] })] }
theorem wit_barriers : (barrier [0] {} 0).me.slice = some 0 ∧ isFirmware (barrier [0] {} 0).cur = false ∧
    ((queueing { issued := 1, slots := [(0, .pending 0 0 2 1 false)] }).me.slice = some 0 ∧
      (queueing { issued := 1, slots := [(0, .pending 0 0 2 1 false)] }).me.rldLeft = true) ∧
    (∀ g c n, (barrier g c n).me.rldLeft = false ∧ (barrier g c n).postedLeft = false) ∧
    ((((barrier [0] {} 0).slice 0).group ((5 : BitVec 7).toNat % 64)).has (barrier [0] {} 0).me.slcore = true ∧
      ¬(((barrier [0] {} 0).me.bar 5).pend = true ∧ ((barrier [0] {} 0).me.bar 5).tgt = (((barrier [0] {} 0).slice 0).bar 5).gen) ∧
      (barrier [0] {} 0).me.rc < 2 ^ 40 - 2 ∧ ((barrier [0] {} 0).slice 0).group ((5 : BitVec 7).toNat % 64) = [(barrier [0] {} 0).me.slcore] ∧
      (((barrier [0] {} 0).slice 0).bar 5).arr = []) ∧
    ((((barrier [1] {} 0).slice 0).group ((5 : BitVec 7).toNat % 64)).has (barrier [1] {} 0).me.slcore = false ∧ (barrier [1] {} 0).CanTrap ∧ (barrier [1] {} 0).Inv) ∧
    (let s := barrier [0] { pend := true, tgt := 7 } 7
     ((s.slice 0).group ((5 : BitVec 7).toNat % 64)).has s.me.slcore = true ∧ (s.me.bar 5).pend = true ∧ (s.me.bar 5).tgt = ((s.slice 0).bar 5).gen ∧
      s.CanTrap ∧ s.Inv ∧ s.me.wait = none ∧ s.reg 1 = 0) ∧
    (let s := barrier [0] { pend := true, tgt := 7 } 8
     s.me.wait = none ∧ (s.me.bar 5).pend = true ∧ (s.me.bar 5).tgt ≠ ((s.slice 0).bar 5).gen ∧ ((s.slice 0).bar 5).rels = []) ∧
    (let s := barrier [0] { gc := 1 } 0
     s.me.wait = none ∧ (s.me.bar 5).pend = false ∧ (s.me.bar 5).gc ≠ 0) :=
  ⟨rfl, rfl, ⟨rfl, by decide +kernel⟩, fun _ _ _ => ⟨rfl, rfl⟩,
    ⟨by decide +kernel, by decide +kernel, by decide +kernel, by decide +kernel, by decide +kernel⟩,
    ⟨by decide +kernel, canTrap_of (by decide +kernel), inv_of (by decide +kernel)⟩,
    ⟨by decide +kernel, by decide +kernel, by decide +kernel, canTrap_of (by decide +kernel), inv_of (by decide +kernel), rfl, by decide +kernel⟩,
    ⟨rfl, by decide +kernel, by decide +kernel, by decide +kernel⟩, ⟨rfl, by decide +kernel, by decide +kernel⟩⟩

/-- ShapesAreGranted: each vector format with a register that is not 0; a matrix format; an extent of 0; M, N and K with the last three
registers that a can name. -/
theorem wit_shapes : (fw [(1, 0x12), (2, 600)]).pred 0 = true ∧ ((0x12 : BitVec 5).toNat = 0x12 ∧ (fw [(2, 600)]).reg 2 ≠ 0) ∧
    (vectorCode (0x01 : BitVec 5).toNat = false ∧ (fw []).CanTrap ∧ (fw []).Inv) ∧ (vectorCode (0x10 : BitVec 5).toNat = true ∧ (fw []).reg 2 = 0) ∧
    ((29 : BitVec 5).toNat < 30 ∧ 0 < ((fw [(29, 200), (30, 1), (31, 300)]).reg 29).toNat ∧ 0 < ((fw [(29, 200), (30, 1), (31, 300)]).reg (29 + 1)).toNat ∧
      0 < ((fw [(29, 200), (30, 1), (31, 300)]).reg (29 + 2)).toNat) ∧ ((fw []).reg 29).toNat = 0 :=
  ⟨rfl, ⟨by decide, by decide +kernel⟩, ⟨by decide, canTrap_fw _, inv_fw _⟩, ⟨by decide, by decide +kernel⟩,
    ⟨by decide, by decide +kernel, by decide +kernel, by decide +kernel⟩, by decide +kernel⟩

/-- AccumulatorsAreRead: the last pair of registers; a slot 24 cycles after its drain. -/
theorem wit_accumulators : (fw []).pred 0 = true ∧ (0 < (30 : BitVec 5).toNat ∧ (30 : BitVec 5).toNat < 31) ∧
    (let s : State := { fw [] with clock := 24 }
     s.pred 0 = true ∧ s.me.mat.slots[0].nanAt + 24 ≤ s.clock ∧ s.me.mat.slots[0].infAt + 24 ≤ s.clock ∧ s.me.mat.slots[0].ovfAt + 24 ≤ s.clock) :=
  ⟨rfl, ⟨by decide, by decide⟩, rfl, by decide +kernel, by decide +kernel, by decide +kernel⟩

/-- CsrsAreReadAndWritten. -/
theorem wit_csrs : (fw []).pred 0 = true ∧ (fw []).CanTrap ∧ (fw []).Inv ∧ (th (thCore [])).pred 0 = true ∧ isFirmware (th (thCore [])).cur = false ∧
    (th (thCore [])).CanTrap ∧ (th (thCore [])).Inv :=
  ⟨rfl, canTrap_fw _, inv_fw _, rfl, rfl, canTrap_of (by decide +kernel), inv_of (by decide +kernel)⟩

/-- RingsResumeAndReset: a parked copy ring of core 143; a thread; a reset of all three rings. -/
def parked : State :=
  { handle [(1, 143 * 256 + 4)] with cores := [(143, { cring := { park := some { cause := 0x62, handle := true, fnum := 5 } } }), (144, fwCore [(1, 143 * 256 + 4)])] }
theorem wit_rings : parked.pred 0 = true ∧ isHandle parked.cur = true ∧ parked.me.handling = none ∧ (143 : Nat) < 144 ∧ (parked.reg 1).toNat = 143 * 256 + 4 ∧
    (parked.core (parked.node * 256 + 143)).cring.park = some { cause := 0x62, handle := true, fnum := 5 } ∧ (0x62 : Nat) ∉ [0x6C, 0xE1, 0xE2] ∧
    (isFirmware (th (thCore [(1, 7)])).cur = false ∧ (th (thCore [(1, 7)])).CanTrap ∧ (th (thCore [(1, 7)])).Inv ∧
      ((th (thCore [(1, 7)])).reg 1).toNat / 256 % 256 = 0 ∧ ((th (thCore [(1, 7)])).reg 1).toNat % 2 = 1 ∧
      ((th (thCore [(1, 7)])).reg 1).toNat / 2 % 2 = 1 ∧ ((th (thCore [(1, 7)])).reg 1).toNat / 4 % 2 = 1) :=
  ⟨rfl, rfl, rfl, by decide, by decide +kernel, rfl, by decide, rfl, canTrap_of (by decide +kernel), inv_of (by decide +kernel), by decide +kernel, by decide +kernel,
    by decide +kernel, by decide +kernel⟩

/-- InvalidationDropsTranslations: a thread, with an access left that used a translation of the range and without; the Handle for the
last slice and for all; a worker outside a handler, and one that serves a fault of slice 0. -/
def translated : TlbEntry := { base := 0x10000, size := 0x10000, d1 := 0, z1 := 0, d2 := 0, z2 := 0, at2 := 0, ipa := 0x10000 }
def usedTlb (l : Tab LqSlot) : State :=
  th { thCore [(1, 0x10000)] with tlb := [translated], lq := Vector.replicate 4 { issued := 1, slots := l } }
theorem wit_invalidationWaits : (usedTlb [(0, .pending 0x10020 0x10020 8 1 false)]).usedLeft 0 (fun e => decide (e.base ≤ 0x10000 ∧ 0x10000 < e.base + e.size)) = true ∧
    (usedTlb []).usedLeft 0 (fun _ => true) = false ∧ (handle [(2, 35)]).usedLeft (skOf 0 35) (fun _ => true) = false := by decide +kernel
def usedAndHandle : State :=
  { handle [(1, 0x10000)] with cores := [(0, (usedTlb [(0, .pending 0x10020 0x10020 8 1 false)]).me), (144, fwCore [(1, 0x10000)])] }
theorem wit_handleInvalidates : usedAndHandle.me.slice = none ∧ isHandle usedAndHandle.cur = true ∧
    (∃ x ∈ (List.range 36).map (skOf usedAndHandle.node), usedAndHandle.usedLeft x (fun e => decide (e.base ≤ 0x10000 ∧ 0x10000 < e.base + e.size)) = true) ∧
    (handle [(2, 35)]).me.slice = none ∧ (∀ x ∈ (List.range 36).map (skOf (handle [(2, 35)]).node), (handle [(2, 35)]).usedLeft x (fun _ => true) = false) ∧
    isFirmware (fw []).cur = true ∧ isHandle (fw []).cur = false ∧ (fw []).inHandler = false ∧ (fw []).CanTrap ∧ (fw []).Inv :=
  ⟨rfl, rfl, by decide +kernel, rfl, by decide +kernel, rfl, rfl, rfl, canTrap_fw _, inv_fw _⟩
def serving : State := one 145 { fwCore [] with slice := some 0, handling := some (0, 0) }
theorem wit_handlerInvalidates : serving.me.slice = some 0 ∧ serving.inHandler = true := ⟨rfl, rfl⟩
theorem wit_invalidation : (th (thCore [])).pred 0 = true ∧ (th (thCore [])).me.slice = some 0 ∧ isFirmware (th (thCore [])).cur = false ∧
    (th (thCore [])).CanTrap ∧ (th (thCore [])).Inv ∧ (handle [(2, 35)]).pred 0 = true ∧ isHandle (handle [(2, 35)]).cur = true ∧ ((handle [(2, 35)]).reg 2).toNat < 36 :=
  ⟨rfl, rfl, rfl, canTrap_of (by decide +kernel), inv_of (by decide +kernel), rfl, rfl, by decide +kernel⟩

/-- ErrorsAreInjected: each kind, at the last word of the scratchpad, at a line of the package's HBM and at the last element, which an
entry of the ring may still write and which none does; a slice that does not enable it. -/
def injecting (l : Tab W64) : State := mapped 0 [] (thCore l)
def injecting0 (q : List Entry) : State :=
  mapped 0 [] { thCore [(1, BitVec.ofNat 64 (7 * 2 ^ 4 + 127 * 2 ^ 8 + 63 * 2 ^ 16 + 31 * 2 ^ 24))] with mring := { queue := q, wp := q.length } }
theorem wit_einj : (injecting [(1, 1), (2, 0x2FFFF8)]).pred 0 = true ∧
    (let s := injecting [(1, BitVec.ofNat 64 (1 + 63 * 2 ^ 24)), (2, 0x2FFFF8)]
     s.einjen = true ∧ s.reg 1 = BitVec.ofNat 64 (1 + 63 * 2 ^ 24) ∧ (s.reg 2).toNat % 8 = 0 ∧ (s.reg 2).toNat < padSize ∧ s.relSize s.node = none) ∧
    (let s := injecting [(1, 2), (2, 0x2FFFF8)]
     s.einjen = true ∧ s.reg 1 = 2 ∧ (s.reg 2).toNat % 8 = 0 ∧ (s.reg 2).toNat < padSize ∧ s.relSize s.node = none) ∧
    (let s := injecting [(1, 3), (2, 0x10041)]
     s.einjen = true ∧ s.reg 1 = 3 ∧ ∃ pg u, s.dataPage (s.reg 2) .write = .ok pg u ∧ pg.pa / 2 ^ 48 = u.node ∧
      u.homeRefuses (u.party u.cur) pg.pa 1 1 pg.enc = none ∧ region pg.pa = .hbm 0 0 ∧ u.relSize u.node = none) ∧
    (∀ q : List Entry, q = [] ∨ q = [{ word := 0x2C1C0000 }] → let s := injecting0 q
     s.einjen = true ∧ 63 < s.nMax ∧ s.reg 2 = 0 ∧ s.me.slotBusy 7 = !q.isEmpty ∧
      s.reg 1 = BitVec.ofNat 64 (7 * 2 ^ 4 + 127 * 2 ^ 8 + 63 * 2 ^ 16 + 31 * 2 ^ 24)) ∧
    (th (thCore [])).einjen = false ∧ (th (thCore [])).CanTrap ∧ (th (thCore [])).Inv := by
  refine ⟨rfl, ⟨by decide +kernel, by decide +kernel, by decide +kernel, by decide +kernel, by decide +kernel⟩,
    ⟨by decide +kernel, by decide +kernel, by decide +kernel, by decide +kernel, by decide +kernel⟩,
    ⟨by decide +kernel, by decide +kernel, ?_⟩, fun q h => ?_, by decide +kernel, canTrap_of (by decide +kernel), inv_of (by decide +kernel)⟩
  · refine okP (fun pg u => decide (pg.pa / 2 ^ 48 = u.node) && decide (u.homeRefuses (u.party u.cur) pg.pa 1 1 pg.enc = none) &&
      decide (region pg.pa = .hbm 0 0) && decide (u.relSize u.node = none)) (fun pg u h => ?_) (by decide +kernel)
    simp only [Bool.and_eq_true, decide_eq_true_eq] at h
    exact ⟨h.1.1.1, h.1.1.2, h.1.2, h.2⟩
  · rcases h with rfl | rfl <;> exact ⟨by decide +kernel, by decide +kernel, by decide +kernel, by decide +kernel, by decide +kernel⟩

/-- FirmwareTakesAndCommitsCommands: a command of function 36 that waits, an empty inbox, a command in hand; a thread. -/
def waiting (hand : Bool) : State :=
  { fw [(1, 36), (2, 36 * 256), (3, 0)] with pkgs := [(0, { inboxes := [(36, { next := 1, entries := [(0, {
      seq := 0, op := 0x01, tag := 9, ep := 2, payload := [], wellFormed := true, delivered := true, inhand := hand })] })] })] }
theorem wit_firmware :
    ((waiting false).pred 0 = true ∧ (waiting false).asFirmware = true ∧ 1 ≤ ((waiting false).reg 1).toNat % 64 ∧ ((waiting false).reg 1).toNat % 64 ≤ 36 ∧
      ((waiting false).inbox 0 (((waiting false).reg 1).toNat % 64)).eligible = some (0, {
        seq := 0, op := 0x01, tag := 9, ep := 2, payload := [], wellFormed := true, delivered := true, inhand := false }) ∧ firmwareOp 0x01 = true) ∧
    ((fw []).asFirmware = true ∧ ((fw []).inbox 0 (((fw []).reg 1).toNat % 64)).eligible = none ∧
      ((fw []).inbox 0 (((fw []).reg 1).toNat / 256 % 64)).entries.get? (((fw []).reg 1).toNat % 256) = none) ∧
    ((waiting true).asFirmware = true ∧ ((waiting true).reg 2).toNat / 256 % 64 ≤ 36 ∧
      ((waiting true).inbox 0 (((waiting true).reg 2).toNat / 256 % 64)).entries.get? (((waiting true).reg 2).toNat % 256) = some {
        seq := 0, op := 0x01, tag := 9, ep := 2, payload := [], wellFormed := true, delivered := true, inhand := true }) ∧
    (isFirmware (th (thCore [])).cur = false ∧ (th (thCore [])).CanTrap ∧ (th (thCore [])).Inv) :=
  ⟨⟨rfl, rfl, by decide +kernel, by decide +kernel, by decide +kernel, by decide +kernel⟩, ⟨rfl, by decide +kernel, by decide +kernel⟩,
    ⟨rfl, by decide +kernel, by decide +kernel⟩, rfl, canTrap_of (by decide +kernel), inv_of (by decide +kernel)⟩

/-- AttestExtendsAMeasurement: registers 4 and 14; registers 3 and 15; a worker. -/
theorem wit_attest : (∀ r : Fin 16, r = 4 ∨ r = 14 → let s := handle [(1, BitVec.ofNat 64 r.val), (2, 0x10000)]
      s.pred 0 = true ∧ isHandle s.cur = true ∧ 4 ≤ r.val ∧ r.val ≤ 14 ∧ s.reg 1 = BitVec.ofNat 64 r.val ∧ (s.reg 2).toNat % 64 = 0 ∧
      ∃ bs u, s.loadAt s.cur { pa := normPa s.node (s.reg 2).toNat, left := 64 } 64 = .ok bs u ∧ u.cur = s.cur) ∧
    (∀ v : W64, v = 3 ∨ v = 15 → let s := handle [(1, v), (2, 0x10000)]; ((s.reg 1).toNat < 4 ∨ 14 < (s.reg 1).toNat)) ∧
    (isHandle (fw []).cur = false ∧ (fw []).CanTrap ∧ (fw []).Inv) := by
  refine ⟨fun r h => ?_, fun v h => ?_, rfl, canTrap_fw _, inv_fw _⟩
  · have key (s : State) (h : (match s.loadAt s.cur { pa := normPa s.node (s.reg 2).toNat, left := 64 } 64 with
        | .ok _ u => u.cur == s.cur | _ => false) = true) :
        ∃ bs u, s.loadAt s.cur { pa := normPa s.node (s.reg 2).toNat, left := 64 } 64 = .ok bs u ∧ u.cur = s.cur := by
      split at h
      · next bs u e => exact ⟨bs, u, e, by simpa using h⟩
      · cases h
    rcases h with rfl | rfl <;> exact ⟨rfl, rfl, by decide, by decide, by decide +kernel, by decide +kernel, key _ (by decide +kernel)⟩
  · rcases h with rfl | rfl <;> decide +kernel

/-- SwitchMemoryIsAllocated: an empty length; the least one; a table with no free entry, with none in use, and with its last one in use,
by an access that is left or by none;
the last switch; the first register pair and the last; a switch number out of range. -/
def freeing : State :=
  { th { thCore [(1, 0xF00000000000)] with lq := Vector.replicate 4 { issued := 1, slots := [(0, .pending 0 0xF00000000020 8 1 false)] } } with
    mem := words [(satBlock 0 0, 0x4C00F00000000000), (satBlock 0 0 + 8, 0x10000)] }
def satState (l : List Nat) (r : Tab W64) : State := { fw r with mem := l.map fun e => (satBlock 0 0 + 32 * e + 7, 0x40) }
theorem wit_switchMemory : (badRequest ((fw [(2, 4)]).reg 1).toNat ((fw [(2, 4)]).reg 2) = true ∧ (fw [(2, 4)]).CanTrap ∧ (fw [(2, 4)]).Inv ∧ (fw [(2, 4)]).pred 0 = true) ∧
    (let s := satState (List.range 256) [(1, 0x10000), (2, 4)]
     badRequest (s.reg 1).toNat (s.reg 2) = false ∧ ∀ e, e < 256 → s.satFree s.node s.myFunc e = false) ∧
    (∀ e, e < 256 → (fw []).satFree (fw []).node (fw []).myFunc e = true) ∧
    (let s := satState [255] []
     (255 : Nat) < 256 ∧ s.satFree s.node s.myFunc 255 = false ∧ (s.satEntry s.node s.myFunc 255).vbase = (s.reg 1).toNat ∧
      s.me.slice = none ∧ s.rejoins s.node = false ∧ ∀ e', e' < 255 → s.satFree s.node s.myFunc e' = true) ∧
    (freeing.satFree freeing.node freeing.myFunc 0 = false ∧ (freeing.satEntry freeing.node freeing.myFunc 0).vbase = (freeing.reg 1).toNat ∧
      freeing.me.slice = some 0 ∧ freeing.entryUsed 0 (freeing.satEntry freeing.node freeing.myFunc 0) = true) ∧
    (0 < (30 : BitVec 5).toNat ∧ (30 : BitVec 5).toNat < 31 ∧ ((fw [(1, 17)]).reg 1).toNat < 18) ∧
    (18 ≤ ((fw [(1, 18)]).reg 1).toNat ∧ ((fw [(1, 18)]).reg 1).toNat < 0xF00000000000 ∧ (fw [(1, 18)]).CanTrap ∧ (fw [(1, 18)]).Inv) :=
  ⟨⟨by decide +kernel, canTrap_fw _, inv_fw _, rfl⟩, ⟨by decide +kernel, by decide +kernel⟩, by decide +kernel,
    ⟨by decide, by decide +kernel, by decide +kernel, rfl, by decide +kernel, by decide +kernel⟩,
    ⟨by decide +kernel, by decide +kernel, rfl, by decide +kernel⟩, ⟨by decide, by decide, by decide +kernel⟩,
    ⟨by decide +kernel, by decide +kernel, canTrap_fw _, inv_fw _⟩⟩

/-- PushWritesAnEntry: cnop with a wait that a raise owed can meet and one that nothing can; a copy with a follow-on, into rings with
room and into a full one; a matrix word of which the shape register is not valid; a prefix that names no engine. -/
def pushing (praise : Nat) (c : Core := thCore []) : State := th { c with tokens := [(5, { praise := praise })] }
def PushPremises (s : State) (e : BitVec 2) (w : BitVec 6) (w1 : W32) (meets : Bool) : Prop :=
  ∃ p u, s.planPush e (s.reg 1) (s.reg 2) w1 0 = .ok (.ok p) u ∧
    ringOverlap (p.e.reads ++ p.e.writes ++ (match p.follow with | some f => f.reads | none => [])) = none ∧
    ((w = 0 ∨ (u.me.token w.toNat).pwait + 1 ≤ (u.me.token w.toNat).value.toNat + (u.me.token w.toNat).praise) ↔ meets = true) ∧
    (u.ring p.r).full = false ∧ p.follow = none ∧ p.r < 3 ∧ u.enc = [] ∧ u.Inv ∧ u.CanTrap
theorem pushPremises_of {s : State} {e : BitVec 2} {w : BitVec 6} {w1 : W32} {meets : Bool} (h : okAnd (s.planPush e (s.reg 1) (s.reg 2) w1 0) (fun r u =>
    match r with
    | .ok p => decide (ringOverlap (p.e.reads ++ p.e.writes ++ (match p.follow with | some f => f.reads | none => [])) = none) &&
        decide ((w = 0 ∨ (u.me.token w.toNat).pwait + 1 ≤ (u.me.token w.toNat).value.toNat + (u.me.token w.toNat).praise) ↔ meets = true) &&
        !(u.ring p.r).full && p.follow.isNone && decide (p.r < 3) && decide (u.enc = []) && invB u && canTrapB u
    | .error _ => false) = true) : PushPremises s e w w1 meets := by
  have ⟨r, u, e1, h1⟩ := okAnd_spec h
  split at h1
  · next p =>
    simp only [Bool.and_eq_true, decide_eq_true_eq, Bool.not_eq_true', Option.isNone_iff_eq_none] at h1
    obtain ⟨⟨⟨⟨⟨⟨⟨a, b⟩, c⟩, d⟩, f⟩, g⟩, i⟩, j⟩ := h1
    exact ⟨p, u, e1, a, b, c, d, f, g, inv_of i, canTrap_of j⟩
  · cases h1
/-- 2 lanes of w32, padded to 16 (Table 4.4). -/
def shapeV : W64 := 0x9200000000004002
/-- M, N and K of 1 in format f, padded to 8, 8 and k. -/
def shapeM (f k : Nat) : W64 := BitVec.ofNat 64 (2 ^ 63 + 2 ^ 61 + f * 2 ^ 56 + k * 2 ^ 42 + 2 ^ 32 + 8 * 2 ^ 24 + 2 ^ 16 + 8 * 2 ^ 8 + 1)
/-- A copy into the scratchpad with a load of a tile as its follow-on, into a ring with these entries. -/
def following (q : List Entry) : State :=
  th { thCore [(1, 0x10000), (2, 64)] with sh := Vector.replicate 8 (shapeM 1 8), cring := { queue := q, wp := q.length } }
def followB (s : State) (room : Bool) : Bool :=
  okAnd (s.planPush 3 (s.reg 1) (s.reg 2) 0x05504100 0x0D020000) fun r u =>
    match r with
    | .ok p => decide (ringOverlap (p.e.reads ++ p.e.writes ++ (match p.follow with | some f => f.reads | none => [])) = none) && p.r == 2 &&
        p.follow.isSome && (u.ring p.r).full == !room && (u.ring 1).full == false && !u.stopAsked
    | .error _ => false
theorem wit_pushFollows : followB (following []) true = true ∧ followB (following (List.replicate 1024 {})) false = true := by decide +kernel
theorem wit_push : (3 : BitVec 2) ≠ 0 ∧ PushPremises (pushing 1) 3 5 0x98000000 true ∧ PushPremises (pushing 0) 3 5 0x98000000 false ∧
    (∃ r u, (pushing 1).planPush 2 ((pushing 1).reg 1) ((pushing 1).reg 2) 0x08000000 0 = .ok r u ∧ (∃ c v, r = .error (c, v)) ∧ u.CanTrap ∧ u.Inv) ∧
    (pushing 1).CanTrap ∧ (pushing 1).Inv := by
  refine ⟨by decide, pushPremises_of (by decide +kernel), pushPremises_of (by decide +kernel), ?_, canTrap_of (by decide +kernel), inv_of (by decide +kernel)⟩
  refine okP (fun r u => (match r with | .error _ => true | .ok _ => false) && canTrapB u && invB u) (fun r u h => ?_) (by decide +kernel)
  simp only [Bool.and_eq_true] at h
  refine ⟨?_, canTrap_of h.1.2, inv_of h.2⟩
  split at h
  · next x => exact ⟨x.1, x.2, rfl⟩
  · exact absurd h.1.1 (by decide)

/-- A push that a full ring held back. -/
def stalledPush : State :=
  th { thCore [] with cring := { queue := List.replicate 1024 {}, wp := 1024 }, pushHeld := some ({ r := 2, e := {} }, 0x1008) }
theorem wit_stalledPush : stalledPush.agenda = [] ∧ stalledPush.fetches = true ∧ stalledPush.me.pushHeld = some ({ r := 2, e := {} }, 0x1008) :=
  ⟨rfl, by decide +kernel, rfl⟩

/-! ### The engines: a thread with one entry at the head of a ring -/

def vecState (e : Entry) (u : VecUnit := {}) : State := mapped 0 [] { thCore [] with vring := { queue := [e], wp := 1 }, vec := u }
def matState (e : Entry) (u : MatUnit := {}) : State := mapped 0 [] { thCore [] with mring := { queue := [e], wp := 1 }, mat := u }

/-- VectorSourcesAndDestinations: the whole of an operand's lanes. -/
theorem wit_vectorSources : ({ shape := 0x9200000000020080 } : Entry).lg ≤ ({ shape := 0x9200000000020080 } : Entry).lp ∧
    ({ shape := 0x9200000000020080 } : Entry).lp * 32 ≤ 4096 ∧ ({ shape := 0x9200000000020080 } : Entry).lg = 128 := by decide +kernel

/-- The premises of LaneForm, where the shadow's check is div. -/
def laneB (s : State) (e w d m : Nat) (vs : List Nat) (clear : Bool) (f : List (List Nat) → Nat → Nat) (div : List (List Nat) → Nat → Bool) : Bool :=
  okAnd ((s.wakeBanks (s.entry 0).word).sources (s.entry 0) e vs) fun r u =>
    decide (u.me.upsets = []) && (List.range (s.entry 0).lg).all (fun j => !div r.1 j) &&
    okAnd (u.deliverV d r.2 (.lanes w ((List.range (s.entry 0).lp).map fun j => if j < (s.entry 0).lg ∧ u.me.maskBit m j = true then some (f r.1 j) else none) clear))
      fun _ _ => true
def LanePremises (s : State) (e w d m : Nat) (vs : List Nat) (clear : Bool) (f : List (List Nat) → Nat → Nat) (div : List (List Nat) → Nat → Bool) : Prop :=
  ∃ xs vals u v, (s.wakeBanks (s.entry 0).word).sources (s.entry 0) e vs = .ok (xs, vals) u ∧ u.Healthy 2 ∧ (∀ j, j < (s.entry 0).lg → div xs j = false) ∧
    u.deliverV d vals (.lanes w ((List.range (s.entry 0).lp).map fun j => if j < (s.entry 0).lg ∧ u.me.maskBit m j = true then some (f xs j) else none) clear)
      = .ok () v
theorem lane_of {s : State} {e w d m : Nat} {vs : List Nat} {clear : Bool} {f : List (List Nat) → Nat → Nat} {div : List (List Nat) → Nat → Bool}
    (h : laneB s e w d m vs clear f div = true) : LanePremises s e w d m vs clear f div := by
  have ⟨r, u, e1, h1⟩ := okAnd_spec h
  simp only [Bool.and_eq_true, decide_eq_true_eq, List.all_eq_true, List.mem_range, Bool.not_eq_true'] at h1
  have ⟨⟨⟩, v, e2, _⟩ := okAnd_spec h1.2
  exact ⟨r.1, r.2, u, v, e1, healthy_of 2 h1.1.1, h1.1.2, e2⟩

def ones : Operand := BitVec.ofNat 4096 (0x3F800000 + 2 ^ 32 * 0x40000000)
def lanes0 : State := vecState { shape := shapeV, capa := 1 } { v := Vector.replicate 32 ones, q := Vector.replicate 16 ones }
/-- VectorLanesTakeTheirFunction: two sources and three under the shadow's check; one source; none; a narrower result. -/
theorem wit_lanes :
    LanePremises lanes0 32 32 31 0 [0, 1] false (fun xs j => addF 0 (lane (xs.getD 0 []) j) (lane (xs.getD 1 []) j))
      (fun xs j => divAdd (lane (xs.getD 0 []) j) (lane (xs.getD 1 []) j) (addF 0 (lane (xs.getD 0 []) j) (lane (xs.getD 1 []) j))) ∧
    LanePremises lanes0 32 32 31 0 [0, 1, tSpec 3] false (fun xs j => fmaF (lane (xs.getD 0 []) j) (lane (xs.getD 1 []) j) (lane (xs.getD 2 []) j))
      (fun xs j => divFma (lane (xs.getD 0 []) j) (lane (xs.getD 1 []) j) (lane (xs.getD 2 []) j)
        (fmaF (lane (xs.getD 0 []) j) (lane (xs.getD 1 []) j) (lane (xs.getD 2 []) j))) ∧
    LanePremises lanes0 32 32 31 1 [0x2F] false (fun xs j => absF (lane (xs.getD 0 []) j)) (fun _ _ => false) ∧
    LanePremises lanes0 32 32 0x3F 0 [] false (fun _ j => j % 2 ^ 32) (fun _ _ => false) ∧
    LanePremises lanes0 32 16 0 0 [0x38] true (fun xs j => lane (xs.getD 0 []) j % 2 ^ 16) (fun _ _ => false) :=
  ⟨lane_of (by decide +kernel), lane_of (by decide +kernel), lane_of (by decide +kernel), lane_of (by decide +kernel), lane_of (by decide +kernel)⟩

/-- VectorMasksReductionsAndScans: two sources read; a masked list of which neither the tree nor the scan diverges, and its result delivered. -/
theorem wit_masks : lanes0.Healthy 2 ∧ (∃ r u, (lanes0.wakeBanks (lanes0.entry 0).word).sources (lanes0.entry 0) 32 [0, 1] = .ok r u) ∧
    ∃ r u, (lanes0.wakeBanks (lanes0.entry 0).word).sources (lanes0.entry 0) 32 [0] = .ok r u ∧
      (let l := (List.range (lanes0.entry 0).lp).map fun j => if j < (lanes0.entry 0).lg ∧ u.me.maskBit 0 j = true then some (lane (r.1.getD 0 []) j) else none
       treeDiverges (redOpF 0) (divOp 0) 10 1 l = none ∧ scanDiverges (redOpF 0) (divOp 0) 0 (redIdF 0) l = none ∧
        (∃ v, u.deliverV 0x1F r.2 (.lanes 32 ((List.range (lanes0.entry 0).lp).map fun j => if j < (lanes0.entry 0).lg then
          some (if j = 0 then (tree (redOpF 0) 10 l).getD (redIdF 0) else 0) else none) false) = .ok () v) ∧
        ∃ v, u.deliverV 0x1F r.2 (.lanes 32 ((List.range (lanes0.entry 0).lp).map fun j => if j < (lanes0.entry 0).lg then
          some (lane (scanList (redOpF 0) (redIdF 0) l) j) else none) false) = .ok () v) := by
  refine ⟨healthy_of 2 rfl, isOk_spec (by decide +kernel), okP (fun r u =>
    let l := (List.range (lanes0.entry 0).lp).map fun j => if j < (lanes0.entry 0).lg ∧ u.me.maskBit 0 j = true then some (lane (r.1.getD 0 []) j) else none
    decide (treeDiverges (redOpF 0) (divOp 0) 10 1 l = none) && decide (scanDiverges (redOpF 0) (divOp 0) 0 (redIdF 0) l = none) &&
    okAnd (u.deliverV 0x1F r.2 (.lanes 32 ((List.range (lanes0.entry 0).lp).map fun j => if j < (lanes0.entry 0).lg then
      some (if j = 0 then (tree (redOpF 0) 10 l).getD (redIdF 0) else 0) else none) false)) (fun _ _ => true) &&
    okAnd (u.deliverV 0x1F r.2 (.lanes 32 ((List.range (lanes0.entry 0).lp).map fun j => if j < (lanes0.entry 0).lg then
      some (lane (scanList (redOpF 0) (redIdF 0) l) j) else none) false)) (fun _ _ => true)) (fun r u h => ?_) (by decide +kernel)⟩
  simp only [Bool.and_eq_true, decide_eq_true_eq] at h
  have ⟨⟨⟩, v, e, _⟩ := okAnd_spec h.1.2
  have ⟨⟨⟩, x, f, _⟩ := okAnd_spec h.2
  exact ⟨h.1.1.1, h.1.1.2, ⟨v, e⟩, ⟨x, f⟩⟩

/-- VectorBlocksPortsAndRepeats: a block image in a register; two output ports; a walk; a repeat of one body entry. -/
def walk0 (base : Nat) : Port := { walk := { opb := 8, elem := 4, base := base, cnt := [1], str := [0], rowb := 0, lq := none }, pos := 0, first := 0 }
def ports0 : State := vecState { shape := shapeV, walk := some (walk0 0x100) } { v := Vector.replicate 32 ones, ports := [(8, walk0 0x200), (9, walk0 0x300)] }
def repeat0 : State :=
  mapped 0 [] { thCore [] with vring := { queue := [{ word := 0xC8100000, capa := 1, shape := shapeV }], past := [{ word := 0xD0000000, shape := shapeV }], rp := 1, wp := 2 } }
/-- The two results of vpart with mask vm1 of one source. -/
def parts0 (xs : List (List Nat)) (u : State) (want : Bool) : VRes :=
  let ent := ports0.entry 0
  .lanes 32 ((List.range ent.lp).map fun j => if j < ent.lg then some (lane
    (((List.range ent.lg).filter fun j => u.me.maskBit 1 j == want).map (lane (xs.getD 0 [])) ++
      List.replicate (ent.lg - ((List.range ent.lg).filter fun j => u.me.maskBit 1 j == want).length) 0xFFFFFFFF) j) else none) false
theorem wit_blocks :
    (∃ vals u, (ports0.wakeBanks (ports0.entry 0).word).readPorts (imageBytes 8 (blocksOf 8 (ports0.entry 0).lp)) [0] [] = .ok vals u ∧ u.Healthy 2 ∧
      ∃ v, u.deliverV 1 vals (.lanes 32 ((List.range (ports0.entry 0).lp).map fun j => if j < (ports0.entry 0).lg then some (f32.round 0
        (imageElem 8 (blocksOf 8 (ports0.entry 0).lp) (u.me.source (ports0.entry 0) vals 32 128 0) j)) else none) false) = .ok () v) ∧
    (∃ r u, (ports0.wakeBanks (ports0.entry 0).word).sources (ports0.entry 0) 32 [0] = .ok r u ∧
      (∃ v, u.deliverV 1 r.2 (.image (imageOf 8 ((chunks (blockG 8) (blocksOf 8 (ports0.entry 0).lp) (r.1.getD 0 [] ++
        List.replicate (blocksOf 8 (ports0.entry 0).lp * blockG 8 - (ports0.entry 0).lp) 0)).map (quantise 8 0)))) = .ok () v) ∧
      ∃ u1, u.portMay 1 0 (4 * (ports0.entry 0).lg) = .ok () u1 ∧ ∃ u2, u1.portWrite 0 (parts0 r.1 u true) = .ok () u2 ∧
        ∃ u3, u2.portWrite 1 (parts0 r.1 u false) = .ok () u3) ∧
    (ports0.entry 0).walk = some (walk0 0x100) := by
  refine ⟨okP (fun vals u => decide (u.me.upsets = []) && okAnd (u.deliverV 1 vals (.lanes 32 ((List.range (ports0.entry 0).lp).map fun j =>
      if j < (ports0.entry 0).lg then some (f32.round 0 (imageElem 8 (blocksOf 8 (ports0.entry 0).lp) (u.me.source (ports0.entry 0) vals 32 128 0) j)) else none) false))
      fun _ _ => true) (fun vals u h => ?_) (by decide +kernel), okP (fun r u =>
      okAnd (u.deliverV 1 r.2 (.image (imageOf 8 ((chunks (blockG 8) (blocksOf 8 (ports0.entry 0).lp) (r.1.getD 0 [] ++
        List.replicate (blocksOf 8 (ports0.entry 0).lp * blockG 8 - (ports0.entry 0).lp) 0)).map (quantise 8 0))))) (fun _ _ => true) &&
      okAnd (u.portMay 1 0 (4 * (ports0.entry 0).lg)) fun _ u1 => okAnd (u1.portWrite 0 (parts0 r.1 u true)) fun _ u2 =>
        okAnd (u2.portWrite 1 (parts0 r.1 u false)) fun _ _ => true) (fun r u h => ?_) (by decide +kernel), rfl⟩
  · simp only [Bool.and_eq_true, decide_eq_true_eq] at h
    have ⟨⟨⟩, v, e, _⟩ := okAnd_spec h.2
    exact ⟨healthy_of 2 h.1, v, e⟩
  · simp only [Bool.and_eq_true] at h
    have ⟨⟨⟩, v, e, _⟩ := okAnd_spec h.1
    have ⟨⟨⟩, u1, e1, h1⟩ := okAnd_spec h.2
    have ⟨⟨⟩, u2, e2, h2⟩ := okAnd_spec h1
    have ⟨⟨⟩, u3, e3, _⟩ := okAnd_spec h2
    exact ⟨⟨v, e⟩, u1, e1, u2, e2, u3, e3⟩
theorem wit_repeat : 0 < (1 : BitVec 6).toNat ∧ (repeat0.ring 0).prog = {} ∧ ((repeat0.ring 0).before (1 : BitVec 6).toNat).length = (1 : BitVec 6).toNat ∧
    (repeat0.entry 0).capa.toNat % 65536 * (1 : BitVec 6).toNat = 1 ∧
    ∃ body, ((repeat0.ring 0).before (1 : BitVec 6).toNat)[0 % (1 : BitVec 6).toNat]? = some body ∧ decodeVector body.word = .ok .vnop ∧
      ∃ u, vbody .vnop body repeat0 = .ok () u ∧ u.ring 0 = repeat0.ring 0 := by
  refine ⟨by decide, rfl, rfl, by decide +kernel, { word := 0xD0000000, shape := shapeV }, rfl, rfl, ?_⟩
  have ⟨⟨⟩, u, e, h⟩ := okP (P := fun _ u => u.ring 0 = repeat0.ring 0) (r := vbody .vnop { word := 0xD0000000, shape := shapeV } repeat0)
    (fun _ u => decide (u.ring 0 = repeat0.ring 0)) (fun _ _ h => by simpa using h) (by decide +kernel)
  exact ⟨u, e, h⟩

/-- EntriesRetireAndRaise: a raise that can still count, at the head of its ring and ahead of an entry of another unit. -/
def raising : State := vecState { raisek := 63, shape := shapeV }
theorem wit_retire : (raising.ring 0).queue = { raisek := 63, shape := shapeV } :: [] ∧ (63 : BitVec 6) ≠ 0 ∧
    (raising.me.token (63 : BitVec 6).toNat).value.toNat < 2 ^ 32 - 1 ∧ ((lanes0.ring 0).queue.headD {}).raisek = 0 ∧
    (raising.ring 0).aside = [] ∧ (0 : Nat) < 3 ∧
    (let s := mapped 0 [] { thCore [] with mring := { queue := [{ raisek := 63 }], wp := 2, aside := [{ word := 0x38040000 }] } }
     (s.ring 1).queue = { raisek := 63 } :: [] ∧ (s.ring 1).aside ≠ []) :=
  ⟨rfl, by decide, by decide +kernel, rfl, rfl, by decide, rfl, by decide +kernel⟩

/-- TilesAreLoadedAndMoved: the stream of a plain format and that of a block format with its scales in the own scratchpad, and a load-queue
claim. -/
def tileBytes : List Nat := (List.range 256).map fun o => 0x100 + o
def plainTile : State := matState { shape := shapeM 1 16, capa := 0x100 }
def blockTile : State := matState { shape := shapeM 8 32, capa := 0x100 }
def claimed : State :=
  mapped 0 [] { thCore [] with
    mring := { queue := [{ shape := shapeM 1 16, lqClaim := some (0, 1) }], wp := 1 }
    lq := Vector.replicate 4 { issued := 1, claimed := 1, slots := [(0, .data (List.replicate 256 0x3F) 1)] } }
theorem wit_tiles :
    ((plainTile.entry 1).lqClaim = none ∧ blockCode (shFMT (plainTile.entry 1).shape) = false ∧
      (∃ bs u, plainTile.padRead 1 ((List.range ((shMPAD (plainTile.entry 1).shape * shKPAD (plainTile.entry 1).shape * 16 + 7) / 8)).map fun o => 0x100 + o) = .ok bs u) ∧
      ∃ bs u, plainTile.padRead 1 ((List.range ((shMPAD (plainTile.entry 1).shape * shKPAD (plainTile.entry 1).shape * 16 + 7) / 8)).map fun o => 0x100 + skewed 0 o) = .ok bs u) ∧
    ((blockTile.entry 1).lqClaim = none ∧ blockCode (shFMT (blockTile.entry 1).shape) = true ∧
      ∃ bs u, blockTile.padRead 1 ((List.range ((8 * 32 * 4 + 7) / 8)).map fun o => 0x100 + o) = .ok bs u ∧
        ∃ sc v, u.padRead 1 (span (0x100 + up64 128) (8 * 32 / blockG 8)) = .ok sc v) ∧
    ((claimed.entry 1).lqClaim = some (0, 1) ∧ blockCode (shFMT (claimed.entry 1).shape) = false ∧ ∃ bs u, claimed.claimBytes 0 0 1 = .ok bs u) ∧
    plainTile.Healthy 5 :=
  ⟨⟨rfl, by decide +kernel, isOk_spec (by decide +kernel), isOk_spec (by decide +kernel)⟩,
    ⟨rfl, by decide +kernel, okP (fun _ u => okAnd (u.padRead 1 (span (0x100 + up64 128) (8 * 32 / blockG 8))) fun _ _ => true) (fun _ _ h => isOk_spec h) (by decide +kernel)⟩,
    ⟨rfl, by decide +kernel, isOk_spec (by decide +kernel)⟩, healthy_of 5 rfl⟩

/-- MultipliesSumTheProducts. -/
theorem wit_multiplies : plainTile.Healthy 3 ∧ plainTile.Healthy 5 ∧ shNGR (plainTile.entry 1).shape ≤ 64 ∧ plainTile.me.mat.frozen = none :=
  ⟨healthy_of 3 rfl, healthy_of 5 rfl, by decide +kernel, rfl⟩

/-- GangedMultipliesRunOnEveryMember: the issuer's own part, before it is done and after; members left and none; a part that arrives at another
member, and one whose turn has come there. -/
def ganged (done : NSet) (other : Core) : State :=
  { mapped 0 [] { thCore [] with mring := { queue := [{ word := 0x38040000, shape := shapeM 1 16, gang := { members := [0, 1], done := done, ids := [(0, 0), (1, 0)] } }], wp := 1 } } with
    cores := [(0, { thCore [] with mring := { queue := [{ word := 0x38040000, shape := shapeM 1 16, gang := { members := [0, 1], done := done, ids := [(0, 0), (1, 0)] } }], wp := 1 } }),
      (1, other)] }
def part0 : Part := { issuer := 0, seq := 0, word := 0x38040000, shape := shapeM 1 16, after := 0 }
theorem wit_ganged : ((ganged [] {}).Healthy 3 ∧ (ganged [] {}).Healthy 5 ∧ (ganged [] {}).cur < 144 * 256 ∧ ((ganged [] {}).ring 1).queue ≠ []) ∧
    (((ganged [] {}).entry 1).gang.done.has (ganged [] {}).me.slcore = false ∧
      (match ((ganged [] {}).me.mat.begin false 1).multiply false false 0 0 1 ((ganged [] {}).entry 1).shape none with | .ok _ => true | .error _ => false) = true) ∧
    (((ganged [0] {}).entry 1).gang.done.has (ganged [0] {}).me.slcore = true ∧ ∃ m ∈ ((ganged [0] {}).entry 1).gang.members, ((ganged [0] {}).entry 1).gang.done.has m = false) ∧
    (∀ m ∈ ((ganged [0, 1] {}).entry 1).gang.members, ((ganged [0, 1] {}).entry 1).gang.done.has m = true) ∧
    (let u := ganged [0] { thCore [] with slcore := 1 }
     u.cur = 0 * 256 + 0 ∧ (u.me.slice.bind fun sk => u.sliceCoreKey sk 1) = some 1 ∧ (u.entry 1).gang.members.has 1 = true ∧ (u.entry 1).gang.done.has 1 = false ∧
      (u.core 1).run ≠ .idle ∧ (u.core 1).slice = u.me.slice ∧ Tab.getD (u.entry 1).gang.ids 1 0 = (u.core 1).thread) ∧
    (let u := ganged [0] { thCore [] with slcore := 1, mat := { parts := [part0] } }
     (1 : Nat) ≠ u.cur ∧ (u.core 1).mat.parts.find? (fun q => q.issuer == u.cur) = some part0 ∧ (u.core 1).partWaits part0 = false ∧ (u.core 1).upsets = [] ∧
      (match ((u.core 1).mat.begin (part0.word.fld 27 5 == 0x08) (part0.word.fld 18 3)).multiply (part0.word.fld 27 5 == 0x08) (part0.word.fld 0 1 == 1) (part0.word.fld 24 3) (part0.word.fld 21 3)
        (part0.word.fld 18 3) part0.shape none with | .ok _ => true | .error _ => false) = true) :=
  ⟨⟨healthy_of 3 rfl, healthy_of 5 rfl, by decide +kernel, by decide +kernel⟩, ⟨by decide +kernel, by decide +kernel⟩, ⟨by decide +kernel, by decide +kernel⟩,
    by decide +kernel,
    ⟨rfl, by decide +kernel, by decide +kernel, by decide +kernel, by decide +kernel, rfl, by decide +kernel⟩,
    ⟨by decide +kernel, by decide +kernel, by decide +kernel, rfl, by decide +kernel⟩⟩

/-- EpiloguesWriteTheSlot: a vector of N elements and an image of the granted elements in the own scratchpad. -/
theorem wit_epilogues : plainTile.Healthy 3 ∧ shNGR (plainTile.entry 1).shape ≤ 64 ∧
    (∃ bs, plainTile.padRead 1 (span ((plainTile.entry 1).capa.toNat % 2 ^ 22) (4 * shNGR (plainTile.entry 1).shape)) = .ok bs plainTile) ∧
    ∃ bs, plainTile.padRead 1 ((granted (plainTile.entry 1).shape).flatMap fun p =>
      span ((plainTile.entry 1).capa.toNat % 2 ^ 22 + 4 * (p.1 * shNPAD (plainTile.entry 1).shape + p.2)) 4) = .ok bs plainTile := by
  have key {r : Res (List Byte)} (h : okAnd r (fun _ u => decide (u = plainTile)) = true) : ∃ bs, r = .ok bs plainTile := by
    have ⟨bs, u, e, q⟩ := okAnd_spec h
    have : u = plainTile := by simpa using q
    exact ⟨bs, this ▸ e⟩
  exact ⟨healthy_of 3 rfl, by decide +kernel, key (by decide +kernel), key (by decide +kernel)⟩

/-- TileStoresWriteTheirElements: the images of a slot and of a tile written; a slot with NAN set; two elements of one byte at the end of the
scratchpad. -/
def nanSlot : State := matState { shape := shapeM 1 16, capa := 0x100 } { slots := Vector.replicate 8 { nan := true } }
theorem wit_tileStores :
    (∃ u, plainTile.streamWrite 0x100 (fmtBits 1) (storeImage (plainTile.me.mat.slot 0) (plainTile.entry 1).shape 1 0 false).1
      (storeImage (plainTile.me.mat.slot 0) (plainTile.entry 1).shape 1 0 false).2.1 = .ok () u) ∧
    ((plainTile.me.mat.slot 0).examine plainTile.clock ((granted (plainTile.entry 1).shape).map fun p => (plainTile.me.mat.slot 0).at_ p.1 p.2)).nan = false ∧
    ((nanSlot.me.mat.slot 0).examine nanSlot.clock ((granted (nanSlot.entry 1).shape).map fun p => (nanSlot.me.mat.slot 0).at_ p.1 p.2)).nan = true ∧
    (∃ u, plainTile.streamWrite 0x100 32 [(0, 0), (64, 0), (72, 0)] ((List.range 64).map fun i => (snapBytes (plainTile.entry 1).shape - 64 + i, 0)) = .ok () u) ∧
    (∃ u, blockCode (shFMT (plainTile.entry 1).shape) = false ∧ plainTile.streamWrite 0x100 16 [(0, 0)] [] = .ok () u) ∧
    (∃ u, blockCode (shFMT (blockTile.entry 1).shape) = true ∧ blockTile.streamWrite 0x100 4 [(0, 0)] [(128, 0)] = .ok () u) ∧
    (([(0, 1), (1, 2)] : List (Nat × Nat)).Pairwise (fun x y => x.1 ≠ y.1) ∧ (∀ x ∈ ([(0, 1), (1, 2)] : List (Nat × Nat)), 0x2FFFFE + (x.1 + 1) * (8 / 8) ≤ padSize) ∧
      plainTile.Inv ∧ plainTile.enc = [] ∧ plainTile.cur < 144 * 256 ∧ ckCore plainTile.cur < 144 ∧
      ∃ u, plainTile.streamWrite 0x2FFFFE 8 [(0, 1), (1, 2)] [] = .ok () u) := by
  have key {r : Res Unit} (h : okAnd r (fun _ _ => true) = true) : ∃ u, r = .ok () u := by
    have ⟨⟨⟩, u, e, _⟩ := okAnd_spec h; exact ⟨u, e⟩
  have ⟨u1, e1⟩ : ∃ u, plainTile.streamWrite 0x100 16 [(0, 0)] [] = .ok () u := key (by decide +kernel)
  have ⟨u2, e2⟩ : ∃ u, blockTile.streamWrite 0x100 4 [(0, 0)] [(128, 0)] = .ok () u := key (by decide +kernel)
  exact ⟨key (by decide +kernel), by decide +kernel, by decide +kernel, key (by decide +kernel), ⟨u1, by decide +kernel, e1⟩, ⟨u2, by decide +kernel, e2⟩,
    by decide, by decide, inv_of (by decide +kernel), rfl, by decide +kernel, by decide +kernel, key (by decide +kernel)⟩

/-! ### The copy engine -/

/-- A thread with one entry at the head of its copy ring, in pages of format f. -/
def copyState (f : Nat) (e : Entry) (more : List (Nat × W64) := []) : State := mapped f more { thCore [] with cring := { queue := [e], wp := 1 } }
/-- An allocation of 64 KiB on switch 0 at the start of the switch window (Table 5.8). -/
def window0 : List (Nat × W64) := [(satBlock 0 1, 0x4C00F00000000000), (satBlock 0 1 + 8, 0x10000)]

def okX {α : Type} (r : XRes α) : Bool := match r with | .ok _ _ => true | _ => false

theorem unitOk {r : Res Unit} (h : okAnd r (fun _ _ => true) = true) : ∃ u, r = .ok () u := by
  have ⟨⟨⟩, u, e, _⟩ := okAnd_spec h; exact ⟨u, e⟩

/-- A load's premises: its pages share format f, and the rest of the move goes through. -/
def loadB (s : State) (sw : Bool) (f : Nat) (rest : List Seg → State → Bool) : Bool :=
  okAnd (s.segs 2 .read (s.entry 2).capa.toNat (s.entry 2).capb.toNat (segFuel (s.entry 2).capb.toNat) sw) fun l u =>
    !l.isEmpty && l.all (fun g => g.pg.fmt == f) && rest l u
def storeB (s : State) (sw : Bool) (f : Nat) (rest : List Seg → State → Bool) : Bool :=
  okAnd (s.segs 2 .write (s.entry 2).capa.toNat (s.entry 2).capb.toNat (segFuel (s.entry 2).capb.toNat) sw) fun l u =>
    !l.isEmpty && l.all (fun g => g.pg.fmt == f) && rest l u
theorem segs_of {r : Res (List Seg)} {f : Nat} {rest : List Seg → State → Bool}
    (h : okAnd r (fun l u => !l.isEmpty && l.all (fun g => g.pg.fmt == f) && rest l u) = true) :
    ∃ l u, r = .ok l u ∧ l ≠ [] ∧ (∀ g ∈ l, g.pg.fmt = f) ∧ rest l u = true := by
  have ⟨l, u, e, h⟩ := okAnd_spec h
  simp only [Bool.and_eq_true, Bool.not_eq_true', List.isEmpty_eq_false_iff, List.all_eq_true, beq_iff_eq] at h
  exact ⟨l, u, e, h.1.1, h.1.2, h.2⟩

/-- CopiesMoveTheirRanges: two lines of global memory and of the switch window, in and out; a range that is no whole frame. -/
def line2 (f va n : Nat) : State :=
  { copyState f { capa := BitVec.ofNat 64 va, capb := BitVec.ofNat 64 n } window0 with pkgs := [(0, { ready := BitVec.allOnes 64 })] }
theorem wit_copies :
    (∀ va sw, (va, sw) ∈ [(0x10020, false), (0xF00000000000, true)] →
      (∃ l u, (line2 0 va 64).segs 2 .read va 64 (segFuel 64) sw = .ok l u ∧ l ≠ [] ∧ (∀ g ∈ l, g.pg.fmt = 0) ∧
        okAnd (u.moveIn 2 l (fun o => 0x100 + o) va) (fun _ _ => true) = true) ∧
      ∃ l u, (line2 0 va 64).segs 2 .write va 64 (segFuel 64) sw = .ok l u ∧ l ≠ [] ∧ (∀ g ∈ l, g.pg.fmt = 0) ∧
        okAnd (u.moveOut 2 l (fun o => 0x100 + o) va) (fun _ _ => true) = true) ∧
    (∃ l u, (line2 8 0x10040 4096).segs 2 .read 0x10040 4096 (segFuel 4096) = .ok l u ∧ l ≠ [] ∧ (∀ g ∈ l, g.pg.fmt = 8) ∧ (0x10040 : Nat) % 4096 ≠ 0) := by
  refine ⟨fun va sw h => ?_, ?_⟩
  · simp only [List.mem_cons, List.not_mem_nil, or_false, Prod.mk.injEq] at h
    obtain ⟨rfl, rfl⟩ | ⟨rfl, rfl⟩ := h <;> exact ⟨segs_of (by decide +kernel), segs_of (by decide +kernel)⟩
  · have ⟨l, u, a, b, c, _⟩ := segs_of (f := 8) (rest := fun _ _ => true) (r := (line2 8 0x10040 4096).segs 2 .read 0x10040 4096 (segFuel 4096)) (by decide +kernel)
    exact ⟨l, u, a, b, c, by decide⟩

set_option maxRecDepth 6000 in
/-- CopiesMoveTheirRanges: a block frame, in and out. -/
theorem wit_frames :
    (∃ l u, (line2 8 0x10000 4096).segs 2 .read 0x10000 4096 (segFuel 4096) = .ok l u ∧ l ≠ [] ∧ (∀ g ∈ l, g.pg.fmt = 8) ∧
      okAnd (State.gather 2 (allLines l) u) (fun bs b => okAnd (b.padWrite 2 (span 0x100 (frameToImage 8 bs).length) (frameToImage 8 bs)) fun _ _ => true) = true) ∧
    (∃ l u, (line2 8 0x10000 4096).segs 2 .write 0x10000 4096 (segFuel 4096) = .ok l u ∧ l ≠ [] ∧ (∀ g ∈ l, g.pg.fmt = 8) ∧
      okAnd (u.padRead 2 (span 0x100 (imageLen 8 1))) (fun img b => okAnd (State.scatter 2 (allLines l) (imageToFrame 8 1 img) b) fun _ _ => true) = true) :=
  ⟨segs_of (by decide +kernel), segs_of (by decide +kernel)⟩

/-- CopiesMoveTheirRanges: a rectangle of one row, in and out. -/
def rect0 : State := copyState 1 { capa := 0x10000, capb := 0x0000004000010040 }
theorem wit_rectangles : rowsOf (rect0.entry 2).capb = 1 ∧
    (∃ u, rect0.rowIn 2 (0x10000 + 0 * pitchOf (rect0.entry 2).capb) (rowBytesOf (rect0.entry 2).capb) 0x100 0 (skewOf (rect0.entry 2).capb)
      (fun s l => if (0 : Nat) = 0 then s.copyAcquire 0 0 l.head? else s) = .ok () u) ∧
    ∃ l u, rect0.segs 2 .write 0x10000 64 (segFuel 64) = .ok l u ∧ l ≠ [] ∧ (∀ g ∈ l, g.pg.fmt = 1) ∧
      okAnd (u.moveOut 2 l (fun o => rectPlace false 64 0x100 (0 * 64 + o)) 0x10000) (fun _ v =>
        okX (v.translate v.cur (BitVec.ofNat 64 (0x10000 + (1 - 1) * 64 + 64 - 1)) .write)) = true :=
  ⟨by decide +kernel, unitOk (by decide +kernel), segs_of (by decide +kernel)⟩

/-- CopiesMoveTheirRanges: exactly one line, of which the translation stands in the caches already. -/
def settled (k : Kind) : State :=
  let s := line2 0 0x10000 64
  match s.translate s.cur 0x10000 k with | .ok _ u => u | _ => s
theorem wit_oneLine (k : Kind) (acc : Nat) (h : k = .read ∧ acc = 0 ∨ k = .write ∧ acc = 1) :
    ∃ pg, (settled k).translate (settled k).cur ((settled k).entry 2).capa k = .ok pg (settled k) ∧ 0x10000 % 64 + 64 ≤ 64 ∧ 64 ≤ pg.left ∧ pg.fmt = 0 ∧
      pg.enc = false ∧ (settled k).enc = [] ∧ (settled k).Inv ∧ (settled k).cur < 144 * 256 ∧ 0x2FFFC0 + 64 ≤ padSize ∧
      (settled k).padRace (span 0x2FFFC0 64) = none ∧ ((settled k).ring 2).queue ≠ [] ∧ ((settled k).entry 2).raisek = 0 ∧ PlainAccess (settled k) pg 64 acc := by
  have key (h : (match (settled k).translate (settled k).cur ((settled k).entry 2).capa k with
      | .ok pg u => decide (u = settled k) && decide (64 ≤ pg.left) && decide (pg.fmt = 0) && !pg.enc && plainB (settled k) pg 64 acc
      | _ => false) = true) : ∃ pg, (settled k).translate (settled k).cur ((settled k).entry 2).capa k = .ok pg (settled k) ∧ 64 ≤ pg.left ∧ pg.fmt = 0 ∧
      pg.enc = false ∧ PlainAccess (settled k) pg 64 acc := by
    split at h
    · next pg u e =>
      simp only [Bool.and_eq_true, decide_eq_true_eq, Bool.not_eq_true'] at h
      exact ⟨pg, h.1.1.1.1 ▸ e, h.1.1.1.2, h.1.1.2, h.1.2, plain_of h.2⟩
    · cases h
  rcases h with ⟨rfl, rfl⟩ | ⟨rfl, rfl⟩
  all_goals
    have ⟨pg, a, b, c, d, e⟩ := key (by decide +kernel)
    exact ⟨pg, a, by decide, b, c, d, by decide +kernel, inv_of (by decide +kernel), by decide +kernel, by decide, by decide +kernel, by decide +kernel, by decide +kernel, e⟩

/-- CopiesWorkThroughTheirLists: one line copied; a conversion of one frame; a list of one index and one of all ones, in and out. -/
def ccpy0 : State := copyState 1 { capa := 0x20000, capb := 0x10000 }
theorem wit_ccpy : (∃ r u, ccpy0.pairFmt 0x10000 0x20000 (64 * 1) = .ok r u) ∧
    okAnd (ccpy0.pairFmt 0x10000 0x20000 (64 * 1)) (fun _ u => okAnd (u.rangeRead 2 (0x10000 + 64 * 0) 64) fun bs w =>
      okAnd (w.rangeWrite 2 .write (0x20000 + 64 * 0) bs) fun _ _ => true) = true :=
  ⟨by have ⟨r, u, h⟩ := isOk_spec (r := ccpy0.pairFmt 0x10000 0x20000 (64 * 1)) (by decide +kernel); exact ⟨r, u, h⟩, by decide +kernel⟩

set_option maxRecDepth 6000 in
/-- CopiesWorkThroughTheirLists: ccvt. -/
theorem wit_ccvt : okAnd (ccpy0.segs 2 .read 0x10000 4096 (segFuel 4096)) (fun a u => !a.isEmpty && a.all (fun g => g.pg.fmt == 1) && ccvtCode 1 &&
    okAnd (u.segs 2 .write 0x20000 4096 (segFuel 4096)) fun b v => b.all (fun g => g.pg.fmt == 1) && decide (v.me.upsets = []) &&
      okAnd (State.gather 2 (allLines a) v) fun bs w => okAnd (State.scatter 2 (allLines b) (toFrames 1 0 false (frameValues 1 bs)) w) fun _ _ => true) = true := by
  decide +kernel

def listed (i : W64) : State := copyState 1 { capa := 0x10000, capb := 0x0000000100000100 } [(padBase 0 + 0x100, i)]
theorem wit_lists : (∀ i : W64, i = 5 ∨ i = 0xFFFFFFFF →
      okAnd ((listed i).padRead 2 (span 0x100 (4 * 1))) (fun lst u => decide ((unpackBytes 32 1 lst).getD 0 0 = i.toNat) &&
        okAnd (u.elemBytes .read 0x10000) (fun w v => decide (w = 2) &&
          (if i = 0xFFFFFFFF then okAnd (v.padWrite 2 (span (0x400 + 0 * w) w) (List.replicate w 0)) fun _ _ => true
          else okAnd (v.elemBytes .read (0x10000 + 5 * w)) fun _ z1 => okAnd (z1.rangeRead 2 (0x10000 + 5 * w) w) fun bs z2 =>
            okAnd (z2.padWrite 2 (span (0x400 + 0 * w) w) bs) fun _ _ => true)) &&
        okAnd (u.elemBytes .write 0x10000) (fun w v => decide (i = 0xFFFFFFFF) ||
          okAnd (v.elemBytes .write (0x10000 + 5 * w)) fun _ z1 => okAnd (z1.padRead 2 (span (0x400 + 0 * w) w)) fun bs z2 =>
            okAnd (z2.rangeWrite 2 .write (0x10000 + 5 * w) bs) fun _ z3 => okX (z3.translate z3.cur (BitVec.ofNat 64 (0x10000 + 5 * w)) .write))) = true) ∧
    inWindow (0x10000 + 5 * 2) = false :=
  ⟨fun i h => by rcases h with rfl | rfl <;> decide +kernel, by decide⟩

/-- CopiesWorkThroughTheirLists: a batch of one record, for each operation. -/
def batch0 : State := copyState 0x13 { capa := 0x10000, capb := 1 } [(padBase 0 + 0x100, 2), (padBase 0 + 0x108, 7)]
theorem wit_batches : (batch0.ring 2).prog.pos = 0 ∧ ∀ op, op < 5 → okAnd (batch0.batchOne op 0x100 (0 + 0)) (fun _ _ => true) = true :=
  ⟨rfl, by decide +kernel⟩

/-- CopiesFillTagAndSignal. -/
def fill0 : State := copyState 1 { capa := 0x10000, capb := 16, group := [0] }
theorem wit_fills :
    (∃ l u, fill0.segs 2 .write 0x10000 (64 * 1) (segFuel (64 * 1)) = .ok l u ∧ (∀ g ∈ l, g.pg.fmt ≠ 0 ∧ blockCode g.pg.fmt = false) ∧
      okAnd (State.each (fun g t => t.lineWrite 2 g (fillBytes (fmtBits g.pg.fmt) 16 g.len)) (allLines l) u) (fun _ _ => true) = true) ∧
    ((∃ u, fill0.padWrite 2 (span 0x2FFFF0 16) ((List.replicate (16 / 8) (wordBytes 0x10000)).flatten) = .ok () u) ∧ 0x2FFFF0 + 16 ≤ padSize ∧ fill0.Inv ∧
      fill0.enc = [] ∧ fill0.cur < 144 * 256) ∧
    (fill0.soft = [] ∧ okAnd (fill0.padRead 2 (span 0x2FFFF0 16)) (fun bs u => okAnd (u.padWrite 2 (span 0x100 16) bs) fun _ _ => true) = true) ∧
    (let keys := (fill0.entry 2).group.filterMap fun m => fill0.me.slice.bind fun sk => fill0.sliceCoreKey sk m
     keys = [0] ∧ okAnd (fill0.padRead 2 (span 0x100 16)) (fun bs u => okAnd (State.each (fun mk t => t.windowWrite mk 0x10000 bs) keys u) fun _ _ => true) = true) ∧
    fill0.tagQ = [] := by
  refine ⟨?_, ⟨unitOk (by decide +kernel), by decide, inv_of (by decide +kernel), rfl, by decide +kernel⟩, ⟨rfl, by decide +kernel⟩,
    ⟨by decide +kernel, by decide +kernel⟩, rfl⟩
  refine okP (fun l u => l.all (fun g => decide (g.pg.fmt ≠ 0) && !blockCode g.pg.fmt) &&
    okAnd (State.each (fun g t => t.lineWrite 2 g (fillBytes (fmtBits g.pg.fmt) 16 g.len)) (allLines l) u) fun _ _ => true) (fun l u h => ?_) (by decide +kernel)
  simp only [Bool.and_eq_true, List.all_eq_true, decide_eq_true_eq, Bool.not_eq_true'] at h
  exact h
theorem wit_signals :
    (∃ pg u, fill0.engPage 2 0x10000 .atomic = .ok pg u ∧ okAnd (engAcc 2 0x10000 pg.pa (u.atomicAt u.cur pg (· + 16))) (fun _ _ => true) = true) ∧
    (∃ pg u, fill0.engPage 2 0x10000 .write = .ok pg u ∧ okAnd (u.lineWrite 2 { va := 0x10000, len := 8, pg := pg } (wordBytes 16)) (fun _ _ => true) = true) ∧
    (64 * (1 : BitVec 20).toNat / 65536 + 1 = 1 ∧ ∃ pg u, fill0.translate fill0.cur (0x10000 + BitVec.ofNat 64 (65536 * 0)) .read = .ok pg u) ∧
    (∀ pg z, fill0.translate fill0.cur (0xFFFF000000000000 + BitVec.ofNat 64 (65536 * 0)) .read ≠ .ok pg z) := by
  refine ⟨okP _ (fun _ _ h => h) (by decide +kernel), okP _ (fun _ _ h => h) (by decide +kernel), ⟨by decide, ?_⟩, fun pg z h => ?_⟩
  · have h : okX (fill0.translate fill0.cur (0x10000 + BitVec.ofNat 64 (65536 * 0)) .read) = true := by decide +kernel
    revert h; cases fill0.translate fill0.cur (0x10000 + BitVec.ofNat 64 (65536 * 0)) .read <;> intro h
    · exact ⟨_, _, rfl⟩
    · cases h
    · cases h
  · have : okX (fill0.translate fill0.cur (0xFFFF000000000000 + BitVec.ofNat 64 (65536 * 0)) .read) = false := by decide +kernel
    rw [h] at this; cases this

/-- CopiesFillTagAndSignal: a copy whose follow-on is held. -/
def followed : State :=
  mapped 1 [] { thCore [] with cring := { queue := [{ seq := 4 }], wp := 1 }, mring := { queue := [{ held := true, seq := 5 }], wp := 1 } }
theorem wit_followOn : (followed.ring 1).queue = { held := true, seq := 5 } :: [] ∧ (5 : W64) = (followed.entry 2).seq + 1 ∧ (followed.entry 2).raisek = 0 :=
  ⟨rfl, by decide +kernel, rfl⟩

/-! ### Sketches -/

/-- A set of one slot of 8 bytes with a sketch of three cells (Table 12.6), by a core that works at physical addresses. -/
def setWords (region key : W64) : List (Nat × W64) :=
  [(0x20000, region), (0x20008, 0x0000000800000001), (0x20010, 0x20100), (0x20018, BitVec.ofNat 64 (3 * 2 ^ 41 + 3 * 2 ^ 23)), (0x20020, 0x20200), (0x20028, 0x20300),
   (0x20030, 0x0001000000020400), (0x20040, 0x40000000), (0x20208, 3), (0x20308, 3), (0x40000000, key), (padBase 145 + 0x100, 7)]
def setState (key : W64) (more : List (Nat × W64)) : State :=
  { one 145 { fwCore [] with skCells := 3, skGrow := 2, skRounds := 4, cring := { queue := [{ capa := 0x20000, capb := 0x0000000100000100 }], wp := 1 } } with
    mem := words (setWords 0x40000000 key ++ more) }

def cskB (s : State) (init : Bool) (body : SetDesc → State → Res (Option Nat)) : Bool :=
  okAnd ((s.descAcquire 0 0).takeLock (s.entry 2).capa.toNat) fun _ u => okAnd (u.readSet init) fun d v => okAnd (body d v) fun _ _ => true
def CskPremises (s : State) (init : Bool) (body : SetDesc → State → Res (Option Nat)) : Prop :=
  ∃ u d v last w, (s.descAcquire 0 0).takeLock (s.entry 2).capa.toNat = .ok () u ∧ u.readSet init = .ok d v ∧ body d v = .ok last w
theorem csk_of {s : State} {init : Bool} {body : SetDesc → State → Res (Option Nat)} (h : cskB s init body = true) : CskPremises s init body := by
  have ⟨⟨⟩, u, e, h⟩ := okAnd_spec h
  have ⟨d, v, f, h⟩ := okAnd_spec h
  have ⟨last, w, g, _⟩ := okAnd_spec h
  exact ⟨u, d, v, last, w, e, f, g⟩

/-- SketchFormsRunUnderLock: an initialisation with the least C; an entry inserted, and a key deleted; a valid header; one with a difference;
the rounds used up and left; room at the peer and none; a broken descriptor; a C that is none. -/
theorem wit_sketchInit : (setState 0 []).me.skCells.fld 0 18 % 3 = 0 ∧ 3 ≤ (setState 0 []).me.skCells.fld 0 18 ∧ (setState 0 []).me.skCells.fld 0 18 ≤ 196605 ∧
    CskPremises (setState 0 []) true (fun d v => (v.setProg fun p => { p with pos := 0, n := 0 }).zeroHeader d |>.then_ fun _ x =>
      (x.clearSlots d 0 d.cap).then_ fun _ x => (x.rebuild d 3 (3 + d.cap + 1)).then_ fun _ x => x.setDone d 0x1E 0 x.prog.n 0 3 0 0 none) ∧
    ((fw []).me.skCells.fld 0 18 < 3) :=
  ⟨by decide +kernel, by decide +kernel, by decide +kernel, csk_of (by decide +kernel), by decide +kernel⟩
theorem wit_sketchInsert : CskPremises (setState 0 []) false (fun d v => (v.padRead 2 (span 0x100 (1 * d.esize))).then_ fun bs x =>
    (x.setEach (fun z t => t.setInsert d z) 0 (pieces d.esize 1 bs)).then_ fun k x => x.setDone d 0x1F 0 k (1 - k) d.c d.round d.nout none) :=
  csk_of (by decide +kernel)
theorem wit_sketchDelete : CskPremises (setState 7 []) false (fun d v => (v.padRead 2 (span 0x100 (8 * 1))).then_ fun bs x =>
    (x.setEach (fun z t => t.setDelete d (bytesWord z)) 0 (pieces 8 1 bs)).then_ fun k x => x.setDone d 0x20 0 k (1 - k) d.c d.round d.nout none) :=
  csk_of (by decide +kernel)
theorem wit_sketchXchg : CskPremises (setState 0 [(0x20200, 0x0000000001000003)]) false (fun d v => (v.readHeader d).then_ fun h x =>
    if hdrValid h = true ∧ hdrDiff h = false ∧ h.fld 0 18 = d.c ∧ h.fld 20 4 = d.round then (x.subtract d (d.c + 1)).then_ fun _ x =>
      (x.putAll [(.write, d.rx, wordBytes (h ||| BitVec.ofNat 64 (2 ^ 25)))]).then_ fun _ x => x.setDone d 0x22 0 0 0 d.c d.round d.nout none
    else .stop x) := csk_of (by decide +kernel)
theorem wit_sketchPeel : CskPremises (setState 0 [(0x20200, 0x0000000003000003)]) false (fun d v => (v.readHeader d).then_ fun h x =>
    if hdrDiff h = true then (x.peel d ((d.outcap + 2) * (d.c + 1))).then_ fun full x => (x.cellsLeft d 0 (List.range d.c)).then_ fun left x =>
      (x.putAll [(.write, d.rx, wordBytes (h &&& ~~~(BitVec.ofNat 64 (2 ^ 24))))]).then_ fun _ x =>
        x.setDone d 0x23 (if full = 3 then 3 else if left = 0 then 0 else 1) x.prog.n left d.c d.round x.prog.n none
    else .stop x) := csk_of (by decide +kernel)
theorem wit_sketchFetch : CskPremises (setState 0 []) false (fun d v => (v.fetchAll d false (d.nout + 1)).then_ fun _ x =>
    x.setDone d 0x24 0 x.prog.a x.prog.b d.c d.round d.nout none) := csk_of (by decide +kernel)
theorem wit_sketchResize : (setState 0 []).prog.flag = false ∧ (fw []).me.skGrow.fld 0 4 < 2 ∧ 2 ≤ (setState 0 []).me.skGrow.fld 0 4 ∧
    CskPremises (setState 0 [(0x20018, BitVec.ofNat 64 (3 * 2 ^ 41 + 6 * 2 ^ 23))]) false (fun d v =>
      if d.round ≠ 4 ∧ d.c * 2 ≤ d.skmax then (v.allMay [(.write, d.at_ + 24, List.replicate 8 0)]).then_ fun _ x => (x.zeroHeader d).then_ fun _ x =>
        (x.putAll [(.write, d.at_ + 24, wordBytes (d.word3 true (d.c * 2) (d.round + 1) d.nout))]).then_ fun _ x =>
          ((x.setProg fun p => { p with flag := true, pos := 0, n := 0 }).rebuild d (d.c * 2) (d.c * 2 + d.cap + 1)).then_ fun _ x =>
            x.setDone d 0x25 0 x.prog.n (d.c * 2) (d.c * 2) (d.round + 1) d.nout none
      else .stop v) :=
  ⟨rfl, by decide +kernel, by decide +kernel, csk_of (by decide +kernel)⟩
theorem wit_sketchSend : (okAnd ((setState 0 []).descAcquire 0 0 |>.readSet false) fun d u => okAnd (u.setWordAt (d.peerRx + 8)) fun w1 v => decide (d.c ≤ w1.fld 0 18) &&
      okAnd (v.takeLock d.at_) fun _ x1 => okAnd (x1.readSet false) fun d2 x2 => okAnd (x2.setRead d2.sketch (32 * d2.c)) fun bs x3 =>
        okAnd (x3.giveLock d2 d2.c d2.round d2.nout) fun _ x4 => okAnd (x4.putAll [(.write, d2.peerRx + 32, bs)]) fun _ x5 => !inWindow d2.peerRx &&
          okAnd (x5.engPage 2 d2.peerRx .write) fun pg x6 =>
            okAnd (x6.lineWrite 2 { va := d2.peerRx, len := 8, pg := pg } (wordBytes (header d2.c d2.round true false))) fun _ x7 =>
              okAnd (((x7.countRelease x7.cur).stamp x7.cur 3 pg.pa 8).setDone d2 0x21 0 0 0 d2.c d2.round d2.nout none) fun _ _ => true) = true ∧
    (okAnd ((setState 0 [(0x20308, 2)]).descAcquire 0 0 |>.readSet false) fun d u => okAnd (u.setWordAt (d.peerRx + 8)) fun w1 _ => decide (w1.fld 0 18 < d.c)) = true :=
  ⟨by decide +kernel, by decide +kernel⟩
theorem wit_sketchBroken : (okAnd ((setState 0 [(0x20008, 0)]).descAcquire 0 0 |>.takeLock ((setState 0 []).entry 2).capa.toNat) fun _ u =>
    match u.readSet false with | .stop _ => true | .ok _ _ => false) = true := by decide +kernel

/-- SetsInsertAndDelete: a key present and one absent; a full region; a key that cannot be a member; the least C. -/
def setDesc0 : SetDesc := { at_ := 0x20000, ws := [0x40000000, 0x0000000800000001, 0x20100, BitVec.ofNat 64 (3 * 2 ^ 41 + 3 * 2 ^ 23)] }
theorem wit_sets : bytesWord (wordBytes 7) = 7 ∧ (7 : W64) ≠ 0 ∧ (7 : W64) ≠ BitVec.allOnes 64 ∧ (3 : Nat) % 3 = 0 ∧
    okAnd ((setState 7 []).find setDesc0 setDesc0.region 7) (fun f _ => f == (true, some 0)) = true ∧
    okAnd ((setState 9 []).find setDesc0 setDesc0.region 7) (fun f _ => f == (false, none)) = true ∧
    okAnd ((setState 0 []).find setDesc0 setDesc0.region 7) (fun f u => f == (false, some 0) &&
      okAnd (u.addPuts setDesc0.sketch 7 true (cellsOf setDesc0.c 7)) fun l v =>
        okAnd (v.putAll ((.set, setDesc0.region + 0 * setDesc0.esize, wordBytes 7) :: l)) fun _ _ => true) = true ∧
    okAnd ((setState 7 []).find setDesc0 setDesc0.region 7) (fun _ u => okAnd (u.addPuts setDesc0.sketch 7 false (cellsOf setDesc0.c 7)) fun l v =>
      okAnd (v.putAll ((.set, setDesc0.region + 0 * setDesc0.esize, List.replicate 8 (BitVec.allOnes 8) ++ List.replicate (setDesc0.esize - 8) 0) :: l))
        fun _ _ => true) = true :=
  ⟨by decide +kernel, by decide, by decide, by decide, by decide +kernel, by decide +kernel, by decide +kernel, by decide +kernel⟩

/-! ### Reductions and transfers -/

/-- A context of two members and one element on switch 0, with the parts of some members. -/
def ctx0 (valid : Bool) (parts : Tab (List Byte)) : RedCtx :=
  { valid := valid, op := 0, fmt := 0x15, wide := false, m := 2, n := 1, tmo := 1, parts := parts, last := some { round := 0xFFFFFFFF, state := 0, result := [], missing := [] } }
def redState (c : RedCtx) (e : Entry) : State :=
  { copyState 1 e window0 with switches := [(0, { ctxs := [(0, c)] })], clock := usCycles, pkgs := [(0, { ready := BitVec.allOnes 64 })] }

/-- ReductionsCombineInMemberOrder, a contribution: no valid context, another N, a broadcast; a member too high; another round; a second one; one
that leaves the round open; the last one. -/
theorem wit_contributions : (((redState (ctx0 true []) {}).switch 0).ctxs.get? 0 = some (ctx0 true []) ∧ (ctx0 true []).op < 3) ∧ (ctx0 false []).valid = false ∧
    (0x0000000000020000 : W64).fld 16 16 ≠ (ctx0 true []).n ∧ ((ctx0 true []).valid = true ∧ (0x0000000000010001 : W64).fld 16 16 = (ctx0 true []).n) ∧
    (ctx0 true []).m ≤ (0x0000000000010002 : W64).fld 0 8 ∧ ((0x0000000100010001 : W64).fld 0 8 < (ctx0 true []).m ∧ (0x0000000100010001 : W64).fld 32 32 ≠ (ctx0 true []).round) ∧
    ((0x0000000000010001 : W64).fld 32 32 = (ctx0 true []).round ∧ ((ctx0 true [(1, [])]).parts.get? ((0x0000000000010001 : W64).fld 0 8)).isSome = true) ∧
    ((ctx0 true []).parts.get? 1 = none ∧ ∃ j, j < (ctx0 true []).m ∧ j ≠ 1 ∧ (ctx0 true []).parts.get? j = none) ∧
    ((ctx0 true [(0, [1, 0, 0, 0])]).parts.get? 1 = none ∧ ∀ j, j < (ctx0 true [(0, [1, 0, 0, 0])]).m → j ≠ 1 → (ctx0 true [(0, [1, 0, 0, 0])]).parts.get? j ≠ none) :=
  ⟨⟨rfl, by decide⟩, rfl, by decide +kernel, ⟨rfl, by decide +kernel⟩, by decide +kernel, ⟨by decide +kernel, by decide +kernel⟩,
    ⟨by decide +kernel, by decide +kernel⟩, ⟨rfl, 0, by decide, by decide, rfl⟩, rfl, by decide⟩

def accepts (r : Except (Nat × Option Nat) State) : Bool := match r with | .ok _ => true | .error _ => false
/-- Its events: a contribution that is taken and one that is refused; a load of the open round and of the last; a round past its time-out. -/
theorem wit_reductionEvents : (region (BitVec.ofNat 64 (swPa 0 0)).toNat = .switch 0 0 ∧
      accepts ((redState (ctx0 true []) {}).redContribute 0 0 false 0x0000000000010001 [1, 0, 0, 0]) = true ∧
      accepts ((redState (ctx0 true []) {}).redContribute 0 0 false 0x0000000000010002 [1, 0, 0, 0]) = false) ∧
    (((redState (ctx0 true []) {}).switch 0).answers.get? (0 * 256 + 0) = none ∧ (0x0000000000010000 : W64).fld 32 32 = (ctx0 true []).round ∧
      (ctx0 true []).last = some { round := 0xFFFFFFFF, state := 0, result := [], missing := [] } ∧ 0xFFFFFFFF = (0xFFFFFFFF00010000 : W64).fld 32 32 ∧
      (0xFFFFFFFF00010000 : W64).fld 32 32 ≠ (ctx0 true []).round ∧ (0xFFFFFFFF00010000 : W64).fld 16 16 = (ctx0 true []).n) ∧
    ((ctx0 true [(0, [])]).parts ≠ [] ∧ (ctx0 true [(0, [])]).tmo * usCycles ≤ (redState (ctx0 true [(0, [])]) {}).clock - (ctx0 true [(0, [])]).start) :=
  ⟨⟨by decide +kernel, by decide +kernel, by decide +kernel⟩, ⟨rfl, by decide +kernel, rfl, by decide +kernel, by decide +kernel, by decide +kernel⟩, by decide, by decide +kernel⟩

/-- What a request does that its switch takes. -/
theorem atSwitch_eq {s : State} {va sw off pa : Nat} {f : State → Except (Nat × Option Nat) (Option Nat × State)} (hp : swPa sw off = pa)
    (h0 : s.portFull pa = false)
    (h1 : s.homeRefuses (s.party s.cur) pa 64 2 false = none) (h2 : (s.fabric s.cur pa).2.1 = none) :
    s.atSwitch va sw off f = (match f (s.fabric s.cur pa).2.2.2 with
        | .ok (v, t) => .ok v (t.cacheOwn t.cur pa (s.fabric s.cur pa).2.2.1 0)
        | .error (c, v) => .stop ((s.fabric s.cur pa).2.2.2.park 2 c (BitVec.ofNat 64 (v.getD va)) 0)) := by
  unfold State.atSwitch
  rw [hp]
  clear hp
  unfold State.atSwitchPa
  rw [h0]
  generalize s.homeRefuses (s.party s.cur) pa 64 2 false = r at h1 ⊢
  generalize s.fabric s.cur pa = x at h2 ⊢
  obtain ⟨d, a, q, t⟩ := x
  cases h1
  cases h2
  dsimp only
  cases f t <;> rfl

theorem atSwitch_of {s : State} {va sw off pa : Nat} (hp : swPa sw off = pa) (h0 : s.portFull pa = false) (h1 : s.homeRefuses (s.party s.cur) pa 64 2 false = none)
    (h2 : (s.fabric s.cur pa).2.1 = none) : ∃ w n, w = (s.fabric s.cur pa).2.2.2 ∧
      ∀ f : State → Except (Nat × Option Nat) (Option Nat × State), s.atSwitch va sw off f = (match f w with
        | .ok (v, t) => .ok v (t.cacheOwn t.cur pa n 0)
        | .error (c, v) => .stop (w.park 2 c (BitVec.ofNat 64 (v.getD va)) 0)) :=
  ⟨_, _, rfl, fun _ => atSwitch_eq hp h0 h1 h2⟩

/-- The requester's side: a contribution; an answer, with a lost allocation and with a live one; a drop; a context set up. -/
def contributing : State := redState (ctx0 true []) { capa := 0xF00000000000, capb := 0x0000000000010001 }
def lost : State :=
  { copyState 1 { capa := 0xF00000000000 } [(satBlock 0 1, 0xCC00F00000000000), (satBlock 0 1 + 8, 0x10000)] with switches := [(0, { answers := [(0, [1, 2])] })] }
def answered : State :=
  { copyState 1 { capa := 0xF00000000000 } window0 with switches := [(0, { answers := [(0, [1, 2])] })] }
theorem wit_requester :
    (okAnd (contributing.redPlace 0xF00000000000) (fun p u => p == some (0, 0, satBlock 0 1) && okAnd (u.padRead 2 (span 0x100 (1 * 32 / 8))) fun bs v =>
      okAnd (v.atSwitch 0xF00000000000 0 0 fun t => match t.redContribute 0 0 false 0x0000000000010001 bs with
        | .ok t => .ok (some (swPa 0 0), t)
        | .error f => .error f) fun _ _ => true) = true) ∧
    (lost.answer = some [1, 2] ∧ okAnd (lost.redPlace 0xF00000000000) (fun p u => p == none && decide (u = lost)) = true ∧
      (∃ w, lost.padWrite 2 (span 0x100 [1, 2].length) [(1 : Byte), 2] = .ok () w)) ∧
    (answered.answer = some [1, 2] ∧ okAnd (answered.redPlace 0xF00000000000) (fun p u => p == some (0, 0, satBlock 0 1) && decide (u = answered)) = true ∧
      (∃ w, (answered.copyAcquire 0 0 (some { va := 0xF00000000000, len := 64, pg := { pa := swPa 0 0, left := 64 } })).padWrite 2
        (span 0x100 [1, 2].length) [(1 : Byte), 2] = .ok () w)) ∧
    (contributing.answer = none ∧ contributing.portFull (swPa 0 0) = false ∧ contributing.homeRefuses (contributing.party contributing.cur) (swPa 0 0) 64 2 false = none ∧
      (contributing.fabric contributing.cur (swPa 0 0)).2.1 = none ∧ ((contributing.fabric contributing.cur (swPa 0 0)).2.2.2.switch 0).ctxs.get? 0 = some (ctx0 true [])) ∧
    ((contributing.me.slice.bind fun sk => contributing.swEntry sk 0xF00000000000) = some (satBlock 0 1) ∧ (contributing.word (satBlock 0 1)).fld 62 2 = 1 ∧
      (contributing.word (satBlock 0 1)).fld 60 2 = 0 ∧ (contributing.word (satBlock 0 1)).fld 59 1 = 1 ∧ (contributing.word (satBlock 0 1)).fld 58 1 = 1 ∧
      64 + ((0x10802 : BitVec 20).fld 0 8 + 2) * up64 (4 * (0x1 : W64).fld 0 16) ≤
        (contributing.word (satBlock 0 1)).fld 0 48 + (contributing.word (satBlock 0 1 + 8)).toNat - 0xF00000000000) :=
  ⟨by decide +kernel, ⟨rfl, by decide +kernel, unitOk (by decide +kernel)⟩, ⟨rfl, by decide +kernel, unitOk (by decide +kernel)⟩,
    ⟨rfl, by decide +kernel, by decide +kernel, by decide +kernel, by decide +kernel⟩,
    by decide +kernel, by decide +kernel, by decide +kernel, by decide +kernel, by decide +kernel, by decide +kernel⟩

/-- TransfersMatchMoveAndEnd: a descriptor of one page that is posted, one that is broken, and one already posted. -/
def kvWords (len : W64) : List (Nat × W64) := [(0x20000, 0x0000000500000000), (0x20008, 2), (0x20010, 0x21000), (0x20018, len), (0x21000, 0x30000)]
def half (id : Nat) (pull : Bool) (peer : Option Nat) (ep : W64) (pages : W64) : KvHalf :=
  { id := id, core := if pull then 1 else 0, seq := 3, pull := pull, words := [0x0000000500000000, ep, 0x21000, 0x0000000100000000 + pages, 0, 0, 0, 0]
    desc := (0x20000, false), pages := [(if pull then 0x40000 else 0x30000, false, false)], peer := peer }
def kvState (len : W64) (l : List KvHalf) : State :=
  { fw [] with
    cores := [(0, thCore []), (1, { thCore [] with slcore := 1 }), (145, { fwCore [] with cring := { queue := [{ capa := 0x20000, seq := 4 }], wp := 1 } })]
    mem := words (kvWords len), transfers := l, pkgs := [(0, { ready := BitVec.allOnes 64, endpoints := [(2, 1)] })] }
theorem wit_post :
    (okAnd ((kvState 0x0000000100000001 []).descAcquire 0 0 |>.rangeRead 2 0x20000 64) fun bs u =>
      let ws := wordsOf bs
      decide (kvBroken ws = false) && u.transfers.isEmpty && okAnd (u.rangeRead 2 (kvList ws) (8 * kvPages ws)) fun lbs v =>
        (wordsOf lbs).all (fun a => a.toNat % kvPageSize ws == 0) && decide ((v.pkg (ckNode 145)).ready.fld (36 + dieOf (ckCore 145)) 1 ≠ 0) &&
        v.me.slice.isNone &&
        okAnd (v.kvTranslate .write (kvParts ws (wordsOf lbs))) fun _ w => okAnd (w.engPage 2 (0x20000 + 32) .write) fun pg x =>
          okAnd (x.lineWrite 2 { va := 0x20000 + 32, len := 8, pg := pg } (List.replicate 8 0)) fun _ _ => true) = true ∧
    (okAnd ((kvState 0x0000000100000000 []).descAcquire 0 0 |>.rangeRead 2 0x20000 64) fun bs _ => kvBroken (wordsOf bs)) = true ∧
    (okAnd ((kvState 0x0000000100000001 [{ half 7 false none 2 1 with core := 145 }]).descAcquire 0 0 |>.rangeRead 2 0x20000 64) fun bs u =>
      u.transfers.any fun h => h.core == 145 && kvXid h.words == kvXid (wordsOf bs) && kvPeer h.words == kvPeer (wordsOf bs)) = true ∧
    (let s := kvState 1 (List.replicate 64 { half 7 false none 2 1 with core := 145 })
     64 ≤ (s.transfers.filter fun h => h.core == s.cur).length) ∧
    (let s := kvState 1 (List.replicate 63 { half 7 false none 2 1 with core := 145 })
     (s.transfers.filter fun h => h.core == s.cur).length < 64) :=
  ⟨by decide +kernel, by decide +kernel, by decide +kernel, by decide +kernel, by decide +kernel⟩

/-- TransfersMatchMoveAndEnd: nothing earlier left and an earlier half left; two halves that meet, and that disagree; a page that lands last; a half
before and past its time-out; the end of a matched one. -/
def meeting (pages : W64) : State :=
  { kvState 1 [half 1 false none 2 1, half 2 true none 3 pages] with
    slices := [(0, { bound := true })], mem := words (tables 1), pkgs := [(0, { ready := BitVec.allOnes 64, endpoints := [(2, 1), (3, 1)] })] }
def landing : State := { meeting 1 with transfers := [half 1 false (some 2) 2 1, half 2 true (some 1) 3 1] }
/-- The transfer after its first lines have moved, and whether each of these did. -/
def lineOf : Nat → State
  | 0 => landing
  | n + 1 => ((lineOf n).kvMove (half 1 false (some 2) 2 1) (half 2 true (some 1) 3 1) (kvAt (0x30000, false, false) n) (kvAt (0x40000, false, false) n)).2
def moves : Nat → State → Bool
  | 0, _ => true
  | n + 1, s => match s.kvMove (half 1 false (some 2) 2 1) (half 2 true (some 1) 3 1) (kvAt (0x30000, false, false) (63 - n)) (kvAt (0x40000, false, false) (63 - n)) with
    | (some _, _) => false
    | (none, s) => moves n s
theorem lines_move (h : moves 64 landing = true) : ∀ i, i < 64 → (lineOf i).kvMove (half 1 false (some 2) 2 1) (half 2 true (some 1) 3 1)
    (kvAt (0x30000, false, false) i) (kvAt (0x40000, false, false) i) = (none, lineOf (i + 1)) := by
  have key : ∀ n, n ≤ 64 → moves n (lineOf (64 - n)) = true → ∀ i, 64 - n ≤ i → i < 64 → (lineOf i).kvMove (half 1 false (some 2) 2 1)
      (half 2 true (some 1) 3 1) (kvAt (0x30000, false, false) i) (kvAt (0x40000, false, false) i) = (none, lineOf (i + 1)) := by
    intro n
    induction n with
    | zero => intro _ _ i a b; omega
    | succ n ih =>
      intro hn hm i a b
      have e : 63 - n = 64 - (n + 1) := by omega
      have f : 64 - n = 64 - (n + 1) + 1 := by omega
      rw [moves, e] at hm
      split at hm
      · cases hm
      · next t ht =>
        by_cases c : i = 64 - (n + 1)
        · subst c; rw [lineOf, ht]
        · refine ih (by omega) ?_ i (by omega) b
          rw [f, lineOf, ht]; exact hm
  exact fun i hi => key 64 (Nat.le_refl _) h i (Nat.zero_le _) hi
/-- The last line fails: the page of the sender is poisoned there. -/
def spoilt : State := { landing with poison := [0x30000] }
theorem wit_transfers : (∀ h ∈ (kvState 1 []).transfers, h.core = (kvState 1 []).cur → ((kvState 1 []).entry 2).seq.toNat ≤ h.seq.toNat) ∧
    (∃ h ∈ (kvState 1 [{ half 7 false none 2 1 with core := 145 }]).transfers, h.core = 145 ∧ h.seq.toNat < ((kvState 1 []).entry 2).seq.toNat) ∧
    (∀ pages : W64, pages = 1 ∨ pages = 2 → (meeting pages).kvHalf 1 = some (half 1 false none 2 1) ∧ (meeting pages).kvHalf 2 = some (half 2 true none 3 pages) ∧
      (meeting pages).kvMeet (half 1 false none 2 1) (half 2 true none 3 pages) = true ∧ (half 1 false none 2 1).pull = false ∧ (half 2 true none 3 pages).pull = true) ∧
    (kvPages (half 1 false none 2 1).words = kvPages (half 2 true none 3 1).words ∧ kvPages (half 1 false none 2 1).words ≠ kvPages (half 2 true none 3 2).words) ∧
    (landing.kvHalf 2 = some (half 2 true (some 1) 3 1) ∧ (half 2 true (some 1) 3 1).peer.bind landing.kvHalf = some (half 1 false (some 2) 2 1) ∧
      (half 2 true (some 1) 3 1).landed = 0 ∧ kvPsz (half 2 true (some 1) 3 1).words = 0 ∧
      landing.kvFull (half 1 false (some 2) 2 1) (half 2 true (some 1) 3 1) 0 1 = false ∧ moves 64 landing = true ∧
      (spoilt.kvMove (half 1 false (some 2) 2 1) (half 2 true (some 1) 3 1) (kvAt (0x30000, false, false) 0) (kvAt (0x40000, false, false) 0)).1 = some false ∧
      landing.kvRefused (half 1 false (some 2) 2 1) (kvAt (0x30000, false, false) 0) 0 = none ∧ landing.poisonAt 0x30000 64 = none ∧
      0x30000 / 2 ^ 48 = ckNode 0 ∧ 0x40000 / 2 ^ 48 = ckNode 1 ∧
      landing.kvRefused (half 2 true (some 1) 3 1) (kvAt (0x40000, false, false) 0) 1 = none ∧ landing.raceAt 0 (kvAt (0x30000, false, false) 0) 64 = none ∧
      landing.raceAt (kvWriter (half 1 false (some 2) 2 1) (half 2 true (some 1) 3 1)) (kvAt (0x40000, false, false) 0) 64 = none ∧
      kvPages (half 2 true (some 1) 3 1).words ≤ 0 + 1) ∧
    (landing.clock - (half 1 false (some 2) 2 1).posted < kvTmo (half 1 false (some 2) 2 1).words * 1000 * usCycles ∧
      kvTmo (half 1 false (some 2) 2 1).words * 1000 * usCycles ≤ ({ landing with clock := 2000000 } : State).clock - (half 1 false (some 2) 2 1).posted) ∧
    ({ half 1 false (some 2) 2 1 with landed := 1 }.peer.isSome = true ∧ { half 1 false (some 2) 2 1 with landed := 1 }.landed = kvPages (half 1 false (some 2) 2 1).words) :=
  ⟨by decide +kernel, by decide +kernel, fun p h => by rcases h with rfl | rfl <;> exact ⟨rfl, rfl, by decide +kernel, rfl, rfl⟩,
    ⟨by decide +kernel, by decide +kernel⟩, ⟨rfl, rfl, rfl, by decide +kernel, by decide +kernel, by decide +kernel, by decide +kernel, by decide +kernel, by decide +kernel,
      by decide, by decide, by decide +kernel, by decide +kernel, by decide +kernel, by decide +kernel⟩,
    ⟨by decide +kernel, by decide +kernel⟩, rfl, by decide +kernel⟩

/-! ### Commands -/

/-- A slice whose slots 0 and 1 have a loop nest of two iterations, with what is given; channel 0 and die 0 are READY; endpoint 5 is attached. -/
def nest0 : List (Nat × W64) := [(0x20000, 0x200000), (0x20008, 2)]
def slotWords : List W64 := [0, 0x10000, 0x0000004000000000, 0x20000, 0, 0, 0, 0]
def model0 : ModelSlot := { words := slotWords, state := .resident, pinned := true }
def sliceOf (sl : Slice) : State :=
  { mapped 1 nest0 {} with
    cores := [], slices := [(0, { sl with bound := true, s1root := 0x3000 })]
    pkgs := [(0, { ready := BitVec.allOnes 64, endpoints := [(5, 1)] })] }
def command (op : Nat) (p : List W64) : InboxEntry := { seq := 0, op := op, tag := 9, ep := 7, payload := p, wellFormed := true, delivered := true }
def pending (op : Nat) (p : List W64) (sl : Slice) : State :=
  { sliceOf sl with pkgs := [(0, { ready := BitVec.allOnes 64, endpoints := [(5, 1)], inboxes := [(1, { next := 1, entries := [(0, command op p)] })] })] }

/-- CommandsAreCarriedOut: a message for an attached endpoint; an eligible command of each kind; a completion. -/
theorem wit_message : (sliceOf {}).sliceOfFunc 0 1 = some 0 ∧ ((sliceOf {}).slice 0).stop ≠ .held ∧ ((sliceOf {}).slice 0).await = false ∧
    ((sliceOf {}).pkg 0).endpoints.get? 5 = some 1 ∧ ((sliceOf {}).inbox 0 1).entries = [] ∧ ((sliceOf {}).inbox 0 1).next = 0 ∧ [(4 : W64)].length = 1 ∧
    24 = 1 * 8 + 16 ∧ ((sliceOf {}).setBytes (entryPlace 0 1 (0 % 256))
      ((BitVec.ofNat 64 (0 * 2 ^ 32 + 0x03 * 2 ^ 24 + 1 * 2 ^ 16) :: 9 :: [4]).flatMap wordBytes)).sliceOfFunc 0 1 = some 0 ∧
    (∀ op ∈ [0x01, 0x02, 0x03, 0x10, 0x20, 0x21, 0x22, 0x30, 0x31], ((pending op [4] {}).inbox 0 1).eligible = some (0, command op [4]) ∧
      (pending op [4] {}).sliceOfFunc 0 1 = some 0 ∧ (pending op [4] {}).inboxHeld 0 1 = false) ∧
    (((sliceOf {}).pkg 0).endpoints.any fun x => x.2 == 1) = true :=
  ⟨by decide +kernel, by decide, rfl, rfl, rfl, rfl, rfl, rfl, by decide +kernel, by decide +kernel, rfl⟩

def okPayload (op : Nat) : List W64 :=
  if op = 0x01 then 1 :: slotWords else if op = 0x10 then [0x0100000000000000] else if op = 0x20 then [0x0000000001000101, 0x30000]
  else if op = 0x21 then [0x0020100000000000, 0x0000000100000001, 0, 0, 0] else if op = 0x30 then [0, 0, 1] else [1]
def request (st : ReqState) : Request :=
  { slot := 1, prio := 0, pack := none, prompt := 1, maxNew := 1, inbuf := 0, outbuf := 0, kvlist := 0, state := st, order := 0, processed := 0, generated := 0
    pos0 := 0, cancel := false, seq := 0, tag := 9, ep := 7 }
def sched0 : Sched := { budget := 1, maxBatch := 1, table := 0x30000, bufs := [] }

/-- CommandsAreCarriedOut, Tables 3.2 to 3.4: payloads of good form and of bad form; SLOT_LOAD of an empty slot, of one whose check 1 fails, of a loaded
one, of one that is LOADING; SLOT_UNLOAD of a loaded one and of others. -/
theorem wit_slotCommands : (∀ op ∈ [0x01, 0x02, 0x03, 0x10, 0x20, 0x21, 0x22, 0x30, 0x31], formOk op (okPayload op) = true ∧ formOk op [BitVec.allOnes 64] = false) ∧
    (((sliceOf { slots := [(1, model0)] }).slice 0).model 1).state ≠ .empty ∧ (((sliceOf {}).slice 0).model 1).state = .empty ∧
    ((command 1 (okPayload 1)).payload.headD 0).fld 0 8 ≠ 0 ∧ (sliceOf {}).loadCheck 0 1 model0 = none ∧
    (sliceOf {}).loadCheck 0 1 { model0 with words := [1, 0x10000, 0x0000004000000000, 0x20000, 0, 0, 0, 0] } = some (1, 0) ∧
    (((sliceOf {}).slice 0).model 1).state ≠ .resident ∧ (((sliceOf { slots := [(1, model0)] }).slice 0).model 1).state = .resident ∧
    ((sliceOf { slots := [(1, model0)] }).slice 0).busySlot 1 = false ∧ ((sliceOf { slots := [(1, model0)] }).slice 0).scheds.get? 1 = none ∧
    (((sliceOf { slots := [(1, { model0 with state := .loading })] }).slice 0).model 1).state = .loading ∧
    (sliceOf { slots := [(1, { model0 with state := .loading })] }).loadCheck 0 1 { model0 with state := .loading } = none ∧
    (((sliceOf { slots := [(1, { model0 with state := .unloading })] }).slice 0).model 1).state = .unloading :=
  ⟨by decide +kernel, by decide, rfl, by decide +kernel, by decide +kernel, by decide +kernel, by decide, rfl, rfl, rfl, rfl, by decide +kernel, rfl⟩

/-- A slice whose fabric share is 0, with the cap bit. -/
def barredSlice : State := { sliceOf {} with mem := words (tables 1 ++ nest0 ++ [(ctl 0 0x10028, BitVec.ofNat 64 (2 ^ 47))]) }
/-- The hardware class: INVOKE with READY missing, of an empty slot, of a scheduled one, with room and without; ADMIT, CANCEL, SCHED_SET. -/
def waits (n : Nat) : List Invocation := List.replicate n { slot := 1, asker := .host 0 9 7, bx := [], order := 0 }
def scheds8 : Tab Sched := (List.range 8).map fun k => (k + 2, sched0)
theorem wit_hardwareCommands : ({ sliceOf {} with pkgs := [] } : State).sliceReady 0 = false ∧ (sliceOf {}).sliceReady 0 = true ∧
    (((sliceOf {}).slice 0).model 1).state ≠ .resident ∧ (sliceOf { slots := [(1, model0)] }).absentPage 0 model0 false = none ∧
    (sliceOf {}).absentPage 0 { model0 with words := [0, 0x80000000, 0x0000004000000000, 0x20000, 0, 0, 0, 0] } false = some 0x80000000 ∧
    ((sliceOf { slots := [(1, model0)], scheds := [(1, sched0)] }).slice 0).scheduled 1 = true ∧ ((sliceOf { slots := [(1, model0)] }).slice 0).scheduled 1 = false ∧
    16 ≤ ((sliceOf { slots := [(1, model0)], waiting := waits 16 }).slice 0).waiting.length ∧ ((waits 16).filter (·.slot == 1)).length = 16 ∧
    ((okPayload 0x10).headD 0).fld 56 8 = 1 ∧ ((okPayload 0x20).headD 0).fld 0 8 = 1 ∧ 8 ≤ (scheds8.filter fun x => !x.2.removed).length ∧ scheds8.get? 1 = none ∧
    ((Tab.get? [(1, { sched0 with removed := true })] 1 = some { sched0 with removed := true }) ∧
      ((([(1, { sched0 with removed := true })] : Tab Sched)).filter fun x => !x.2.removed).length < 8) ∧
    ((sliceOf {}).fabricBarred 0 = false ∧ barredSlice.fabricBarred 0 = true ∧ ((sliceOf {}).pkg 0).ready.fld 18 18 ≠ 0 ∧
      (({ sliceOf {} with pkgs := [] } : State).pkg 0).ready.fld 18 18 = 0) ∧
    ((okPayload 0x21).headD 0).fld 52 12 = 2 ∧ ((okPayload 0x21).headD 0).fld 44 8 = 1 ∧ ((okPayload 0x21).headD 0).fld 29 1 = 0 ∧
    ((BitVec.ofNat 64 0x0020100020000000 : W64).fld 29 1 = 1 ∧ formOk 0x21 [BitVec.ofNat 64 0x0020100020000000, 0x0000000100000001, 0, 0, 0] = true) ∧
    (Tab.get? [(2, request .ready)] 2).isSome = true ∧ Tab.get? [(1, request .running)] 1 = some (request .running) ∧ (request .ready).state ≠ .running :=
  ⟨by decide +kernel, by decide +kernel, by decide, by decide +kernel, by decide +kernel, rfl, rfl, by decide, by decide, by decide +kernel, by decide +kernel,
    by decide, by decide, ⟨rfl, by decide⟩, ⟨by decide +kernel, by decide +kernel, by decide +kernel, by decide +kernel⟩, by decide +kernel, by decide +kernel, by decide +kernel, ⟨by decide +kernel, by decide +kernel⟩, rfl, rfl, by decide⟩

/-- R30, R31: an INVOKE that is accepted is answered with status 0 (KIND 1) and waits. -/
theorem test_invoke : ∃ t, exec (.invoke 0 1 0) (pending 0x10 (okPayload 0x10) { slots := [(1, model0)] }) = .next t ∧
    t.out.map (·.words) = [[0x0000000001000001, 9, 0, 0]] ∧ (t.slice 0).waiting.map (·.slot) = [1] := by
  refine ⟨_, rfl, ?_, ?_⟩ <;> decide +kernel

/-! ### Graphs and threads -/

/-- An invocation of slot 1 with these nodes, asked for by a host, and a slice in which it is active. -/
def inv1 (nodes : Tab NodeRun) : Invocation := { slot := 1, asker := .host 3 9 7, bx := [(0x10000, 0x100), (0x30000, 0x100)], order := 0, nodes := nodes }
def weaving (nodes : Tab NodeRun) (c : Core := {}) : State :=
  { sliceOf { slots := [(1, model0)], active := [inv1 nodes], started := 1 } with cores := [(0, c)] }

/-- GraphsAndThreadsRun: an invocation that can start; an iteration that can be dispatched; a thread that starts, and one with a row to stage; a drained
ended thread; an invocation that retires. -/
theorem wit_weaver : (((sliceOf { slots := [(1, model0)], waiting := waits 1 }).slice 0).waiting.find? (·.slot == 1)).isSome = true ∧ isGraph model0 = false ∧
    nextServed (((weaving [(0, { started := true })]).advance 0).slice 0).served (((weaving [(0, { started := true })]).advance 0).dispatchable 0) = some (0, 0) ∧
    ((weaving [(0, { started := true })]).advance 0).freeCore 0 = some 0 ∧
    ((((weaving [(0, { started := true })]).advance 0).slice 0).active.find? (·.order == 0)).isSome = true ∧
    ((weaving [(0, { started := true })]).advance 0).sliceCoreKey 0 0 = some 0 ∧
    ((weaving []).core 0).handling = none ∧ ({ weaving [] { run := .ended } with cur := 0 } : State).drained 0 = true ∧
    ((weaving [(0, { started := true, retired := true })]).work 0 1).isSome = true ∧ ((inv1 [(0, { started := true, retired := true })]).node 0).retired = true :=
  ⟨by decide, by decide, by decide +kernel, by decide +kernel, by decide +kernel, by decide +kernel, rfl, rfl, rfl, rfl⟩

/-- A tile of one row of 64 bytes from b0. -/
def staging : State := { weaving [(0, { started := true, live := 1 })] { run := .staging, slice := some 0, slot := 1, index := [1], stage := [(0, 0)] } with
  mem := words (tables 1 ++ nest0 ++ [(0x20020, 0x0800010000000000), (0x20038, 0x0001004000000040)]) }
/-- That row in a buffer of which its first 32 bytes end a page. -/
def crossing : State :=
  { staging with slices := staging.slices.mapVals fun sl => { sl with active := sl.active.map fun v => { v with bx := [(0x3FFFFFE0, 0x100)] } } }
theorem wit_staging : staging.me.run = .staging ∧ staging.me.slice = some 0 ∧ staging.me.stagePark = none ∧ staging.me.stage = [(0, 0)] ∧ staging.me.stageAt = none ∧
    (∃ x u, staging.stagePart 0 0 0 0 none = .ok x u ∧ u.stageBytes 0 0 ≤ x.1) ∧ (∃ x u, crossing.stagePart 0 0 0 0 none = .ok x u ∧ x.1 < u.stageBytes 0 0) :=
  ⟨rfl, rfl, rfl, rfl, rfl, okP (fun x u => decide (u.stageBytes 0 0 ≤ x.1)) (fun _ _ h => of_decide_eq_true h) (by decide +kernel),
    okP (fun x u => decide (x.1 < u.stageBytes 0 0)) (fun _ _ h => of_decide_eq_true h) (by decide +kernel)⟩

/-- A graph of COPY, COND, WHILE, NOTIFY and END nodes; condition word 1 is 1. -/
def gmodel : ModelSlot := { model0 with words := [0x2000000500000000, 0x10000, 0x0000004000000000, 0x21000, 0, 0x22000, 0, 0] }
def noEdges : W64 := 0xFFFFFFFFF0000000
def gmem : List (Nat × W64) :=
  [(0x21000, 0x0200004FFF000000), (0x21008, noEdges), (0x21010, 0x0100000000000008),
   (0x21020, 0x0300003004010000), (0x21028, noEdges), (0x21030, 1),
   (0x21040, 0x0400003004010000), (0x21048, noEdges), (0x21058, 2),
   (0x21060, 0x0500004FFF000000), (0x21068, noEdges), (0x21070, 5), (0x21078, 6), (0x22008, 1)]
def graphing (n : Nat) (more : List (Nat × W64) := []) (a : Asker := .host 3 9 7) : State :=
  { sliceOf { slots := [(1, gmodel)], active := [{ inv1 [(n, { started := true })] with asker := a }], started := 1 } with
    mem := words (tables 1 ++ gmem ++ more) }
def dueAnd (s : State) (n kind : Nat) (p : Work → NodeRec → Bool) : Bool := match s.dueNode 0 1 n kind with | some (w, r) => p w r | none => false

/-- GraphsAndThreadsRun: each kind of node that is due; a copy within both buffers; a WHILE node whose word is 0 and 1; both kinds of asker. -/
theorem wit_nodes : dueAnd (graphing 0) 0 2 (fun w r => decide (r.opb.fld 32 32 + r.opa.fld 0 48 ≤ (w.v.bx.getD (r.opa.fld 60 4) (0, 0)).2.toNat) &&
      decide (r.opb.fld 0 32 + r.opa.fld 0 48 ≤ (w.v.bx.getD (r.opa.fld 56 4) (0, 0)).2.toNat) &&
      decide ((graphing 0).weaverClash 0 0x10000 0x30000 8 = none) && (match (graphing 0).weaverLoad 0 0x10000 8 with
        | (.ok bs, u) => (match u.weaverStore 0 0x30000 bs with | (.ok (), _) => true | _ => false)
        | _ => false)) = true ∧
    dueAnd (graphing 1) 1 3 (fun w r => (graphing 1).condWord 0 w.m r.cw == 1 && r.next == 3 && r.alt == 4) = true ∧
    dueAnd (graphing 2) 2 4 (fun w r => (graphing 2).condWord 0 w.m r.cw == 1 && decide (Tab.getD w.v.trips 2 0 < r.opb.fld 0 32)) = true ∧
    dueAnd (graphing 2 [(0x22008, 0)]) 2 4 (fun w r => (graphing 2 [(0x22008, 0)]).condWord 0 w.m r.cw == 0) = true ∧
    dueAnd (graphing 3) 3 5 (fun w _ => w.v.asker == .host 3 9 7) = true ∧ dueAnd (graphing 3 [] (.batch [])) 3 5 (fun w _ => w.v.asker == .batch []) = true ∧
    (graphing 3).storesLeft 0 = false ∧ (weaving [(0, { started := true, retired := true })]).storesLeft 0 = false ∧
    ({ graphing 3 with pkgs := [(0, { outstanding := [(1, [{ posted with core := 0, fw := false, func := 1 }])] })] } : State).storesLeft 0 = true :=
  ⟨by decide +kernel, by decide +kernel, by decide +kernel, by decide +kernel, by decide +kernel, by decide +kernel, by decide +kernel, by decide +kernel, by decide +kernel⟩

/-- Table 2.4: a COND node with T 0 and a word that equals OPA retires to NEXT (node 3). -/
theorem test_cond : ∃ t, exec (.nodeCond 0 0 1 1) (graphing 1) = .next t ∧
    ((t.slice 0).active.map fun v => ((v.node 1).retired, (v.node 3).retired, (Tab.get? v.nodes 3).isSome, (Tab.get? v.nodes 4).isSome)) = [(true, false, true, false)] := by
  refine ⟨_, rfl, ?_⟩; decide +kernel

/-- GraphsAndThreadsRun: a request whose pack is to be placed; a boundary of a scheduled slot; R21 on a nest of one level. -/
def scheduling : State := sliceOf { slots := [(1, model0)], scheds := [(1, sched0)], reqs := [(1, { request .fetch with packInfo := none })] }
theorem wit_scheduler : (scheduling.slice 0).reqs.get? 1 = some (request .fetch) ∧ (request .fetch).state = .fetch ∧ (scheduling.slice 0).stop = .running ∧
    (match scheduling.placePack 0 (request .fetch) with | (.ok (), _) => True | _ => False) ∧ (scheduling.slice 0).scheds.get? 1 = some sched0 ∧
    (scheduling.slice 0).busySlot 1 = false ∧ sched0.retired = none ∧ sched0.removed = false ∧ sched0.next = none ∧
    (∀ e ∈ (scheduling.slice 0).reqs, ¬(e.2.slot = 1 ∧ e.2.cancel = true)) ∧
    ((sliceOf {}).nestRec 0 0x20000).levels = 1 ∧ ((sliceOf {}).nestRec 0 0x20000).levelAt 0 = 0 ∧ ((sliceOf {}).nestRec 0 0x20000).dir 0 = 0 ∧
    0 < ((sliceOf {}).nestRec 0 0x20000).bound 0 :=
  ⟨rfl, rfl, rfl, trivial, rfl, rfl, rfl, rfl, rfl, by decide, by decide +kernel, by decide +kernel, by decide +kernel, by decide +kernel⟩

/-- Tables 2.7 and 2.8: level 1 outside (bound 3), level 0 inside, serpentine (bound 2): (s21, s20) and the tile's offset, in order. -/
def worked : NestRec := { w := [0x0000000002440020, 0x0000000000030002, 0, 0, 0x0802000000000000, 0x0000200000000000, 0, 0x0040008000000080] }
theorem test_enumeration : (List.range 6).map (fun k => ((worked.indices k).getD 1 0, (worked.indices k).getD 0 0, ((worked.decl 0).range (worked.indices k)).1)) =
    [(0, 0, 0), (0, 1, 0), (1, 1, 0x2000), (1, 0, 0x2000), (2, 0, 0x4000), (2, 1, 0x4000)] ∧ ((worked.decl 0).range [0, 2, 0, 0]).2 = 0x5FFF := by
  decide +kernel

/-- Table 3.8: the batches at two boundaries, A and B (ids 1, 2) past their prompts, C (id 3) of prompt 100, D (id 4) of prompt 20. -/
def reqOf (prio prompt processed order : Nat) (st : ReqState) : Request :=
  { request st with prio := prio, prompt := prompt, processed := processed, order := order }
def batchOf (c d : Request) : List (Nat × Nat) :=
  (Slice.batch { reqs := [(1, reqOf 0 5 5 0 .running), (2, reqOf 0 5 5 1 .running), (3, c), (4, d)] } 1
    { budget := 64, maxBatch := 4096, table := 0, bufs := [] }).map fun x => (x.1, x.2.2)
theorem test_batches : batchOf (reqOf 0 100 0 2 .ready) (reqOf 1 20 0 3 .ready) = [(1, 1), (2, 1), (3, 62)] ∧
    batchOf (reqOf 0 100 62 2 .running) (reqOf 1 20 0 3 .ready) = [(1, 1), (2, 1), (3, 38), (4, 20)] := by decide +kernel

/-! ### Events at cores and homes -/

def accOk {α : Type} (r : Acc α) : Bool := match r with | .ok _ _ => true | _ => false
def walkOk (r : XRes Page) : Bool := match r with | .ok _ _ => true | _ => false
/-- CoresAndHomesHaveEvents: a thread in slice 0 whose clock has passed 4,096 cycles, and a wait.tk with time-out s12 that has waited 5 cycles. -/
def idling : State := { mapped 1 [] (thCore []) with clock := 4096, tagQ := [{ word := 0x2000, core := 0, fill := true, value := 0 }] }
def timed : State := { one 145 { fwCore [(12, 5)] with wait := some { start := 0, word := 0x6182B000 } } with clock := 5 }
theorem wit_coreEvents : walkOk (idling.translate 0 0x10000 .read) = true ∧ 4096 ≤ idling.clock - Tab.getD (idling.core 0).vec.lastNamed 0 0 ∧
    (∀ fn ∈ List.range 8, accOk (idling.atomicAt 0 (idling.physPage 0 (normPa 0 (0x10000 : W64).toNat)) (fun w => if fn = 0 then w + 1 else if fn = 7 then w else 1)) = true) ∧
    (idling.tagQ.find? (fun t => t.of 0)).isSome = true ∧
    ((timed.core 145).wait = some { start := 0, word := 0x6182B000 } ∧ decodeAccess 0x6182B000 0 0 = .ok (.waitTk 6 5 12) ∧
      (({ timed with cur := 145 } : State).reg 12).toNat ≤ timed.clock - 0 ∧ (({ timed with cur := 145 } : State).me.token 5).value = 0) ∧
    ((idling.core 0).run = .running ∧ (idling.core 0).slice.isSome = true ∧ (idling.core 0).watchdog = 0) :=
  ⟨by decide +kernel, by decide +kernel, by decide +kernel, rfl, ⟨rfl, rfl, by decide +kernel, by decide +kernel⟩, rfl, rfl, rfl⟩

/-- A fault in the queue of slice 0, whose slot 0 has a resident handler. -/
def faulted : State := sliceOf { faults := [{ fnum := 3, core := 0, unit := 1, words := [0, 7] }], slots := [(0, { model0 with words := 0x1000000000000000 :: slotWords.tail })] }
theorem wit_homeEvents : ((faulted.slice 0).faults ≠ [] ∧ (faulted.slice 0).handler = none ∧ faulted.hasHandler 0 = true ∧ (faulted.slice 0).stop ≠ .held ∧
      (faulted.core 145).run = .idle) ∧
    (region ((0x12345 : W64).toNat / 64 * 64) = .hbm 0 0 ∧ State.reset.relFull 0 = true) ∧
    ((State.reset.pcsr 0 0x180).fld 0 2 = 0 ∧ ((State.reset.setPcsr 0 0x180 1).pcsr 0 0x180).fld 0 2 = 1 ∧ ((State.reset.setPcsr 0 0x180 2).pcsr 0 0x180).fld 0 2 = 2) ∧
    ((0xFFF : W64).fld 0 20 < 2 ^ ((State.reset.setPcsr 0 0x110 12).pcsr 0 0x110).fld 0 5 ∧ (1 : W64).fld 0 1 = 1) ∧ (isFirmware 145 = true ∧ ckNode 145 = 0) :=
  ⟨⟨by decide, rfl, by decide +kernel, by decide, rfl⟩, ⟨by decide +kernel, by decide +kernel⟩, by decide +kernel, by decide +kernel, by decide⟩

/-- R75: the handler starts with the fault's cause word in s20 and its number in s21. -/
theorem test_faultHandler : ∃ t, exec (.faultHandlerStart 0 0 145) faulted = .next t ∧
    ((t.core 145).reg 20, (t.core 145).reg 21, (t.core 145).pc, (t.slice 0).handler) = (7, 3, 0x10000, some (145, 3)) := by
  refine ⟨_, rfl, ?_⟩; decide +kernel

/-! ### The fabric -/

/-- A posted store of firmware core 145 of package 0 to package 1, sent once; a release behind an earlier store of the same stream; a store
that nothing grants. -/
def posted0 : Posted := { posted with seq := 4, pa := 2 ^ 48 + 64 }
def release0 : Posted := { posted0 with release := true, counts := true, index := 1 }
def earlier : Posted := { posted0 with seq := 3, counts := true }
def ungranted : Posted := { posted0 with core := 0, fw := false, func := 3 }
def sending (q : Posted) (fates : List Nat) (replies : Tab Reply) (more : List Posted := []) (clock : Nat := 0) : State :=
  { fw [] with
    pkgs := [(0, { ready := BitVec.allOnes 64, outstanding := [(1, q :: more)] }), (1, { ready := BitVec.allOnes 64, replies := replies })]
    fates := fates, clock := clock, agenda := [.event (.fabricRequestReceive 0 1 4)] }

theorem way_through (q : Posted) (f : List Nat) (r : Tab Reply) (m : List Posted) : (sending q f r m).way 0 1 = (.through, sending q f r m) := by
  have up : ∀ w, w < 18 → ((BitVec.allOnes 64).fld (18 + w) 1 == 1) = true := by decide
  have h0 (w : Nat) (h : w < 18) : (sending q f r m).portUp 0 w = true := up w h
  have h1 (w : Nat) (h : w < 18) : (sending q f r m).wayBy 1 w = .through := by
    have : (sending q f r m).portUp 1 w = true := up w h
    rw [State.wayBy, this]; rfl
  have e : ((sending q f r m).ports 0).map ((sending q f r m).wayBy 1) = List.replicate 18 .through := by
    rw [State.ports, List.filter_eq_self.mpr fun w hw => by rw [h0 w (List.mem_range.mp hw)]; rfl, List.eq_replicate_iff]
    exact ⟨by simp, fun x hx => by obtain ⟨w, hw, rfl⟩ := List.mem_map.mp hx; exact h1 w (List.mem_range.mp hw)⟩
  simp only [State.way, e]
  rfl

/-- A store through an allocation that was lost after it left (entry 0 of the block of function 0, on switch 5). -/
def losing : State :=
  { sending { posted0 with va := 0xF00000000000 } [] [] with
    mem := words [(satBlock 0 0, 0xCC00F00000000000), (satBlock 0 0 + 8, 0x10000), (satBlock 0 0 + 16, 5 * 2 ^ 37)] }
/-- FabricRequestsAreAnswered: a packet too old, without a way, lost, for a lost allocation, taken, answered from the cache, behind a later number, refused, held. -/
theorem wit_requests : (sending posted0 [] []).outstandingReq 0 1 4 = some posted0 ∧
    usOf 200 < (sending posted0 [] [] [] 400001).clock - posted0.sent ∧ (sending posted0 [] []).clock - posted0.sent ≤ usOf 200 ∧
    (posting.way 0 1 = (.lost, posting) ∧ ((sending posted0 [] []).pkg 1).quiet = false) ∧
    (∀ q f r m, (sending q f r m).way 0 1 = (.through, sending q f r m)) ∧
    ((sending posted0 [] []).takeFate.2.lostAt 0 0 posted0.va.toNat = none ∧ losing.takeFate.2.lostAt 0 0 0xF00000000000 = some 5) ∧
    ((sending posted0 [1] []).takeFate).1 = 1 ∧ ((sending posted0 [] []).takeFate).1 = 0 ∧ ((sending posted0 [2] []).takeFate).1 = 2 ∧
    (((sending posted0 [] []).takeFate).2.cachedReply 1 0 4 = none ∧ ((sending posted0 [] []).takeFate).2.releaseReady 1 0 posted0 = true ∧
      ((sending posted0 [] []).takeFate).2.homeRefuses { ck := 145, fw := true, func := 0 } posted0.pa 8 1 false = none) ∧
    ((sending posted0 [] [(4, { seq := 4, reply := 0 })]).takeFate).2.cachedReply 1 0 4 = some { seq := 4, reply := 0 } ∧
    (((sending posted0 [] [(4, { seq := 4100, reply := 0 })]).takeFate).2.cachedReply 1 0 4 = some { seq := 4100, reply := 0 } ∧ laterSeq 4100 4 = true) ∧
    (((sending ungranted [] []).takeFate).2.homeRefuses { ck := 0, fw := false, func := 3 } ungranted.pa 8 1 false).isSome = true ∧
    (((sending release0 [] [] [earlier]).takeFate).2.cachedReply 1 0 4 = none ∧ ((sending release0 [] [] [earlier]).takeFate).2.releaseReady 1 0 release0 = false ∧
      ((sending release0 [] [] [earlier]).takeFate).2.homeRefuses { ck := 145, fw := true, func := 0 } release0.pa 8 1 false = none) :=
  ⟨rfl, by decide, by decide, ⟨by decide +kernel, rfl⟩, way_through, ⟨by decide +kernel, by decide +kernel⟩, rfl, rfl, rfl,
    ⟨by decide +kernel, by decide +kernel, by decide +kernel⟩, by decide +kernel, ⟨by decide +kernel, by decide +kernel⟩, by decide +kernel,
    ⟨by decide +kernel, by decide +kernel, by decide +kernel⟩⟩

/-- A package that every switch has declared dead: whichever of them a packet takes, it is dropped there. -/
def cutOff : State := { sending posted0 [] [] with switches := (List.range 18).map fun w => (w, { portsDown := [1] }) }
theorem wit_dropped : cutOff.way 0 1 = (.dropped, cutOff) := by decide +kernel

/-- FabricRequestsAreAnswered: a request that is resent, given up, answered, dropped as too old or not. -/
theorem wit_resends : (sending posted0 [] []).clock - posted0.sent < usOf 40 ∧
    (let s := sending posted0 [] [] [] 80000
     s.outstandingReq 0 1 4 = some posted0 ∧ usOf 40 ≤ s.clock - posted0.sent ∧ posted0.sends < 4) ∧
    (let s := sending { posted0 with sends := 4 } [] [] [] 80000
     s.outstandingReq 0 1 4 = some { posted0 with sends := 4 } ∧ usOf 40 ≤ s.clock - posted0.sent) ∧
    (sending posted0 [] [(4, { seq := 4, reply := 0 })]).performed 1 0 4 = true ∧ (fw []).outstandingReq 0 1 4 = none ∧
    Happening.event (.fabricRequestReceive 0 1 4) ∈ (sending posted0 [] [] [] 400001).agenda :=
  ⟨by decide, ⟨rfl, by decide, by decide⟩, ⟨rfl, by decide⟩, by decide +kernel, rfl, by decide⟩

/-- A held release that is ready; quiet, missing acknowledgements, heads and reserve entries, failed switches; entries of a function's table on a
failed switch. -/
def rejoining : State :=
  { fw [] with
    pkgs := [(0, { quiet := true, unacked := [1], reserve := [2], heads := [(1, 0), (2, 0)], fired := [1, 2], failedSw := [3], ready := 2 ^ 21, noticed := [1] }),
      (1, { held := [{ src := 0, post := release0 }], unacked := [0, 0xA0], quiet := true, readmits := [3 * 256] })]
    nodes := [0, 1, 0xA0, 0xA3], clock := 2000000, switches := [(0, { mirror := [(64, [1], 0, 4)] }), (7, { lost := true })]
    mem := words [(satBlock 0 1, 2 ^ 62), (satBlock 0 1 + 16, 5 * 2 ^ 37), (satBlock 0 1 + 32, 2 ^ 62 + 2 ^ 60), (satBlock 0 1 + 64, 2 ^ 62 + 2 * 2 ^ 60),
      (satBlock 0 1 + 80, 6 * 2 ^ 42 + 5 * 2 ^ 37), (satBlock 0 1 + 96, 2 * 2 ^ 62 + 2 * 2 ^ 60), (satBlock 0 1 + 112, 6 * 2 ^ 42 + 5 * 2 ^ 37)] }
theorem wit_fabric : ((rejoining.pkg 1).held.find? (fun h => h.src == 0 && h.post.seq == 4)).isSome = true ∧ rejoining.releaseReady 1 0 release0 = true ∧
    (rejoining.downSince 0 5 = some 0 ∧ usOf 100 ≤ rejoining.clock - 0 ∧ rejoining.portDead 0 5 = true ∧ rejoining.portDead 0 3 = false) ∧
    ((rejoining.pkg 0).quiet = true ∧ rejoining.portUp 0 3 = true ∧ usOf 200 ≤ rejoining.clock - (rejoining.pkg 0).rejoinAt) ∧
    ((rejoining.pkg 1).unacked.has 0 = true ∧ 0 ∈ rejoining.nodes) ∧ ((rejoining.pkg 1).unacked.has 0xA0 = true ∧ 0xA0 ∈ rejoining.nodes) ∧ (rejoining.pkg 0).noticed.has 1 = true ∧
    ((rejoining.pkg 0).unacked.has 1 = true ∧ usOf 1000 ≤ rejoining.clock - (rejoining.pkg 0).rejoinAt ∧ (fw []).clock - ((fw []).pkg 0).rejoinAt < usOf 1000) ∧
    (rejoining.blockedHead 0 2 = some (2, 0) ∧ rejoining.blockedHead 0 1 = some (1, 0) ∧ 2048 ≤ rejoining.clock - 0 ∧ rejoining.blockedHead 0 3 = none ∧
      (rejoining.pkg 0).fired.has 2 = true ∧ (rejoining.pkg 0).fired.has 1 = true) ∧
    (rejoining.pkg 0).reserve.has 2 = true ∧ (rejoining.pkg 0).reserve.has 1 = false ∧
    ((rejoining.pkg 0).failedSw.has 5 = false ∧ (rejoining.switch 7).lost = true ∧ (rejoining.switch 3).lost = false ∧ (rejoining.takeUpset 144 16).1 = none) ∧
    ((∀ n ∈ rejoining.nodes, n < 0x90 → (rejoining.pkg n).failedSw.has 3 = true ∨ (rejoining.pkg n).quiet = true) ∧
      (∃ q ∈ rejoining.pkgs, q.2.readmits.has (3 * 256 + 0) = true) ∧ (∀ q ∈ rejoining.pkgs, q.2.readmits.has (3 * 256 + 1) = false) ∧
      (let s : State := { rejoining with pkgs := [(0, { failedSw := [3], ready := 2 ^ 21 }), (1, {})], switches := [(3, { used := [{ lo := 0, hi := 1, holders := [(0, 1, 0)] }] })] }
       (s.pkg 0).failedSw.has 3 = true ∧ (s.pkg 0).ready.fld (18 + 3) 1 = 1 ∧
        (∃ n ∈ s.nodes, n < 0x90 ∧ (s.pkg n).failedSw.has 3 = false ∧ (s.pkg n).quiet = false) ∧ (s.switch 3).isEmpty = false)) ∧
    (rejoining.satFree 0 1 0 = false ∧ (rejoining.satEntry 0 1 0).state ≠ 3 ∧ (rejoining.satEntry 0 1 0).place = 0 ∧ (rejoining.satEntry 0 1 0).swa = 5) ∧
    (rejoining.satFree 0 1 1 = false ∧ (rejoining.satEntry 0 1 1).state ≠ 3 ∧ (rejoining.satEntry 0 1 1).place = 1) ∧
    (rejoining.satFree 0 1 2 = false ∧ (rejoining.satEntry 0 1 2).state = 1 ∧ (rejoining.satEntry 0 1 2).place = 2 ∧ (rejoining.satEntry 0 1 2).swa = 5 ∧
      (rejoining.satEntry 0 1 2).swb = 6 ∧ (rejoining.pkg 0).failedSw.has 6 = false) ∧
    (rejoining.satFree 0 1 3 = false ∧ (rejoining.satEntry 0 1 3).state = 2 ∧ (rejoining.satEntry 0 1 3).place = 2) ∧
    (rejoining.switch 0).mirror[0]? = some (64, [1], 0, 4) ∧ (rejoining.pkg 0).failedSw.has 3 = true ∧ (rejoining.pkg 0).ready.fld (18 + 3) 1 = 1 ∧ readyBit 21 = true ∧
    rejoining.Inv :=
  ⟨rfl, by decide +kernel, ⟨by decide +kernel, by decide, by decide +kernel, by decide +kernel⟩, ⟨rfl, by decide +kernel, by decide +kernel⟩, ⟨by decide, by decide +kernel⟩,
    ⟨by decide, by decide +kernel⟩, by decide, ⟨by decide, by decide +kernel, by decide +kernel⟩,
    ⟨by decide +kernel, by decide +kernel, by decide, by decide +kernel, by decide +kernel, by decide +kernel⟩, by decide, by decide,
    ⟨by decide, rfl, by decide +kernel, rfl⟩, by decide +kernel, by decide +kernel,
    by decide +kernel, by decide +kernel, by decide +kernel, rfl, by decide, by decide +kernel, by decide, inv_of (by decide +kernel)⟩

/-- A data read of a core of die 0 in memory of die 1. -/
theorem wit_link : (let s := queueing { issued := 1, slots := [(0, .pending (BitVec.ofNat 64 (64 * 2 ^ 31)) 0x20000 8 1 false)] }
      (s.core 0).lq[(0 : Fin 4)].slots.get? 0 = some (.pending (BitVec.ofNat 64 (64 * 2 ^ 31)) 0x20000 8 1 false)) ∧
    (otherDie 0 0 = some 1 ∧ (BitVec.ofNat 64 (64 * 2 ^ 31)).toNat / 2 ^ 48 = 0 ∧ (homeUnit (BitVec.ofNat 64 (64 * 2 ^ 31)).toNat).2 = 1) ∧
    (let s := queueing { issued := 1, slots := [(0, .pending (BitVec.ofNat 64 (64 * 2 ^ 31)) 0x20000 8 1 false)] }
     Tab.rising s.cores = true ∧ Tab.rising (s.core 0).lq[(0 : Fin 4)].slots = true) ∧
    -- a store of core 0 to the memory of switch 5, whose port is on die 1
    (let s : State := { fw [] with pkgs := [(0, { outstanding := [(0xA5, [{ posted with core := 0, pa := swPa 5 0 }])] })] }
     Tab.rising (s.pkg 0).outstanding = true ∧ s.outstandingReq 0 0xA5 0 = some { posted with core := 0, pa := swPa 5 0 } ∧
      swPa 5 0 / 2 ^ 48 ≠ 0 ∧ 0xA0 ≤ swPa 5 0 / 2 ^ 48 ∧ portDie (swPa 5 0 / 2 ^ 48 - 0xA0) = 1) :=
  ⟨rfl, ⟨by decide, by decide +kernel, by decide +kernel⟩, ⟨by decide +kernel, by decide +kernel⟩,
    ⟨by decide +kernel, by decide +kernel, by decide, by decide, by decide⟩⟩

/-- An allocation of package 0, function 1, that function 2 of package 1 attaches. -/
def attaching : State := { fw [] with mem := words [(satBlock 0 1, 0x4C00F00000000000), (satBlock 0 1 + 8, 0x10000)] }
theorem wit_attach : attaching.Inv ∧ (attaching.satEntry 0 1 0).state = 1 ∧ 0 < (attaching.satEntry 0 1 0).len ∧ (0xF00000010000 : W64).toNat % 65536 = 0 ∧
    0xF00000000000 ≤ (0xF00000010000 : W64).toNat ∧ (0xF00000010000 : W64).toNat + (attaching.satEntry 0 1 0).len ≤ 2 ^ 48 ∧
    (∀ i, i < 256 → attaching.satFree 1 2 i = false → (0xF00000010000 : W64).toNat + (attaching.satEntry 0 1 0).len ≤ (attaching.satEntry 1 2 i).vbase ∨
      (attaching.satEntry 1 2 i).vbase + (attaching.satEntry 1 2 i).len ≤ (0xF00000010000 : W64).toNat) ∧
    (List.range 256).find? (attaching.satFree 1 2) = some 0 :=
  ⟨inv_of (by decide +kernel), by decide +kernel, by decide +kernel, by decide +kernel, by decide +kernel, by decide +kernel, by decide +kernel, by decide +kernel⟩

/-! ### A slice image as a restore reads it -/

/-- A state without errors, as the Handle of package 0 reads it. -/
def CleanHandle (s : State) : Prop := s.poison = [] ∧ s.soft = [] ∧ (s.core 144).upsets = []

theorem loadAt_clean {s : State} (h : CleanHandle s) {pa n : Nat} (hr : region pa = .hbm 0 0) (hn : pa / 2 ^ 48 = 0) :
    s.loadAt 144 { pa := pa, left := n } n = .ok (s.keyBytes none pa n) s := by
  have h1 : s.homeRefuses (s.party 144) pa n 0 false = none := by
    have e : (s.party 144).ck = 144 := by unfold State.party; split <;> rfl
    simp [State.homeRefuses, hr, e, ckNode]
  have h2 : s.fabric 144 pa = (true, none, 0, s) := by
    simp only [State.fabric, hn]; rfl
  have h3 : s.poisonAt pa n = none := by simp only [State.poisonAt, h.1]; rfl
  have h4 : s.racing 144 { pa := pa, left := n } n = (none, s) := by
    have : s.checked 144 { pa := pa, left := n } = false := by simp [State.checked, isFirmware, ckCore]
    simp only [State.racing, State.raceAt, this, Bool.false_eq_true, if_false]
  have h5 : s.correct 144 pa n = s := by simp only [State.correct, h.2.1]; rfl
  have h6 : s.dieCache 144 pa = s := by simp only [State.dieCache, hr, State.takeUpset, h.2.2]
  simp only [State.loadAt, h1, h2, h3, h4, h5, h6, Bool.false_eq_true, if_false]

theorem handleRead_clean {s : State} (h : CleanHandle s) {a : Nat} (n : Nat) (ha : a < 2 ^ 31) : s.handleRead 0 a n = (some (s.keyBytes none a n), s) := by
  have e : normPa 0 a = a := by rw [normPa, if_neg]; omega
  have hr : region a = .hbm 0 0 := by
    have h1 : a / 2 ^ 48 = 0 := by omega
    have h2 : a % 2 ^ 48 = a := by omega
    simp only [region, h1, h2]
    rw [if_neg (by omega), if_pos (by decide), if_pos (by omega), Nat.div_eq_of_lt ha]
  have hl := loadAt_clean h (n := n) hr (by omega)
  simp only [State.handleRead, e, hl]

/-- The bytes of so many lines. -/
def lineBytes (s : State) (a : Nat) : Nat → List Byte
  | 0 => []
  | n + 1 => lineBytes s a n ++ s.keyBytes none (a + 64 * n) 64

theorem imageBytes_clean {s : State} (h : CleanHandle s) {a n : Nat} (ha : a + n ≤ 2 ^ 31) :
    s.imageBytes 0 a n = (some (lineBytes s a ((n + 63) / 64)), s) := by
  unfold State.imageBytes
  have : ∀ k, k ≤ (n + 63) / 64 → (List.range k).foldl (fun (r : Option (List Byte) × State) i =>
      match r.1 with
      | none => r
      | some bs =>
        match r.2.handleRead 0 (a + 64 * i) 64 with
        | (some l, s) => (some (bs ++ l), s)
        | (none, s) => (none, s)) (some [], s) = (some (lineBytes s a k), s) := by
    intro k
    induction k with
    | zero => intro _; rfl
    | succ k ih =>
      intro hk
      rw [List.range_succ, List.foldl_append, ih (by omega)]
      simp [handleRead_clean h 64 (a := a + 64 * k) (by omega), lineBytes]
  exact this _ (Nat.le_refl _)

theorem withImage_some {β : Type} (bad : β) (b : List Byte) (s : State) (k : List Byte → State → β × State) : withImage bad (some b, s) k = k b s := by
  simp only [withImage]

theorem keyBytes_plain {s : State} (he : s.enc = []) (a n : Nat) : s.keyBytes none a n = (List.range' a n).map s.mem.get := by
  induction n generalizing a with
  | zero => rfl
  | succ n ih => simp [State.keyBytes, State.keyByte, he, ih, List.range'_succ]

theorem lineBytes_plain {s : State} (he : s.enc = []) (h : s.mem.wf = true) (a n : Nat) : lineBytes s a n = s.mem.read a (64 * n) := by
  rw [Memory.read_eq h]
  induction n with
  | zero => rfl
  | succ n ih =>
    rw [lineBytes, ih, keyBytes_plain he, ← List.map_append]
    congr 1
    have := List.range'_append_1 (s := a) (m := 64 * n) (n := 64)
    rw [this]; congr 1

/-- A word of memory, and the words of a frame of 4 KiB: a reader of its words reads them in memory. -/
def memWord (m : Memory) (a : Nat) : W64 := bytesWord (m.read a 8)
def frameWord (m : Memory) (a i : Nat) : W64 := if i < 512 then memWord m (a + 8 * i) else wordAt (m.read a 4096) i
theorem wordAt_read {m : Memory} (h : m.wf = true) (a : Nat) : wordAt (m.read a 4096) = frameWord m a := by
  funext i
  unfold frameWord
  split
  · rename_i hi
    have e : List.range' a 4096 = List.range' a (8 * i) ++ (List.range' (a + 8 * i) 8 ++ List.range' (a + 8 * i + 8) (4096 - 8 * i - 8)) := by
      have h1 := List.range'_append_1 (s := a + 8 * i) (m := 8) (n := 4096 - 8 * i - 8)
      have h2 := List.range'_append_1 (s := a) (m := 8 * i) (n := 8 + (4096 - 8 * i - 8))
      rw [h1, h2]; congr 1; omega
    rw [wordAt, memWord, bytesWord, bytesWord, Memory.read_eq h, Memory.read_eq h, e, List.map_append, List.drop_left' (by simp), List.map_append,
      List.take_left' (by simp), List.take_of_length_le (by simp)]
  · rfl
def zeroW (w : Nat → W64) (i n : Nat) : Bool := (List.range n).all fun k => w (i + k) == 0
def frameOkW (w : Nat → W64) : Bool :=
  (w 0).fld 48 16 == 0x5456 && (w 0).fld 40 8 == 1 && (w 0).fld 32 8 ≤ 5 && (w 0).fld 0 8 == 0 && zeroW w 4 4 && w 8 == 0 && w 0x80 == 0 &&
    frameFields.all (fun x => keepFields (w x.1) x.2 == w x.1) && (List.range 8).all (fun i => shapeOk (w (72 + i))) &&
    zeroW w 0x7E 2 && zeroW w 0x14C 4 && zeroW w 0x1AC 4 && zeroW w 0x1B0 0x50 &&
    (List.range 8).all fun i => (w (0x1A0 + 2 * i)).toNat + (w (0x1A1 + 2 * i)).toNat ≤ 2 ^ 23
theorem frameOk_eq (f : List Byte) : frameOk f = frameOkW (wordAt f) := rfl

theorem get_unlisted {m : Memory} {b : Nat} (h : ∀ c ∈ m, c.1 ≠ b) : m.get b = 0 := by
  have : Tab.get? m b = none := by
    induction m with
    | nil => rfl
    | cons c t ih =>
      have hc : b ≠ c.1 := fun e => h c (List.mem_cons_self ..) e.symm
      rw [Tab.get?.eq_def]
      simp only [if_neg hc]
      split
      · rfl
      · exact ih fun c hc => h c (List.mem_cons_of_mem _ hc)
  simp only [Memory.get, Tab.getD, this, Option.getD_none]

theorem read_zero {m : Memory} (h : m.wf = true) {a n : Nat} (hz : m.all (fun c => c.1 < a || a + n ≤ c.1) = true) : m.read a n = List.replicate n 0 := by
  rw [Memory.read_eq h, List.eq_replicate_iff]
  refine ⟨by simp, fun x hx => ?_⟩
  obtain ⟨b, hb, rfl⟩ := List.mem_map.mp hx
  have hb := List.mem_range'_1.mp hb
  have : ∀ c ∈ m, c.1 ≠ b := fun c hc e => by
    have := List.all_eq_true.mp hz c hc
    simp only [Bool.or_eq_true, decide_eq_true_eq] at this
    omega
  exact get_unlisted this

theorem image_zero {s : State} (h : CleanHandle s) (he : s.enc = []) (hw : s.mem.wf = true) {a n : Nat} (hn : n % 64 = 0) (ha : a + n ≤ 2 ^ 31)
    (hz : s.mem.all (fun c => c.1 < a || a + n ≤ c.1) = true) : s.imageBytes 0 a n = (some (List.replicate n 0), s) := by
  rw [imageBytes_clean h ha, lineBytes_plain he hw, ← read_zero hw hz]
  congr 3; omega

theorem readImages_cons {s : State} {node area k : Nat} {f b : List Byte} {t : List Nat} {l : List (List Byte)}
    (h : s.imageBytes node (area + (wordAt f (0x1A0 + 2 * k)).toNat) (wordAt f (0x1A1 + 2 * k)).toNat = (some b, s))
    (ht : s.readImages node area f t = (some l, s)) : s.readImages node area f (k :: t) = (some (b :: l), s) := by
  rw [State.readImages, h, withImage_some, ht]

/-- Images of zeros, long enough for the layouts, are a core's. -/
def zeroImages : List (List Byte) := [List.replicate 512 0, List.replicate 1024 0, [], List.replicate 832 0, List.replicate (padSize + 16 * (padSize / 512)) 0, []]
theorem areaOf_zero (f : List Byte) : ∃ a, areaOf f zeroImages = some a := by
  have h1 : (Codec.vecUnit.read (List.replicate 512 0)).isSome = true := by decide +kernel
  have h2 : (Codec.matUnit.read (List.replicate 1024 0)).isSome = true := by decide +kernel
  have h3 : (Codec.core.read (List.replicate 832 0)).isSome = true := by decide +kernel
  obtain ⟨v, e1⟩ := Option.isSome_iff_exists.mp h1
  obtain ⟨m, e2⟩ := Option.isSome_iff_exists.mp h2
  obtain ⟨c, e3⟩ := Option.isSome_iff_exists.mp h3
  simp only [areaOf, zeroImages, List.getD_cons_zero, List.getD_cons_succ, e1, e2, e3, List.length_replicate, ne_eq, not_true_eq_false, if_false]
  exact ⟨_, rfl⟩

theorem readArea_of {s : State} {base ncol i : Nat} {f : List Byte} {a : Area} (r1 : s.imageBytes 0 (base + 2 ^ 23 * (i + 1)) 4096 = (some f, s))
    (hf : frameOk f = true) (r2 : s.readImages 0 (base + 2 ^ 23 * (i + 1)) f [0, 1, 2, 3, 4, 5] = (some zeroImages, s)) (ha : areaOf f zeroImages = some a) :
    s.readArea 0 base ncol i = (.ok a, s) := by
  unfold State.readArea
  dsimp only
  rw [r1, withImage_some, hf, r2]
  simp only [Bool.not_true, Bool.false_eq_true, if_false, ha]
  rfl

/-! ### Slices -/

/-- Slice 0 of package 0 in this state of a stop, with a stop or an operation in progress. -/
def stopped (b : Bool) (x : SliceStop) (stopping : Option (Nat × Nat) := none) (ctxop : Option (Nat × Nat × Nat × Bool) := none) : State :=
  { mapped 1 [] {} with
    cores := [], slices := [(0, { bound := b, stop := x })]
    pkgs := [(0, { stopping := stopping, ctxop := ctxop, endpoints := [(5, 1)] })] }

/-- SlicesAreBoundStoppedAndMoved: bindings that are made and refused; FUNC of an unbound slice and of a bound one without a function; a stop asked for,
complete and not. -/
def nofunc : State := { stopped true .running with mem := words [(ctl 0 0x10000, BitVec.ofNat 64 (2 ^ 16)), (ctl 0 0x10008, 1)] }
def deadline (s : State) : State := { s.setPcsr 0 0x104 0x8000000000000064 with cores := [(0, thCore [])] }
theorem wit_binding : (stopped false .running).Inv ∧ 35 < (36 : W64).toNat ∧ ((stopped true .running).slice 0).bound = true ∧ (stopped true .running).bindCode 0 0 = 4 ∧
    (stopped false .running).bindCode 0 0 = 0 ∧ (nofunc.sliceFunc 0 = 0 ∧ nofunc.sliceOfFunc 0 7 = none ∧ nofunc.Inv) ∧
    (((stopped true .running).pkg 0).stopping = none ∧ (0x8000000000000064 : W64).fld 63 1 = 1 ∧ (0x8000000000000064 : W64).fld 32 6 = 0) ∧
    ((stopped true .stopping (some (0, 0))).pkg 0).stopping = some (0, 0) ∧
    ((deadline (stopped true .stopping (some (0, 0)))).deadlinePassed 0 0 = false ∧ (deadline (stopped true .stopping (some (0, 0)))).coreStopped 0 = false ∧
      (deadline (stopped true .stopping (some (0, 0)))).Inv) ∧
    (((stopped true .stopping (some (0, 0))).setPcsr 0 0x104 0x8000000000000064).deadlinePassed 0 0 = false ∧
      (((stopped true .stopping (some (0, 0))).sliceCores 0).all ((stopped true .stopping (some (0, 0))).setPcsr 0 0x104 0x8000000000000064).coreStopped) = true) :=
  ⟨inv_of (by decide +kernel), by decide, rfl, by decide +kernel, by decide +kernel, ⟨by decide +kernel, by decide +kernel, inv_of (by decide +kernel)⟩,
    ⟨rfl, by decide +kernel, by decide +kernel⟩, rfl, ⟨by decide +kernel, by decide +kernel, inv_of (by decide +kernel)⟩, ⟨by decide +kernel, by decide +kernel⟩⟩

/-- A multiply at the head of a matrix ring when the deadline of its slice's stop has passed. -/
def freezing : State :=
  { stopped true .stopping (some (0, 0)) with
    cores := [(0, { thCore [] with mring := { queue := [{ word := 0x28000000, shape := 0xA000000000100810 }], wp := 1 } })], clock := 200 }
theorem wit_freeze : freezing.Inv ∧ (freezing.core 0).slice = some 0 ∧ freezing.deadlinePassed 0 0 = true ∧
    (∃ e, ({ freezing with cur := 0 } : State).canFreeze = some e ∧ 0 < shMPAD e.shape + shStages e.shape + shNPAD e.shape) :=
  ⟨inv_of (by decide +kernel), rfl, by decide +kernel, _, rfl, by decide +kernel⟩

/-- Saves, holds and resumes of a stopped slice and of a running one; a restore of one whose thread runs; a save whose writes are acknowledged (of a slice
without quads); a restore that ends. -/
def running : State := { stopped true .running with cores := [(0, thCore [])] }
def saving : State := { stopped true .stopped none (some (1, 0, 0x800000, false)) with mem := [] }
theorem wit_contexts : ((stopped true .stopped).pkg 0).ctxop = none ∧ ctxSlice 0x800001 = 0 ∧ ((stopped true .stopped).slice 0).stop = .stopped ∧
    (running.slice 0).stop ≠ .stopped ∧ (running.slice 0).stop ≠ .held ∧ running.noThread 0 = false ∧ running.Inv ∧
    (saving.pkg 0).ctxop = some (1, 0, 0x800000, false) ∧ (saving.saveAll 0 (saving.saveList 0 0x800000)).1 = true ∧ saving.Inv ∧
    ((stopped true .stopped none (some (2, 0, 0x800000, false))).pkg 0).ctxop = some (2, 0, 0x800000, false) :=
  ⟨rfl, by decide +kernel, rfl, by decide, by decide, by decide +kernel, inv_of (by decide +kernel), rfl, by decide +kernel, inv_of (by decide +kernel), rfl⟩

/-- Endpoints that are detached and attached; teardown and release of an unbound slice, of one whose thread runs, of one that is stopped. -/
theorem wit_moves : ((stopped true .stopped).pkg 0).endpoints.get? 5 = some 1 ∧ (∀ k, (stopped true .stopped).sliceOfFunc 0 1 = some k → ((stopped true .stopped).slice k).saved = none) ∧
    (0x0041000000000005 : W64).fld 54 2 = 1 ∧ (0x0041000000000005 : W64).fld 48 6 = 1 ∧ (0x0041000000000005 : W64).fld 0 48 = 5 ∧
    (0x0081000000000005 : W64).fld 54 2 = 2 ∧ (stopped true .stopped).sliceOfFunc 0 1 = some 0 ∧
    (∀ e ∈ ({ stopped true .stopped with pkgs := [] } : State).pkg 0 |>.endpoints, e.2 ≠ 1) ∧ ({ stopped true .stopped with pkgs := [] } : State).sliceOfFunc 0 1 = some 0 ∧
    ((stopped false .running).slice 0).bound = false ∧ running.sliceRuns 0 = true ∧ (stopped true .stopped).sliceRuns 0 = false ∧ (stopped true .stopped).transfers = [] :=
  ⟨rfl, fun k h => by
      have e : (stopped true .stopped).sliceOfFunc 0 1 = some 0 := by decide +kernel
      rw [e] at h; cases h; rfl, by decide +kernel, by decide +kernel, by decide +kernel, by decide +kernel, by decide +kernel, by decide, by decide +kernel, rfl, by decide +kernel,
    by decide +kernel, rfl⟩

/-- A held slice of four cores, with an image of one such slice at 0x800000: its header, and for each core a frame whose directory names
images of zeros. -/
def areaWords (i : Nat) : List (Nat × W64) :=
  let a := 0x800000 + 2 ^ 23 * (i + 1)
  [(a, 0x5456010040800000), (a + 8, 0x4000), (a + 8 * 9, 7), (a + 8 * 0x1A0, 0x1000), (a + 8 * 0x1A1, 512), (a + 8 * 0x1A2, 0x2000), (a + 8 * 0x1A3, 1024),
    (a + 8 * 0x1A6, 0x3000), (a + 8 * 0x1A7, 832), (a + 8 * 0x1A8, 0x100000), (a + 8 * 0x1A9, 3244032)]
def restoring : State :=
  { stopped true .held with
    mem := words ([(ctl 0 0x10000, BitVec.ofNat 64 (2 ^ 58 + 2 ^ 16)), (ctl 0 0x10008, 1), (0x800000, imageMark), (0x800008, 16), (0x800018, 4)] ++
      (List.range 4).flatMap areaWords) }
theorem restoring_clean : CleanHandle restoring := ⟨rfl, rfl, rfl⟩
theorem restoring_wf : restoring.mem.wf = true := by decide +kernel
theorem zeros {a n : Nat} (hn : n % 64 = 0) (ha : a + n ≤ 2 ^ 31) (hz : restoring.mem.all (fun c => c.1 < a || a + n ≤ c.1) = true) :
    restoring.imageBytes 0 a n = (some (List.replicate n 0), restoring) := image_zero restoring_clean rfl restoring_wf hn ha hz
theorem wit_restore0 : (restoring.sliceCores 0).length = 4 ∧ restoring.noThread 0 = true ∧ restoring.Inv ∧
    restoring.imageBytes 0 (ctxBase 0x800002) 64 = (some (lineBytes restoring 0x800000 1), restoring) ∧
    wordAt (lineBytes restoring 0x800000 1) 0 = imageMark ∧ (wordAt (lineBytes restoring 0x800000 1) 3).toNat = 4 ∧
    ∃ x, restoring.readSlice 0 0x800000 (lineBytes restoring 0x800000 1) = (some x, restoring) := by
  refine ⟨by decide +kernel, by decide +kernel, inv_of (by decide +kernel), imageBytes_clean restoring_clean (n := 64) (by decide), by decide +kernel,
    by decide +kernel, ?_⟩
  have e1 : (wordAt (lineBytes restoring 0x800000 1) 1).toNat = 16 := by decide +kernel
  have e2 : (wordAt (lineBytes restoring 0x800000 1) 2).toNat = 0 := by decide +kernel
  obtain ⟨x, h⟩ := Option.isSome_iff_exists.mp (show (Codec.slice.read (List.replicate 128 0)).isSome = true by decide +kernel)
  have h1 : restoring.imageBytes 0 (0x800000 + 64) (8 * 16) = _ := zeros (n := 128) (by decide) (by decide) (by decide +kernel)
  have h2 : restoring.imageBytes 0 (0x800000 + 0x400000) (8 * 0) = (some [], restoring) := rfl
  unfold State.readSlice
  rw [e1, e2, h1, withImage_some, h2, withImage_some, h]
  exact ⟨_, rfl⟩

def frameB (i : Nat) : Bool :=
  let a := 0x800000 + 2 ^ 23 * (i + 1)
  let w := frameWord restoring.mem a
  frameOkW w && [0x1000, 512, 0x2000, 1024, 0, 0, 0x3000, 832, 0x100000, 3244032, 0, 0].zipIdx.all (fun x => (w (0x1A0 + x.2)).toNat == x.1) &&
    [(0x1000, 512), (0x2000, 1024), (0x3000, 832), (0x100000, 3244032)].all fun x =>
      restoring.mem.all fun c => c.1 < a + x.1 || a + x.1 + x.2 ≤ c.1
theorem frames : (List.range 4).all frameB = true := by decide +kernel

theorem area_read {i : Nat} (hi : i < 4) : ∃ a, restoring.readArea 0 0x800000 64 i = (.ok a, restoring) := by
  have hb : frameB i = true := List.all_eq_true.mp frames i (List.mem_range.mpr hi)
  generalize ha : 0x800000 + 2 ^ 23 * (i + 1) = area at hb
  have ht : area + 2 ^ 23 ≤ 2 ^ 31 := by omega
  have r1 := imageBytes_clean restoring_clean (a := area) (n := 4096) (by omega)
  rw [lineBytes_plain rfl restoring_wf] at r1
  simp only [frameB, ha, Bool.and_eq_true, ← wordAt_read restoring_wf, ← frameOk_eq] at hb
  obtain ⟨⟨hf, hd⟩, hz⟩ := hb
  simp only [List.zipIdx_cons, List.zipIdx_nil, List.all_cons, List.all_nil, Bool.and_true, Bool.and_eq_true, beq_iff_eq, Nat.reduceAdd] at hd hz
  obtain ⟨d0, d1, d2, d3, d4, d5, d6, d7, d8, d9, d10, d11⟩ := hd
  obtain ⟨z0, z1, z3, z4⟩ := hz
  obtain ⟨a, hr⟩ := areaOf_zero (restoring.mem.read area 4096)
  refine ⟨a, readArea_of (by rw [ha]; exact r1) hf ?_ hr⟩
  rw [ha]
  have nil (s : State) (x : Nat) : s.imageBytes 0 x 0 = (some [], s) := rfl
  refine readImages_cons (by rw [d0, d1]; exact zeros (by decide) (by omega) z0) (readImages_cons (by rw [d2, d3]; exact zeros (by decide) (by omega) z1)
    (readImages_cons (by rw [d4, d5]; exact nil _ _) (readImages_cons (by rw [d6, d7]; exact zeros (by decide) (by omega) z3)
    (readImages_cons (by rw [d8, d9]; exact zeros (by decide) (by omega) z4) (readImages_cons (by rw [d10, d11]; exact nil _ _) rfl)))))

theorem thenPart_ok {ε α β : Type} (a : α) (s : State) (k : α → State → Except ε β × State) : thenPart (.ok a, s) k = k a s := by simp only [thenPart]

/-- SlicesAreBoundStoppedAndMoved: the areas of the image are read. -/
theorem wit_restore : ∃ areas, restoring.readAreas 0 0x800000 64 (List.range 4) = (.ok areas, restoring) ∧ areas.length = 4 := by
  obtain ⟨a0, h0⟩ := area_read (i := 0) (by decide)
  obtain ⟨a1, h1⟩ := area_read (i := 1) (by decide)
  obtain ⟨a2, h2⟩ := area_read (i := 2) (by decide)
  obtain ⟨a3, h3⟩ := area_read (i := 3) (by decide)
  refine ⟨[a0, a1, a2, a3], ?_, rfl⟩
  have e : List.range 4 = [0, 1, 2, 3] := rfl
  rw [e, State.readAreas, h0, thenPart_ok, State.readAreas, h1, thenPart_ok, State.readAreas, h2, thenPart_ok, State.readAreas, h3, thenPart_ok,
    State.readAreas, thenPart_ok, thenPart_ok, thenPart_ok, thenPart_ok]

/-! ### Firmware -/

/-- A booted package with a session of endpoint 5 for function 1, whose slice is 0; a key at the address of KEYSRC; a worker that has taken an entry. -/
def session0 : Session := { ep := 5, func := 1, hash := 0, established := true, lastSeq := some 3 }
def firm : State :=
  { stopped true .running with
    pkgs := [(0, { booted := true, sessions := [session0], endpoints := [(5, 1)], csr := [(0x187, 0x30000)], taken := [(145, 0, 256)]
                   inboxes := [(1, { next := 1, entries := [(0, command 1 [])] })] })]
    mem := words (tables 1 ++ [(0x30000, 1)]), clock := Config.workerLimit }

/-- FirmwareStartsAndAnswers: messages of a code that is answered and of one that is not; a session; a key for its function; a key to load. Whether a
signature holds is an opaque function of Config, so that no state shows it; the statement has both cases. -/
theorem wit_messages : (firm.pkg 0).booted = true ∧ 1 ≤ (3 : W64).toNat ∧ (3 : W64).toNat ≤ 16 ∧ 0x10 ∉ [0x84, 0xE1, 0xE3, 0x81, 0x82, 0x83, 0xE0, 0xE4, 0xE5, 0xEC] ∧
    (firm.pkg 0).sessions.find? (·.ep == 5) = some session0 ∧ (firm.pkg 0).session 5 = some session0 ∧ session0.func = 1 ∧ firm.sliceOfFunc 0 1 = some 0 ∧
    (firm.pkg 0).keys.get? (skNum 0) = none ∧ (firm.pcsr 0 0x180).fld 0 2 ≠ 3 ∧ (1 : BitVec 512).fld 0 256 ≠ (1 : BitVec 512).fld 256 256 ∧ firm.sliceFunc 0 ≠ 0 ∧
    (0x42 : W64).fld 6 2 = 1 ∧ (0x42 : W64).fld 0 6 = 2 ∧ firm.keyBarred 0 2 = false ∧ (0x82 : W64).fld 6 2 = 2 :=
  ⟨rfl, by decide, by decide, by decide, rfl, rfl, rfl, by decide +kernel, rfl, by decide +kernel, by decide +kernel, by decide +kernel, by decide +kernel,
    by decide +kernel, by decide +kernel, by decide +kernel⟩

theorem firm_clean : CleanHandle firm := ⟨rfl, rfl, rfl⟩
theorem wit_keys : ∃ bs, firm.handleRead 0 (firm.pcsr 0 0x187).toNat 64 = (some bs, firm) ∧ bs.take 32 ≠ bs.drop 32 ∧
    ∃ sig, firm.handleRead 0 (0x30000 + 64) 64 = (some sig, firm) := by
  have e : (firm.pcsr 0 0x187).toNat = 0x30000 := by decide +kernel
  rw [e]
  exact ⟨_, handleRead_clean firm_clean (a := 0x30000) 64 (by decide), by decide +kernel, _, handleRead_clean firm_clean 64 (by decide)⟩

theorem wit_worker : (145, 0, 256) ∈ (firm.pkg 0).taken ∧ (∀ c ∈ (firm.pkg 0).taken, c.1 = 146 → firm.clock - c.2.1 < Config.workerLimit) ∧ Config.workerLimit ≤ firm.clock - 0 ∧ (firm.inbox 0 (256 / 256)).entries.get? (256 % 256) = some (command 1 []) :=
  ⟨List.mem_singleton.mpr rfl, fun c h e => absurd ((congrArg (·.1) (List.mem_singleton.mp h)).symm.trans e) (by decide), Nat.le_refl _, rfl⟩

/-- A boot that failed and one that did not; an image of the format, and one that is not. -/
theorem wit_formats : firm.bootFailed 0 = false ∧ ({ firm with pkgs := [(0, { csr := [(0x183, 0xFE00)] })] } : State).bootFailed 0 = true ∧ imageFormed [] = false ∧
    imageFormed (List.replicate 256 0) = true := by
  decide +kernel

/-- A package whose flash is empty does not boot: the first image fails. -/
theorem wit_boot : ((((((fw []).clearPackage 0).readFuses 0).resetFaults 0).drawNonce 0).bootImages 0 [0, 1, 2, 3]).1 = some 0 := by decide +kernel

/-! ### Decoding, stepping, invariants -/

/-- DecodingAnEncodedInstructionGivesItBack: a well-formed instruction of each stream. DecodedWordsAreWellFormed: a word that each decoder admits. -/
theorem wit_streams : (Instr.addI64 4 4 6 1).wf = true ∧ (Instr.vsel 1 2 3 4 5).wf = true ∧ (Instr.mmulOvw 0 1 0 0 0).wf = true ∧ (Instr.cldHbm 0 0 0 0 0x4000).wf = true ∧
    (Instr.packageReset 0).wf = true ∧ (Instr.packageReset 0).stream = .event ∧
    decode ((encode (.addI64 4 4 6 1)).flatMap bytesOfWord ++ [9]) = .ok (.addI64 4 4 6 1, [9]) ∧ decodeVector 0x170C3121 = .ok (.vfmaF32TMultiplier 0x30 0x30 0x31 1 0 1) ∧
    decodeMatrix 0x28200000 = .ok (.mmulOvw 0 1 0 0 0) ∧ decodeCopy 0x04004000 = .ok (.cldHbm 0 0 0 0 0x4000) :=
  ⟨by decide +kernel, by decide +kernel, by decide +kernel, by decide +kernel, by decide +kernel, rfl, rfl, rfl, rfl, rfl⟩

/-- A worker core at physical addresses with one word at its program counter. -/
def fetching (w : W32) : State := { fw [(4, 5), (6, 7)] with mem := Memory.write [] 0x1000 (bytesOfWord w) }

/-- AStepRunsTheDecodedInstruction: an error response that has come back; a word that decodes, one that does not, a core's turn, a ring's turn,
an event. -/
def ringing : State :=
  { fw [] with
    cores := [(145, { fwCore [] with cring := { queue := [{ word := 0x04004000 }], wp := 1 } })], agenda := [.ring 145 2] }
def refusedLate : State := one 145 { fwCore [] with lateErr := [0x20000] }
theorem wit_lateError : refusedLate.agenda = [] ∧ refusedLate.tick.fetches = true ∧ refusedLate.me.lateErr = 0x20000 :: [] ∧
    refusedLate.me.pushHeld = none ∧ refusedLate.me.wait = none ∧ (fetching 0x10300008).me.pushHeld = none ∧
    ({ { fetching 0x10300008 with agenda := [.core 145] }.tick with agenda := [], cur := 145 } : State).me.pushHeld = none ∧
    (fetching 0x10300008).me.lateErr = [] ∧ (fetching 0x10300008).soft = [] ∧ ringing.soft = [] ∧
    ({ { fetching 0x10300008 with agenda := [.core 145] }.tick with agenda := [], cur := 145 } : State).me.lateErr = [] :=
  ⟨rfl, by decide +kernel, rfl, rfl, rfl, rfl, by decide +kernel, rfl, rfl, rfl, by decide +kernel⟩
theorem wit_step : (∃ v, (fetching 0x10300008).tick.fetchInstr = .ok (0x10300008, 0, 0) v) ∧ decodeAccess 0x10300008 0 0 = .ok (.addiI64 3 0 0 8) ∧
    (∃ v, (fetching 0xFE000000).tick.fetchInstr = .ok (0xFE000000, 0, 0) v) ∧ decodeAccess 0xFE000000 0 0 = .error .opcode ∧
    (fetching 0x10300008).agenda = [] ∧ (fetching 0x10300008).tick.fetches = true ∧ (fetching 0x10300008).me.slice = none ∧ (fetching 0x10300008).me.icache = [] ∧
    (fetching 0x10300008).enc = [] ∧ (fetching 0x10300008).poison = [] ∧ normPa (fetching 0x10300008).node (fetching 0x10300008).pc.toNat = 0x1000 ∧
    (fetching 0x10300008).mem.read 0x1000 4 = bytesOfWord 0x10300008 ∧
    (fetching 0x10300008).tick.homeRefuses ((fetching 0x10300008).tick.party (fetching 0x10300008).tick.cur) 0x1000 4 0 false = none ∧
    (0x10300008 : W32).toNat / 2 ^ 25 ≠ 0x40 ∧
    (({ { fetching 0x10300008 with agenda := [.core 145] }.tick with agenda := [], cur := 145 } : State).fetches = true ∧
      ∃ v, (({ { fetching 0x10300008 with agenda := [.core 145] }.tick with agenda := [], cur := 145 } : State).wake (.core 145)).fetchInstr = .ok (0x10300008, 0, 0) v) ∧
    (ringing.agenda = [.ring 145 2] ∧ (let x : State := { ringing.tick with agenda := [], cur := 145 }
      let e : Entry := { word := 0x04004000 }
      (x.ring 2).queue = [e] ∧ (x.ring 2).park = none ∧ (x.ring 2).retry = 0 ∧ e.finished = false ∧ x.aheadOf 2 e = none ∧ x.stopHolds 2 e = false ∧ x.me.randHolds 2 e = false ∧ x.me.partHolds 2 e = false) ∧
      decodeEngine 2 0x04004000 = .ok (.cldHbm 0 0 0 0 0x4000)) := by
  have ok (s : State) (w : W32 × W32 × W32) (h : okAnd s.fetchInstr (fun a _ => a == w) = true) : ∃ v, s.fetchInstr = .ok w v := by
    have ⟨a, v, e, q⟩ := okAnd_spec h
    exact ⟨v, (beq_iff_eq.mp q) ▸ e⟩
  exact ⟨ok _ _ (by decide +kernel), rfl, ok _ _ (by decide +kernel), rfl, rfl, by decide +kernel, rfl, rfl, rfl, rfl, by decide +kernel, by decide +kernel,
    by decide +kernel, by decide +kernel, ⟨by decide +kernel, ok _ _ (by decide +kernel)⟩, rfl, by decide +kernel, rfl⟩

/-- R99: that step adds, and moves to the next word. EveryStepKeepsTheInvariant: a state of the invariant that steps. -/
theorem test_step : (fetching 0x10300008).Inv ∧ ∃ t, step (fetching 0x10300008) = .next t ∧ (t.reg 3, t.pc) = (8, 0x1004) :=
  ⟨inv_of (by decide +kernel), _, rfl, by decide +kernel⟩

/-! ### More of the hypotheses -/

/-- CallsAndReturns: a call that is not taken. FencesReleaseAndDropTheCache: a fence of core scope. -/
theorem wit_callNotTaken : (fw []).pred 0 = decide ((1 : BitVec 1) = 1) ∧ (0 : BitVec 3).toNat = 0 := ⟨rfl, rfl⟩

/-- LoadQueuesTakeAndDeliver: a data read in a live allocation, and one in an allocation that has been lost since its issue. -/
def comingAt (va : W64) : LqSlot := .pending 0x10020 va 8 1 false
def losingRld : State :=
  { one 0 { thCore [] with lq := Vector.replicate 4 { issued := 1, slots := [(0, comingAt 0xF00000000020)] } } with
    mem := words [(satBlock 0 0, 0xCC00F00000000000), (satBlock 0 0 + 8, 0x10000), (satBlock 0 0 + 16, 5 * 2 ^ 37)], slices := [(0, { bound := true })] }
theorem wit_fillLost : (losingRld.core (0 * 256 + 0)).lq[0].slots.get? 0 = some (comingAt 0xF00000000020) ∧
    losingRld.lostAt 0 (losingRld.party 0).func (0xF00000000020 : W64).toNat = some 5 ∧
    (arriving coming).lostAt 0 ((arriving coming).party 0).func (0x10020 : W64).toNat = none :=
  ⟨rfl, by decide +kernel, by decide +kernel⟩

/-- TokensCountAndWait: a store of the core on its way, and none. -/
theorem wit_tokenStores : posting.postedLeft = true ∧ (token { value := BitVec.allOnes 32 }).postedLeft = false ∧
    (token { value := 0xFFFFFFFE }).postedLeft = false := ⟨by decide +kernel, rfl, rfl⟩

/-- GroupsAndBarriers: a begun generation of a group that the core is no member of; of one that it is a member of, which its leave completes,
does not complete, and empties; an arrival that covers the group and one that does not. -/
def begun (g arr : NSet) : State :=
  { th (thCore []) with slices := [(0, { bound := true, groups := [(5, g)], bars := [(5, { gen := 7, arr := arr }), (69, { gen := 8 })] })] }
theorem wit_begun :
    (∀ g arr, (begun g arr).me.slice = some 0 ∧ isFirmware (begun g arr).cur = false ∧ ((begun g arr).slice 0).group (5 : BitVec 7).toNat = g ∧
      (((begun g arr).slice 0).bar 5).arr = arr ∧ (begun g arr).me.slcore = 0 ∧ (begun g arr).me.rldLeft = false ∧ (begun g arr).postedLeft = false ∧
      (begun g arr).me.rc < 2 ^ 40 - 2 ∧ ¬(((begun g arr).me.bar 5).pend = true ∧ ((begun g arr).me.bar 5).tgt = (((begun g arr).slice 0).bar 5).gen)) ∧
    (NSet.has [1, 2] 0 = false ∧ ([1] : NSet) ≠ [] ∧ NSet.sorted [1, 2] = true) ∧
    (NSet.has [0, 1] 0 = true ∧ NSet.del [1] 0 ≠ [] ∧ (∀ c ∈ NSet.del [0, 1] 0, (NSet.del [1] 0).has c = true) ∧ NSet.sorted [0, 1] = true) ∧
    (NSet.has [0, 1, 2] 0 = true ∧ (∃ c ∈ NSet.del [0, 1, 2] 0, (NSet.del [1] 0).has c = false)) ∧ NSet.del [0] 0 = [] ∧
    (NSet.has [0, 1] 0 = true ∧ (∀ m ∈ [0, 1], (NSet.add [1] 0).has m = true)) ∧ (∃ m ∈ [0, 1, 2], (NSet.add [1] 0).has m = false) :=
  ⟨fun _ _ => ⟨rfl, rfl, rfl, rfl, rfl, rfl, rfl, by show (0 : Nat) < _; decide, by show ¬((false : Bool) = true ∧ _); simp⟩,
    by decide, by decide, by decide, by decide, by decide, by decide⟩

/-- CsrsAreReadAndWritten: a core with a slice and one with none; a worker core and the Handle outside handlers, and a worker within one; a
number that the table does not list, one of the firmware complex, and one of the Handle's. -/
theorem wit_csrs2 : (th (thCore [])).me.slice = some 0 ∧ (fw []).me.slice = none ∧ (fw []).me.handling = none ∧ isFirmware (fw []).cur = true ∧
    isHandle (fw []).cur = false ∧ isHandle (handle []).cur = true ∧ (handle []).me.handling = none ∧ (handle []).CanTrap ∧ (handle []).Inv ∧
    (serving.me.handling ≠ none ∧ serving.pred 0 = true ∧ serving.CanTrap ∧ serving.Inv) ∧
    (0x009 ≤ (0x00F : BitVec 12).toNat ∧ (0x00F : BitVec 12).toNat ≤ 0x00F ∧ 0x1C0 ≤ (0xFFF : BitVec 12).toNat) ∧
    (0x100 ≤ (0x108 : BitVec 12).toNat ∧ (0x108 : BitVec 12).toNat ≤ 0x108) ∧ (0x180 ≤ (0x1BF : BitVec 12).toNat ∧ (0x1BF : BitVec 12).toNat ≤ 0x1BF) ∧
    (0x103 : BitVec 12) ∈ [(0x100 : BitVec 12), 0x101, 0x103, 0x111] :=
  ⟨rfl, rfl, rfl, rfl, rfl, rfl, rfl, canTrap_of (by decide +kernel), inv_of (by decide +kernel),
    ⟨by decide, rfl, canTrap_of (by decide +kernel), inv_of (by decide +kernel)⟩, by decide, by decide, by decide, by decide⟩

/-- SwitchMemoryIsAllocated: a worker core that asks for 64 KiB of switch 5 (placement 0, rights RW), with this LIMIT. -/
def asking (limit : W64) (used : List SwSpace := []) (outstanding : Tab (List Posted) := []) (more : List (Nat × W64) := []) : State :=
  { fw [(1, 0x10000), (2, 0x5C)] with
    nodes := [0, 0xA5], pkgs := [(0, { ready := BitVec.allOnes 64, outstanding := outstanding })], switches := [(5, { used := used })]
    mem := words ((quotaAddr 0 0 5, limit) :: more) }
def x5 : SatEntry := wantedEntry 0x10000 0x5C
def ask5 (s : State) : Bool × State := s.askSwitches 0 [5]
/-- The lowest place of the window, past an allocation that stands there. -/
def inWindowB (u : State) (p : Nat) : Bool :=
  p % 65536 == 0 && decide (0xF00000000000 ≤ p) && decide (p + 0x10000 ≤ 2 ^ 48) && (List.range 256).all fun e => u.satFree 0 0 e ||
    decide (p + 0x10000 ≤ (u.satEntry 0 0 e).vbase ∨ (u.satEntry 0 0 e).vbase + (u.satEntry 0 0 e).len ≤ p)
def behind : State := asking 0x100000 [] [] [(satBlock 0 0, 0x4C00F00000000000), (satBlock 0 0 + 8, 0x10000)]
theorem placeAt_isSome (n : Nat) : ∀ (l : List (Nat × Nat)) (k : Nat), k < (l.map (placesIn n)).sum → (placeAt n l k).isSome = true
  | [], _, h => absurd h (by simp)
  | g :: t, k, h => by
    rw [placeAt]
    split
    · rfl
    · exact placeAt_isSome n t _ (by rw [List.map_cons, List.sum_cons] at h; omega)
theorem pickOffset_isSome {s : State} {l : List Nat} {n : Nat} (h : 0 < ((gaps (2 ^ 37) 0 (sortRanges
    (l.flatMap fun sw => (s.switch sw).used.map fun (u : SwSpace) => (u.lo, u.hi)))).map (placesIn n)).sum) : (s.pickOffset l n).1.isSome = true := by
  rw [State.pickOffset]
  simp only
  rw [if_neg (by omega)]
  exact placeAt_isSome n _ _ (Nat.mod_lt _ h)
theorem wit_allocates :
    (badRequest 0x10000 0x5C = false ∧ x5.place = 0 ∧ x5.spaces = [(5, 0, 0x10000)] ∧ (asking 0).myFunc = 0 ∧ (asking 0).satFree 0 0 0 = true) ∧
    ((asking 0).word (quotaAddr 0 0 5)).toNat < ((asking 0).word (quotaAddr 0 0 5 + 8)).toNat + 0x10000 ∧
    ((asking 0x10000).word (quotaAddr 0 0 5 + 8)).toNat + 0x10000 ≤ ((asking 0x10000).word (quotaAddr 0 0 5)).toNat ∧
    ({ asking 0x10000 with pkgs := [] } : State).switchServes 0 0 5 = false ∧ (asking 0x10000).switchServes 0 0 5 = true ∧
    (asking 0x10000 [] [(0xA5, List.replicate 4096 posted)]).switchFull 0 [5] = true ∧ (asking 0x10000).switchFull 0 [5] = false ∧
    (ask5 { asking 0x10000 with nodes := [0] }).1 = false ∧ (ask5 (asking 0x10000)).1 = true ∧
    (∀ o, o + 0x10000 ≤ 2 ^ 37 → ∃ r ∈ ((ask5 (asking 0x10000 [{ lo := 0, hi := 2 ^ 37, holders := [] }])).2.switch 5).used, ¬(o + 0x10000 ≤ r.lo ∨ r.hi ≤ o)) ∧
    (((ask5 behind).2.pickOffset [5] 0x10000).1.isSome = true ∧ inWindowB (ask5 behind).2 0xF00000010000 = true ∧ (ask5 behind).2.Inv) ∧
    (∀ q, 0xF00000000000 ≤ q → q < 0xF00000010000 → q % 65536 = 0 → inWindowB (ask5 behind).2 q = false) := by
  refine ⟨by decide +kernel, by decide +kernel, by decide +kernel, by decide +kernel, by decide +kernel, by decide +kernel, by decide +kernel, by decide +kernel,
    by decide +kernel, ?_, ?_, ?_⟩
  · intro o h
    have e : ((ask5 (asking 0x10000 [{ lo := 0, hi := 2 ^ 37, holders := [] }])).2.switch 5).used = [{ lo := 0, hi := 2 ^ 37, holders := [] }] := by decide +kernel
    rw [e]
    exact ⟨_, List.mem_singleton.mpr rfl, by simp; omega⟩
  · exact ⟨pickOffset_isSome (by decide +kernel), by decide +kernel, inv_of (by decide +kernel)⟩
  · intro q a b c
    have e : q = 0xF00000000000 := by omega
    subst e; decide +kernel

/-- SwitchMemoryIsAllocated: the entry that swfree and swquota find, and its switch, which releases it. -/
def held5 : State :=
  { behind with
    switches := [(5, { used := [{ lo := 0, hi := 0x10000, holders := [(0, 0, 0xF00000000000)] }] })]
    mem := words [(satBlock 0 0, 0x4C00F00000000000), (satBlock 0 0 + 8, 0x10000), (satBlock 0 0 + 16, 5 * 2 ^ 37)]
    cores := [(145, fwCore [(1, 0xF00000000000)])] }
theorem wit_frees : held5.satFree 0 0 0 = false ∧ (held5.satEntry 0 0 0).vbase = (held5.reg 1).toNat ∧ held5.me.slice = none ∧
    (held5.satEntry 0 0 0).spaces = [(5, 0, 0x10000)] ∧ held5.rejoins 0 = false ∧ held5.portBarred held5.cur = false ∧ held5.switchFull 0 [5] = false ∧
    (held5.askEach 0 [(5, 0, 0x10000)]).1 = [(5, 0, 0x10000)] ∧ (held5.askEach 0 [(5, 0, 0x10000)]).2.Inv ∧
    (∀ r ∈ ((held5.askEach 0 [(5, 0, 0x10000)]).2.switch 5).used, r.lo = 0 → r.holders = [(0, 0, 0xF00000000000)]) ∧
    bit (leNat ((held5.askEach 0 [(5, 0, 0x10000)]).2.bytes (satBlock 0 0 + 0x2000) 1)) 0 = false ∧
    (let s : State := { held5 with pkgs := [(0, { ready := BitVec.allOnes 64, outstanding := [(0xA5, List.replicate 4096 posted)] })] }
     s.switchFull 0 [5] = true) ∧
    ((held5.satEntry 0 0 0).state ≠ 0 ∧ (held5.satEntry 0 0 0).vbase ≤ 0xF0000000FFFF ∧ 0xF0000000FFFF < (held5.satEntry 0 0 0).vbase + (held5.satEntry 0 0 0).len) ∧
    (∀ e, e < 256 → ¬((held5.satEntry 0 0 e).state ≠ 0 ∧ (held5.satEntry 0 0 e).vbase ≤ 0xF00000010000 ∧
      0xF00000010000 < (held5.satEntry 0 0 e).vbase + (held5.satEntry 0 0 e).len)) ∧ (2 ^ 48 ≤ (BitVec.ofNat 64 (2 ^ 48) : W64).toNat) := by
  refine ⟨by decide +kernel, by decide +kernel, rfl, by decide +kernel, by decide +kernel, by decide +kernel, by decide +kernel, by decide +kernel,
    inv_of (by decide +kernel), ?_, by decide +kernel, by decide +kernel, by decide +kernel, by decide +kernel, by decide⟩
  have e : ((held5.askEach 0 [(5, 0, 0x10000)]).2.switch 5).used = [{ lo := 0, hi := 0x10000, holders := [(0, 0, 0xF00000000000)] }] := by decide +kernel
  rw [e]; simp

/-- FabricRequestsAreAnswered: a reply that is too old and one that is not; a destination that a switch has declared dead and one that none has; a
notice that reaches a package, or a switch, and one that does not; a failure that is told and one that is not. -/
theorem wit_notices :
    (sending posted0 [] [(4, { seq := 4, reply := 0 })] [] 400001).replyOld 1 0 4 = true ∧
    (sending posted0 [] [(4, { seq := 4, reply := 0 })]).replyOld 1 0 4 = false ∧ (fw []).replyOld 1 0 4 = false ∧
    cutOff.declaredDead 0 1 = true ∧ (sending posted0 [] []).declaredDead 0 1 = false ∧
    (let s : State := { sending posted0 [] [] with pkgs := [(0, { ready := BitVec.allOnes 64 }), (1, { ready := BitVec.allOnes 64, unacked := [0] })], nodes := [0, 1] }
     (s.pkg 1).unacked.has 0 = true ∧ 0 ∈ s.nodes ∧ s.noticeReaches 1 0 = true ∧ s.portUp 1 (0xA0 - 0xA0) = true ∧
      ({ s with pkgs := [(1, { unacked := [0] })] } : State).noticeReaches 1 0 = false) ∧
    (let s : State := { sending posted0 [] [] with pkgs := [(0, { ready := BitVec.allOnes 64 }), (1, { ready := BitVec.allOnes 64, failedSw := [3] })], nodes := [0, 1] }
     s.failureTold 0 3 = true ∧ s.failureTold 0 4 = false) := by decide +kernel

/-- SlicesAreBoundStoppedAndMoved: a refused binding with no migration under way, and with one to the package; a resume with nothing to repeat, of a
slice without a function, and of one whose parked ring is still to repeat its translations; the end of a restore in each of these. -/
def repeating (f : Bool) : State :=
  { stopped true .stopped with
    mem := if f then words (tables 1) else nofunc.mem, cores := [(0, { slice := some 0, cring := { retry := 1, park := some { cause := 0x62, handle := true, fnum := 5 } } })] }
theorem wit_resumes : ((stopped true .running).setPcsr 0 0x102 0x0400000000000000).migratesTo 0 = false ∧
    (let s : State := { stopped true .running with slices := [(0, { bound := true }), (skOf 1 0, { bound := true, kept := true, saved := some 0x800000 })] }
     s.migratesTo 1 = false ∧ s.migratesTo 0 = true ∧ s.bindCode 0 0 = 4) ∧
    (stopped true .stopped).retriesLeft 0 = false ∧ nofunc.sliceFunc 0 = 0 ∧
    ((repeating true).sliceFunc 0 ≠ 0 ∧ (repeating true).retriesLeft 0 = true ∧ ((repeating true).slice 0).stop = .stopped) ∧
    ((repeating false).sliceFunc 0 = 0 ∧ (repeating false).retriesLeft 0 = true) := by decide +kernel

/-- SlicesAreBoundStoppedAndMoved: detaches of a function's own endpoint, with a saved inbox, and of an endpoint that is another's; an attach of an
endpoint that is nobody's; teardowns that begin with a store of the slice's thread on its way, and with none. -/
def epWord (op : Nat) (ep : BitVec 48) : W64 := BitVec.ofNat 64 (op * 2 ^ 54 + 2 ^ 48 + ep.toNat)
theorem epWord_fld {op : Nat} (h : op < 4) (ep : BitVec 48) : (epWord op ep).fld 54 2 = op ∧ (epWord op ep).fld 48 6 = 1 ∧ (epWord op ep).fld 0 48 = ep.toNat := by
  have := ep.isLt
  simp only [epWord, BitVec.fld, BitVec.toNat_ofNat]
  omega
def owning (gone : NSet) : State := { stopped true .stopped with pkgs := [(0, { ownGone := gone })] }
theorem owning_own (ep : Nat) : (owning (List.range 37)).ownFunc 0 ep = none := by
  simp only [State.ownFunc, List.find?_eq_none, Bool.and_eq_true, Bool.not_eq_true']
  have e : ∀ f ∈ List.range 37, ((owning (List.range 37)).pkg 0).ownGone.has f = true := by decide +kernel
  intro f hf h
  rw [e f hf] at h
  cases h.2
def saved0 : State := { stopped true .stopped with slices := [(0, { bound := true, stop := .stopped, saved := some 0x800000 })] }
theorem wit_endpoints :
    (let s := owning (0 :: (List.range 35).map (· + 2))
     (s.pkg 0).endpoints.get? (Config.ownEndpoint 0 1).toNat = none ∧ s.ownFunc 0 (Config.ownEndpoint 0 1).toNat = some 1 ∧
      (epWord 1 (Config.ownEndpoint 0 1)).fld 54 2 = 1 ∧ (epWord 1 (Config.ownEndpoint 0 1)).fld 48 6 = 1 ∧
      (epWord 1 (Config.ownEndpoint 0 1)).fld 0 48 = (Config.ownEndpoint 0 1).toNat ∧
      ∀ k, s.sliceOfFunc 0 1 = some k → (s.slice k).saved = none) ∧
    (saved0.sliceOfFunc 0 1 = some 0 ∧ (saved0.saveInbox 0 0x800000 (saved0.inbox 0 1)).1 = true ∧ (saved0.pkg 0).endpoints.get? 5 = some 1 ∧
      ((saved0.saveInbox 0 0x800000 (saved0.inbox 0 1)).2.pkg 0).endpoints.get? 5 = some 1) ∧
    ((stopped true .stopped).pkg 0).endpoints.get? 5 ≠ some 2 ∧ ((stopped true .stopped).pkg 0).endpoints.get? 5 ≠ none ∧
    (let s := owning (List.range 37)
     s.sliceOfFunc 0 1 = some 0 ∧ (∀ e ∈ (s.pkg 0).endpoints, e.2 ≠ 1) ∧ (s.pkg 0).ownGone.has 1 = true ∧ (s.pkg 0).endpoints.get? 5 = none ∧
      s.ownFunc 0 5 = none ∧ s.Inv) ∧
    (({ stopped true .stopped with slices := [] } : State).sliceOfFunc 0 1 = none) := by
  refine ⟨⟨rfl, ?_, (epWord_fld (by decide) _).1, (epWord_fld (by decide) _).2.1, (epWord_fld (by decide) _).2.2, ?_⟩,
    ⟨by decide +kernel, by decide +kernel, rfl, by decide +kernel⟩, by decide +kernel, by decide +kernel,
    ⟨by decide +kernel, by decide +kernel, by decide +kernel, rfl, owning_own 5, inv_of (by decide +kernel)⟩, by decide +kernel⟩
  · have h0 : ((owning (0 :: (List.range 35).map (· + 2))).pkg 0).ownGone.has 0 = true := by decide +kernel
    have h1 : ((owning (0 :: (List.range 35).map (· + 2))).pkg 0).ownGone.has 1 = false := by decide +kernel
    have e : List.range 37 = 0 :: 1 :: (List.range 35).map (· + 2) := by decide
    rw [State.ownFunc, e, List.find?_cons, h0, List.find?_cons, h1]
    simp
  · intro k h
    have e : (owning (0 :: (List.range 35).map (· + 2))).sliceOfFunc 0 1 = some 0 := by decide +kernel
    rw [e] at h; cases h; rfl

def storing (l : List Posted) : State := { running with pkgs := [(0, { outstanding := if l.isEmpty then [] else [(1, l)] })] }
theorem wit_teardown : (∀ l, ((storing l).slice 0).bound = true ∧ ((storing l).slice 0).stop ≠ .ending ∧ (storing l).transfers = []) ∧
    ((storing [{ posted with core := 0, fw := false, func := 1 }]).slfreeBegin 0 0).slfreeWaits 0 0 = true ∧
    ((storing []).slfreeBegin 0 0).slfreeWaits 0 0 = false ∧ (storing []).Inv :=
  ⟨fun _ => ⟨rfl, by show SliceStop.running ≠ .ending; decide, rfl⟩, by decide +kernel, by decide +kernel, inv_of (by decide +kernel)⟩

/-- AStepRunsTheDecodedInstruction: a wait that goes on; a word of the own package; a ring that nothing holds, with an entry that opens no window; a
teardown. -/
theorem wit_turns : (timed.agenda = [] ∧ timed.tick.fetches = true ∧ timed.me.pushHeld = none ∧ timed.me.wait = some { start := 0, word := 0x6182B000 } ∧
      decodeAccess 0x6182B000 0 0 = .ok (.waitTk 6 5 12)) ∧
    ((fetching 0x10300008).me.upsets = [] ∧ 0x1000 / 2 ^ 48 = (fetching 0x10300008).node) ∧
    (let x : State := { ringing.tick with agenda := [], cur := 145 }
     let e : Entry := { word := 0x04004000 }
     x.ringHeld 2 e = false ∧ e.stale = false ∧ e.waitk = 0 ∧ ringing.poison = [] ∧ (x.setMe (x.me.openWindow 2 e)).aheadOf 2 e = none) ∧
    ({ State.reset with agenda := [.teardown 0 0] } : State).agenda = .teardown 0 0 :: [] :=
  ⟨⟨rfl, by decide +kernel, rfl, rfl, rfl⟩, ⟨rfl, by decide +kernel⟩, ⟨by decide +kernel, rfl, rfl, rfl, by decide +kernel⟩, rfl⟩

/-! ### Worked examples of the spec -/

/-- Table 4.6: the grants of M 100, N 40, K 300 in b4g24, and sh1 of 104 lanes of w32. -/
theorem test_grants : (∃ t, exec (.setshapeM 4 1 9 0 2) (fw [(1, 100), (2, 40), (3, 300)]) = .next t ∧ (t.me.sh[2], t.reg 4) = (0xA904E12C28286864, 300)) ∧
    (∃ t, exec (.setshapeM 4 1 9 0 2) { fw [(1, 100), (2, 40), (3, 300)] with pkgs := [(0, { uv720 := true })] } = .next t ∧
      (t.me.sh[2], t.reg 4) = (0xA904E12C20206864, 300)) ∧
    (∃ t, exec (.setshapeV 4 1 0x12 0 1) (fw [(1, 104)]) = .next t ∧ (t.me.sh[1], t.reg 4) = (0x920000000001C068, 104)) := by
  refine ⟨⟨_, rfl, ?_⟩, ⟨_, rfl, ?_⟩, ⟨_, rfl, ?_⟩⟩ <;> decide +kernel

/-- Table 6.5: one pass, and its sum added to the slot. -/
theorem test_pass : sumOf (List.zipWith FVal.mul ([0x4580, 0x3F80, 0x3F80, 0x3080].map bf16.value) ([0x4580, 0x3F80, 0x3F00, 0x3080].map bf16.value)) = 0x4B800001 ∧
    addF 0 0xCB800000 0x4B800001 = 0x40000000 := by decide +kernel

/-- R92's example: 10.0, −7.0 and 0.3 in a block of b4g16. -/
theorem test_quantise : quantise 0x08 0 ([0x41200000, 0xC0E00000, 0x3E99999A] ++ List.replicate 13 0) = (0x80, [0x6, 0xE, 0x0] ++ List.replicate 13 0) := by
  decide +kernel

/-- Table 10.7: three comparisons, the shadows being 2.25, 1.9375 and 2.25. -/
theorem test_shadow : divergesF [0x3F800000] 0x40100000 (.fin false 18 (-3)) false 0 = false ∧ divergesF [0x3F800000] 0x40000000 (.fin false 31 (-4)) false 0 = false ∧
    divergesF [0x3F800000] 0x40300000 (.fin false 18 (-3)) false 0 = true := by decide +kernel

/-- The MXFP4 example: codes 0x5 and 0xF under scale 0x7D are 0.75 and −1.5. -/
theorem test_scaled : f32.round 0 (scaledValue e2m1 0x5 0x7D) = 0x3F400000 ∧ f32.round 0 (scaledValue e2m1 0xF 0x7D) = 0xBFC00000 := by decide +kernel

/-- Table 12.5: bf16 with WIDE, members 2^24, 1 and 1. -/
def round3 : RedCtx :=
  { valid := true, op := 0, fmt := 0x01, wide := true, m := 3, n := 1, tmo := 1, parts := [(0, [0x80, 0x4B]), (1, [0x80, 0x3F]), (2, [0x80, 0x3F])] }
theorem test_round : round3.result = [0x00, 0x00, 0x80, 0x4B] := by decide +kernel

/-- Table 5.5: one translation through both stages, and the leaf after the first write. -/
def walking : State :=
  { one 0 (thCore []) with
    slices := [(0, { bound := true, s1root := 0x3000 })]
    mem := words [(0x1000, 0x2003), (0x2000, 0x020000000000001D), (0x2008, 0x5003), (0x3000, 0x4003), (0x4000, 0x7003), (0x5000, 0x6003),
      (0x60A0, 0x0CFF00128123000D), (0x7488, 0x000000004000000D), (ctl 0 0x10000, BitVec.ofNat 64 (2 ^ 58 + 2 ^ 16)), (ctl 0 0x10008, 0x2000000001),
      (ctl 0 0x10030, 0x1000)] }
def pageAnd (r : XRes Page) (p : Page → State → Bool) : Bool := match r with | .ok pg s => p pg s | _ => false
theorem test_walk : pageAnd (walking.translate 0 0x12345678 .read) (fun pg _ => pg.pa == 0x1281235678 && pg.enc && pg.fmt == 0x01 && pg.left == 0x10000 - 0x5678) = true ∧
    pageAnd (walking.translate 0 0x12345678 .write) (fun _ s => s.word 0x60A0 == 0x0EFF00128123000D) = true := by decide +kernel

end Sys2Proof.Tests
end

/-!
THE INVARIANT, kept by every step (R4, R59, R237). The state runs through every part of an instruction, so each part has one lemma, named after
it: what it leaves of a state of the invariant is again one. A part answers more than a state; `Res.Inv` and its like say of an answer that the
state in it is one of the invariant, and `.ok`, `.pair` and the like take that state out. So `h.translate.ok e` reads as the model does:
translate, and go on with what it answered.

Memory and the full tags change in few places, and there the laws of `Memory` and `NSet` are used: the writes of memory (`setBytes`,
`poke`), one word's tag (`tagFilled`, `tagEmptied`), the wipe of a range, the marks of `ctag` and the restore of a core. Everywhere else a proof
follows the branches of the model, and each leaf names the parts that its branch is made of.
-/
section
namespace Sys2Proof.Machine

/-- The state that a part of an instruction leaves, whether it goes on or ends the instruction. -/
def Res.Inv {α : Type} : Res α → Prop
  | .ok _ s => s.Inv
  | .stop s => s.Inv
/-- The state that a translation leaves. -/
def XRes.Inv {α : Type} : XRes α → Prop
  | .ok _ s => s.Inv
  | .fault _ s => s.Inv
  | .refused _ _ s => s.Inv
/-- The state that an access of memory leaves. -/
def Acc.Inv {α : Type} : Acc α → Prop
  | .ok _ s => s.Inv
  | .err _ _ s => s.Inv
  | .poison _ s => s.Inv
  | .race _ _ s => s.Inv
/-- The state that the choice of a turn leaves. -/
def Turn.Inv : Turn → Prop
  | .exec _ s => s.Inv
  | .idle s => s.Inv
/-- The state after an instruction, where it answers one. -/
def Out.Inv : Out → Prop
  | .next s => s.Inv
  | .fault _ => True
  | .refused _ => True
/-- The state after a command. -/
def Done.Inv (d : Done) : Prop := d.state.Inv

section
variable {α β γ : Type} {s t : State}

/-! ### The state in an answer -/

theorem Res.Inv.ok {r : Res α} {v : α} (h : r.Inv) (e : r = .ok v s) : s.Inv := by subst e; exact h
theorem Res.Inv.stop {r : Res α} (h : r.Inv) (e : r = .stop s) : s.Inv := by subst e; exact h
theorem XRes.Inv.ok {r : XRes α} {v : α} (h : r.Inv) (e : r = .ok v s) : s.Inv := by subst e; exact h
theorem XRes.Inv.fault {r : XRes α} {f : XFault} (h : r.Inv) (e : r = .fault f s) : s.Inv := by subst e; exact h
theorem XRes.Inv.refused {r : XRes α} {c a : Nat} (h : r.Inv) (e : r = .refused c a s) : s.Inv := by subst e; exact h
theorem Acc.Inv.ok {r : Acc α} {v : α} (h : r.Inv) (e : r = .ok v s) : s.Inv := by subst e; exact h
theorem Acc.Inv.err {r : Acc α} {c a : Nat} (h : r.Inv) (e : r = .err c a s) : s.Inv := by subst e; exact h
theorem Acc.Inv.poison {r : Acc α} {a : Nat} (h : r.Inv) (e : r = .poison a s) : s.Inv := by subst e; exact h
theorem Acc.Inv.race {r : Acc α} {c : Nat} {w : W64} (h : r.Inv) (e : r = .race c w s) : s.Inv := by subst e; exact h
theorem Turn.Inv.exec {r : Turn} {i : Instr} (h : r.Inv) (e : r = .exec i s) : s.Inv := by subst e; exact h
theorem Turn.Inv.idle {r : Turn} (h : r.Inv) (e : r = .idle s) : s.Inv := by subst e; exact h
theorem Out.Inv.next {r : Out} (h : r.Inv) (e : r = .next s) : s.Inv := by subst e; exact h
/-- The state of a pair that an operation answers. -/
theorem State.Inv.pair {p : α × State} {a : α} (h : p.2.Inv) (e : p = (a, s)) : s.Inv := by subst e; exact h
theorem State.Inv.triple {p : α × β × State} {a : α} {b : β} (h : p.2.2.Inv) (e : p = (a, b, s)) : s.Inv := by subst e; exact h
theorem State.Inv.quad {p : α × β × γ × State} {a : α} {b : β} {c : γ} (h : p.2.2.2.Inv) (e : p = (a, b, c, s)) : s.Inv := by
  subst e; exact h

/-! ### Conditions and loops -/

theorem State.Inv.ite {c : Prop} [Decidable c] (h : s.Inv) (h' : t.Inv) : (if c then s else t).Inv := by split <;> assumption
theorem State.Inv.ite_pair {c : Prop} [Decidable c] {p : β × State} {b : β} (hp : p.2.Inv) (ht : t.Inv) :
    (if c then p else (b, t)).2.Inv := by
  split <;> assumption
theorem Res.Inv.ite {c : Prop} [Decidable c] {r r' : Res α} (h : r.Inv) (h' : r'.Inv) : (if c then r else r').Inv := by
  split <;> assumption
theorem Done.Inv.ite {c : Prop} [Decidable c] {d d' : Done} (h : d.Inv) (h' : d'.Inv) : (if c then d else d').Inv := by
  split <;> assumption
theorem State.Inv.foldl {f : State → α → State} {l : List α} (h : s.Inv) (hf : ∀ s a, s.Inv → (f s a).Inv) : (l.foldl f s).Inv := by
  induction l generalizing s with
  | nil => exact h
  | cons a l ih => exact ih (hf s a h)
theorem State.Inv.foldl_snd {f : β × State → α → β × State} {l : List α} {p : β × State} (h : p.2.Inv)
    (hf : ∀ p a, p.2.Inv → (f p a).2.Inv) : (l.foldl f p).2.Inv := by
  induction l generalizing p with
  | nil => exact h
  | cons a l ih => exact ih (hf p a h)

/-! ### The state's own operations: the laws, with implicit arguments so that they chain, and the full tags -/

theorem State.Inv.setMe {c : Core} (h : s.Inv) : (s.setMe c).Inv := State.setMe_Inv h c
theorem State.Inv.putCore {ck : Nat} {c : Core} (h : s.Inv) : (s.putCore ck c).Inv := State.putCore_Inv h ck c
theorem State.Inv.setBytes {a : Nat} {bs : List Byte} (h : s.Inv) : (s.setBytes a bs).Inv := State.setBytes_Inv h a bs
theorem State.Inv.setWord {a : Nat} {v : W64} (h : s.Inv) : (s.setWord a v).Inv := State.setWord_Inv h a v
theorem State.Inv.poke {k : Option Key} {a : Nat} {bs : List Byte} (h : s.Inv) : (s.poke k a bs).Inv := State.poke_Inv h k a bs
theorem State.Inv.noteWrite {ck n : Nat} {pg : Page} (h : s.Inv) : (s.noteWrite ck pg n).Inv := State.noteWrite_Inv h ck pg n
theorem State.Inv.count {node cause : Nat} (h : s.Inv) : (s.count node cause).Inv := State.count_inv h node cause
theorem State.Inv.tagFilled (h : s.Inv) (a : Nat) : State.Inv { s with tags := s.tags.add a } := ⟨h.1, NSet.sorted_add h.2 a⟩
theorem State.Inv.tagEmptied (h : s.Inv) (a : Nat) : State.Inv { s with tags := s.tags.del a } := ⟨h.1, NSet.sorted_del h.2 a⟩

end
end Sys2Proof.Machine
end

section
namespace Sys2Proof.Machine
variable {s : State} {α β : Type}

/-! ### The parts of the state, what is due later, and what the environment chooses -/

theorem State.Inv.putSlice {sk : Nat} {c : Slice} (h : s.Inv) : (s.putSlice sk c).Inv := h
theorem State.Inv.putPkg {n : Nat} {p : Package} (h : s.Inv) : (s.putPkg n p).Inv := h
theorem State.Inv.putSwitch {n : Nat} {w : Switch} (h : s.Inv) : (s.putSwitch n w).Inv := h
theorem State.Inv.later {k : Happening} (h : s.Inv) : (s.later k).Inv := h
theorem State.Inv.now {k : Happening} (h : s.Inv) : (s.now k).Inv := h

theorem State.Inv.wake {k : Happening} (h : s.Inv) : (s.wake k).Inv := by
  unfold State.wake
  split
  · exact h
  · exact h.later

theorem State.Inv.pickBool (h : s.Inv) : s.pickBool.2.Inv := h

theorem State.Inv.pickNat (h : s.Inv) : s.pickNat.2.Inv := h

theorem State.Inv.pickW64 (h : s.Inv) : s.pickW64.2.Inv := h

/-! ### Records and counters of the reliability engine (R310 to R314) -/

theorem State.Inv.setPcsr {node n : Nat} {v : W64} (h : s.Inv) : (s.setPcsr node n v).Inv := h.putPkg
theorem State.Inv.relPut {node : Nat} {r : Rec} (h : s.Inv) : (s.relPut node r).Inv := h.poke.putPkg.setPcsr
theorem State.Inv.relLose {node : Nat} (h : s.Inv) : (s.relLose node).Inv := h.putPkg.setPcsr

theorem State.Inv.writeRecord {node : Nat} {r : Rec} (h : s.Inv) : (s.writeRecord node r).Inv := by
  unfold State.writeRecord
  split
  · exact h.relLose
  extract_lets _ s1 s2 s3
  have h1 : s1.Inv := h.count
  have h2 : s2.Inv := h1.relPut
  have h3 : s3.Inv := h2.setPcsr
  split
  · exact h.relPut
  split
  · exact h3.relLose
  · exact h3.relPut

theorem State.Inv.record {node : Nat} {r : Rec} (h : s.Inv) : (s.record node r).Inv := h.count.writeRecord

/-! ### The sending side of the fabric (R277 to R283) -/

theorem State.Inv.takeFate (h : s.Inv) : s.takeFate.2.Inv := by
  unfold State.takeFate
  split <;> exact h

theorem State.Inv.way {me dst : Nat} (h : s.Inv) : (s.way me dst).2.Inv := by
  unfold State.way
  split
  · exact h
  split
  · exact h
  split
  · exact h
  split
  · exact h
  · exact h.pickNat

theorem State.Inv.sendTries {me dst n : Nat} {b : Bool} (h : s.Inv) : (s.sendTries me dst n b).2.Inv := by
  induction n generalizing s b with
  | zero => exact h
  | succ n ih =>
    rw [State.sendTries]
    split
    · exact ih (h.way.pair ‹_›)
    · exact h.way.pair ‹_›
    have h1 := h.way.pair ‹_›
    split
    · exact ih (h1.takeFate.pair ‹_›)
    · exact ih (h1.takeFate.pair ‹_›)
    · exact h1.takeFate.pair ‹_›

theorem State.Inv.answerTagged {ck : Nat} {r : TagReply} (h : s.Inv) : (s.answerTagged ck r).Inv := by
  unfold State.answerTagged
  extract_lets _ s1
  have h1 : s1.Inv := h
  split
  · exact h1.putCore.wake
  · exact h1

theorem State.Inv.wakeEnded {ck : Nat} (h : s.Inv) : (s.wakeEnded ck).Inv := by
  unfold State.wakeEnded
  split
  · exact h.wake
  · exact h

theorem State.Inv.failPosted {q : Posted} (h : s.Inv) : (s.failPosted q).Inv := by
  unfold State.failPosted
  extract_lets _ _ s1
  have h1 : s1.Inv := h.putCore
  split
  · exact h1.putCore.wake
  · exact h1.wakeEnded

theorem State.Inv.losePosted {me dst : Nat} {lost : List Posted} {q : Posted} (h : s.Inv) : (s.losePosted me dst lost q).Inv := by
  unfold State.losePosted
  extract_lets _ s1
  have h1 : s1.Inv := .ite h.record h
  exact h1.failPosted

theorem State.Inv.wakeWaiters {me sw : Nat} (h : s.Inv) : (s.wakeWaiters me sw).Inv := h.foldl fun _ _ h1 => h1.putSwitch.wake

theorem State.Inv.failRlds {me dst cause : Nat} (h : s.Inv) : (s.failRlds me dst cause).Inv := h

theorem State.Inv.failOutstanding {me dst cause : Nat} (h : s.Inv) : (s.failOutstanding me dst cause).Inv := by
  unfold State.failOutstanding
  extract_lets _ _ s1 s2 s3 s4 s5 s6
  have h1 : s1.Inv := h.putPkg
  have h2 : s2.Inv := h1
  have h3 : s3.Inv := h2.foldl fun _ _ h3 => h3.losePosted
  have h4 : s4.Inv := h3.failRlds
  have h5 : s5.Inv := by
    unfold s5
    refine h4.foldl fun _ _ h5 => ?_
    extract_lets
    split
    · exact h5.putCore.record
    · exact h5
  have h6 : s6.Inv := h5.foldl fun _ _ h6 => h6.answerTagged
  split
  · exact h6.wakeWaiters
  · exact h6

theorem State.Inv.declareDead {me dst pa : Nat} (h : s.Inv) : (s.declareDead me dst pa).Inv := h.putPkg.record.failOutstanding

theorem State.Inv.nextSeq {me dst : Nat} (h : s.Inv) : (s.nextSeq me dst).2.Inv := h.putPkg

theorem State.Inv.nextIndex {ck unit dst : Nat} (h : s.Inv) : (s.nextIndex ck unit dst).2.Inv := h.putPkg

theorem State.Inv.cacheReply {home src seq : Nat} {v : W64} (h : s.Inv) : (s.cacheReply home src seq v).Inv := by
  unfold State.cacheReply
  split
  · exact h.putSwitch
  · exact h.putPkg

theorem State.Inv.cacheOwn {ck pa seq : Nat} {v : W64} (h : s.Inv) : (s.cacheOwn ck pa seq v).Inv := by
  unfold State.cacheOwn
  split
  · exact h
  · exact h.cacheReply

theorem State.Inv.fabric {ck pa : Nat} (h : s.Inv) : (s.fabric ck pa).2.2.2.Inv := by
  unfold State.fabric
  extract_lets
  split
  · exact h
  split
  have h1 := h.nextSeq.pair ‹_›
  split
  · exact h1.record
  split
  have h2 := h1.sendTries.pair ‹_›
  split
  · exact h2
  split
  · exact h2.record
  · exact h2.declareDead

/-! ### Translation (R58 to R70), with the dirty bits that a walk writes into descriptors -/

theorem State.Inv.refuse {p : Party} {pa cause : Nat} (h : s.Inv) : (s.refuse p pa cause).Inv := h.record

theorem State.Inv.refuseSent {p : Party} {pa cause : Nat} (h : s.Inv) : (s.refuseSent p pa cause).2.Inv := by
  unfold State.refuseSent
  split
  · exact h.refuse
  split
  · exact h.fabric.quad ‹_›
  · exact (h.fabric.quad ‹_›).refuse

theorem State.Inv.refuseLost {p : Party} {va sw : Nat} (h : s.Inv) : (s.refuseLost p va sw).Inv := h.record

theorem State.Inv.descAtHome {wait : Bool} {p : Party} {node die a : Nat} {key : Option Key} (h : s.Inv) :
    (s.descAtHome wait p node die a key).2.Inv := by
  unfold State.descAtHome
  split
  · exact h
  split
  have h1 := h.fabric.quad ‹_›
  split
  · exact h1
  split
  · exact h1.refuse
  dsimp only
  split
  · exact h1.putPkg
  · exact h1

theorem State.Inv.readDesc {wait : Bool} {p : Party} {node die a : Nat} {key : Option Key} (h : s.Inv) :
    (s.readDesc wait p node die a key).2.Inv := by
  unfold State.readDesc
  split
  · split
    · exact h
    split
    have h1 := h.pickBool.pair ‹_›
    split
    · exact h1
    · exact h1.descAtHome
  · exact h.descAtHome

theorem State.Inv.walk2 {wait : Bool} {node die x : Nat} {l : List Nat} {n : Nat} (h : s.Inv) : (s.walk2 wait node die x l n).Inv := by
  induction l generalizing s n with
  | nil => exact h
  | cons a l ih =>
    rw [State.walk2]
    split
    · exact h.refuseSent
    split
    · exact h.readDesc.pair ‹_›
    · exact h.readDesc.pair ‹_›
    have h1 := h.readDesc.pair ‹_›
    split
    · exact h1
    split
    · exact h1
    split
    · exact ih h1
    · exact h1

theorem State.Inv.walkOf1 {wait : Bool} {sk die ipa : Nat} (h : s.Inv) : (s.walkOf1 wait sk die ipa).Inv := by
  unfold State.walkOf1
  split
  · have h1 := h.walk2.ok ‹_›
    split
    · exact h1
    · extract_lets
      split <;> exact h1
  · exact h.walk2.fault ‹_›
  · exact h.walk2.refused ‹_›

theorem State.Inv.walk1 {wait : Bool} {p : Party} {sk x : Nat} {l : List Nat} {n : Nat} (h : s.Inv) : (s.walk1 wait p sk x l n).Inv := by
  induction l generalizing s n with
  | nil => exact h
  | cons a l ih =>
    rw [State.walk1]
    split
    · exact h.walkOf1.fault ‹_›
    · exact h.walkOf1.refused ‹_›
    have h1 := h.walkOf1.ok ‹_›
    split
    · exact h1.refuseSent
    split
    · exact h1.readDesc.pair ‹_›
    · exact h1.readDesc.pair ‹_›
    have h2 := h1.readDesc.pair ‹_›
    split
    · exact h2
    split
    · exact h2
    split
    · exact ih h2
    · exact h2

theorem State.Inv.walkBoth {p : Party} {sk va : Nat} (h : s.Inv) : (s.walkBoth p sk va).Inv := by
  unfold State.walkBoth
  split
  · exact h.walk1.fault ‹_›
  · exact h.walk1.refused ‹_›
  extract_lets
  have h1 := h.walk1.ok ‹_›
  split
  · exact h1.walk2.fault ‹_›
  · exact h1.walk2.refused ‹_›
  · exact h1.walk2.ok ‹_›

theorem State.Inv.setDirty {node die a : Nat} {d : W64} (h : s.Inv) : (s.setDirty node die a d).Inv := h.setWord.putPkg

theorem State.Inv.emptyWalks {node die : Nat} (h : s.Inv) : (s.emptyWalks node die).Inv := h.putPkg

theorem State.Inv.swWalk {p : Party} {sk va : Nat} {k : Kind} (h : s.Inv) : (s.swWalk p sk va k).Inv := by
  unfold State.swWalk
  split
  · exact h
  extract_lets
  split
  · exact h
  split
  · exact h
  split
  · exact h
  split
  · exact h
  split
  · exact h.refuseLost
  split
  · exact h
  · exact h
  split
  · split <;> exact h
  · exact h

theorem State.Inv.xlate {ck sk va : Nat} {k : Kind} {e : TlbEntry} (h : s.Inv) : (s.xlate ck sk va k e).Inv := by
  unfold State.xlate
  extract_lets _ _ _ _ s1 s2
  have h1 : s1.Inv := .ite h.setDirty h
  have h2 : s2.Inv := h1.putCore
  split
  · exact h
  · exact h2

theorem State.Inv.xlateNew {ck sk va : Nat} {k : Kind} {e : TlbEntry} (h : s.Inv) : (s.xlateNew ck sk va k e).Inv := by
  unfold State.xlateNew
  split
  · split
    · exact (h.emptyWalks.walkBoth.ok ‹_›).xlate
    · exact h.emptyWalks.walkBoth.fault ‹_›
    · exact h.emptyWalks.walkBoth.refused ‹_›
  · exact h.xlate

theorem State.Inv.translateIn {ck sk : Nat} {va : W64} {k : Kind} (h : s.Inv) : (s.translateIn ck sk va k).Inv := by
  unfold State.translateIn
  extract_lets
  split
  · exact h
  split
  · exact h.swWalk
  split
  · split
    · exact (h.walkBoth.ok ‹_›).xlateNew
    · exact h.walkBoth.fault ‹_›
    · exact h.walkBoth.refused ‹_›
  split
  · have h1 := h.walkBoth.ok ‹_›
    split
    · exact h1.xlateNew
    split
    have h2 := h1.pickBool.pair ‹_›
    split
    · exact h2.xlate
    · exact h2.xlateNew
  · have h3 := h.walkBoth.fault ‹_›
    split
    · exact h3
    split
    have h4 := h3.pickBool.pair ‹_›
    split
    · exact h4.xlate
    · exact h4
  · exact h.walkBoth.refused ‹_›

theorem State.Inv.translate {ck : Nat} {va : W64} {k : Kind} (h : s.Inv) : (s.translate ck va k).Inv := by
  unfold State.translate
  split
  · exact h.translateIn
  · exact h

/-! ### One access at its home: the bytes of a store, the races and the stamps (R268 to R271, R304, R305) -/

theorem State.Inv.takeUpset {ck unit : Nat} (h : s.Inv) : (s.takeUpset ck unit).2.Inv := by
  unfold State.takeUpset
  extract_lets
  split
  · split
    · exact h.putCore
    · exact h
  · exact h

theorem State.Inv.racing {ck : Nat} {pg : Page} {len : Nat} (h : s.Inv) : (s.racing ck pg len).2.Inv := by
  unfold State.racing
  split
  · exact h
  extract_lets lost
  have h1 : lost.Inv := h
  split
  · have h2 := h.takeUpset.pair ‹_›
    exact .record h2
  split
  · exact h
  split
  split
  · exact (h1.pickBool.pair ‹_›).count
  · exact h

theorem State.Inv.countRelease {ck : Nat} (h : s.Inv) : (s.countRelease ck).Inv := by
  unfold State.countRelease
  extract_lets _ _ _ s1
  have h1 : s1.Inv := h.putCore
  split
  · exact h
  split
  · exact h1.record
  · exact h1

theorem State.Inv.addStamps {pa len : Nat} {l : List Stamp} (h : s.Inv) : (s.addStamps pa len l).Inv := by
  unfold State.addStamps
  split <;> exact h

theorem State.Inv.stamp {ck scope pa len : Nat} (h : s.Inv) : (s.stamp ck scope pa len).Inv := h.addStamps

theorem State.Inv.viewOf {ck r k : Nat} (h : s.Inv) : (s.viewOf ck r k).2.Inv := by
  unfold State.viewOf
  extract_lets
  split
  · exact h
  split
  · exact (h.takeUpset.pair ‹_›).record
  split
  · exact h
  · exact h.count

theorem State.Inv.mergeInto {ck : Nat} {v : Tab Nat} (h : s.Inv) : (s.mergeInto ck v).Inv := h.putCore

theorem State.Inv.mergeFrom {ck r k : Nat} (h : s.Inv) : (s.mergeFrom ck r k).Inv := h.viewOf.mergeInto

theorem State.Inv.acquireStamp {ck scope pa : Nat} {t : Stamp} (h : s.Inv) : (s.acquireStamp ck scope pa t).Inv := by
  unfold State.acquireStamp
  split
  · exact h
  split
  · split
    have h1 := h.pickBool.pair ‹_›
    split
    · exact h1.mergeInto
    · exact h1.mergeFrom
  · exact h.mergeFrom

theorem State.Inv.acquireAt {ck scope pa len : Nat} (h : s.Inv) : (s.acquireAt ck scope pa len).Inv := by
  unfold State.acquireAt
  split
  · exact h.foldl fun _ _ h1 => h1.acquireStamp
  · exact h

theorem State.Inv.noteSeen {ck va pa len : Nat} {l : List Stamp} (h : s.Inv) : (s.noteSeen ck va pa len l).Inv := by
  unfold State.noteSeen
  split
  · exact h
  · exact h.putCore

theorem State.Inv.noteRead {ck va pa len : Nat} (h : s.Inv) : (s.noteRead ck va pa len).Inv := h.noteSeen

theorem State.Inv.fenceAcquire {ck scope lo hi : Nat} (h : s.Inv) : (s.fenceAcquire ck scope lo hi).Inv :=
  h.putCore.foldl fun _ _ h1 => h1.acquireStamp

theorem State.Inv.fenceRelease {ck scope lo hi : Nat} (h : s.Inv) : (s.fenceRelease ck scope lo hi).Inv := h.countRelease.putCore

theorem State.Inv.refuseRemote {p : Party} {pa cause kind : Nat} (h : s.Inv) : (s.refuseRemote p pa cause kind).2.Inv := by
  unfold State.refuseRemote
  extract_lets
  split
  have h1 := h.refuseSent.pair ‹_›
  split
  · exact h1
  · exact h1.record

theorem State.Inv.correct {ck pa len : Nat} (h : s.Inv) : (s.correct ck pa len).Inv := h.foldl fun _ _ h1 => .record h1

theorem State.Inv.dieCache {ck pa : Nat} (h : s.Inv) : (s.dieCache ck pa).Inv := by
  unfold State.dieCache
  split
  · split
    · exact (h.takeUpset.pair ‹_›).record
    · exact h
  · exact h

/-- The refusal of an access leaves the state of its record. -/
theorem State.Inv.refusal {pa : Nat} {r : Nat × State} (h : r.2.Inv) : (Acc.refusal (α := α) pa r).Inv := h

theorem State.Inv.loadAt {ck : Nat} {pg : Page} {len : Nat} (h : s.Inv) : (s.loadAt ck pg len).Inv := by
  unfold State.loadAt
  extract_lets
  split
  · exact h.refuseSent.refusal
  split
  have h1 := h.fabric.quad ‹_›
  split
  · exact h1
  extract_lets
  split
  · split
    · exact h1.refuse
    · exact h1
  split
  · exact h1.racing.pair ‹_›
  · exact (h1.racing.pair ‹_›).correct.dieCache

theorem State.Inv.mirrorWrite {sw pa : Nat} {bs : List Byte} {src seq : Nat} (h : s.Inv) : (s.mirrorWrite sw pa bs src seq).Inv :=
  h.putSwitch

theorem State.Inv.mirrorPut {m : Nat × List Byte × Nat × Nat} (h : s.Inv) : (s.mirrorPut m).Inv := h.poke.cacheReply

theorem State.Inv.mirrorDone {sw : Nat} (h : s.Inv) : (s.mirrorDone sw).Inv := by
  unfold State.mirrorDone
  extract_lets
  split
  · exact h
  · exact h.putSwitch.mirrorPut

theorem State.Inv.noteMirror {node func e : Nat} (h : s.Inv) : (s.noteMirror node func e).Inv := by
  unfold State.noteMirror
  extract_lets
  split
  · exact h
  · exact h.putPkg

theorem State.Inv.controlPut {node off : Nat} {bs : List Byte} (h : s.Inv) : (s.controlPut node off bs).Inv :=
  h.poke.foldl fun _ _ h1 => .ite h1.setWord.putPkg (.ite h1.setWord.noteMirror h1.setWord)

theorem State.Inv.put {pg : Page} {bs : List Byte} {src seq : Nat} (h : s.Inv) : (s.put pg bs src seq).Inv := by
  unfold State.put
  extract_lets s1
  have h1 : s1.Inv := by
    unfold s1
    split
    · exact h.controlPut
    · exact h.poke
  split
  · exact h1
  · exact h1.mirrorWrite.mirrorDone

theorem State.Inv.storeAt {ck : Nat} {pg : Page} {bs : List Byte} (h : s.Inv) : (s.storeAt ck pg bs).Inv := by
  unfold State.storeAt
  extract_lets
  split
  · exact h.refuseSent.refusal
  split
  · exact h.racing.pair ‹_›
  split
  extract_lets s1
  have h1 : s1.Inv := by
    unfold s1
    have h2 := h.racing.pair ‹_›
    have h3 := h2.fabric.quad ‹_›
    split
    · exact h3.put.noteWrite.cacheOwn
    · exact h3
  split <;> exact h1

theorem State.Inv.routerResult {ck : Nat} {v : W64} (h : s.Inv) : (s.routerResult ck v).2.Inv := by
  unfold State.routerResult
  split <;> exact h.takeUpset.pair ‹_›

theorem State.Inv.atomicAt {ck : Nat} {pg : Page} {f : W64 → W64} (h : s.Inv) : (s.atomicAt ck pg f).Inv := by
  unfold State.atomicAt
  extract_lets
  split
  · exact h.refuseRemote.refusal
  split
  · split
    · exact h.refuseSent.refusal
    · exact h
  split
  · exact h.racing.pair ‹_›
  extract_lets
  split
  have h1 := h.racing.pair ‹_›
  have h2 := h1.routerResult.pair ‹_›
  split
  · exact h2.refuse
  split
  extract_lets s1 _ _ s2
  have h3 : s1.Inv := (h2.fabric.quad ‹_›).correct.dieCache
  have h4 : s2.Inv := .ite (.cacheOwn ((State.Inv.noteWrite (State.Inv.put h3)).of_same rfl rfl)) h3
  split <;> exact h4

/-! ### What ends and resets work (R139, R147, R239, R240, R330) -/

theorem State.Inv.wakeClaims {ck k : Nat} (h : s.Inv) : (s.wakeClaims ck k).Inv := by
  unfold State.wakeClaims
  refine h.foldl fun _ _ h1 => ?_
  split
  · exact h1.wake
  · exact h1

theorem State.Inv.askHandler {sk : Nat} (h : s.Inv) : (s.askHandler sk).Inv := by
  unfold State.askHandler
  extract_lets
  split
  · exact h
  · exact h.wake

theorem State.Inv.storeFault {sk : Nat} {f : FaultRec} (h : s.Inv) : (s.storeFault sk f).Inv := by
  unfold State.storeFault
  extract_lets _ _ found
  have h1 : found.Inv := by
    unfold found
    split
    · have h2 := h.walk2.ok ‹_›
      split
      · exact h2.emptyWalks.walk2
      · exact h2
    · exact h.walk2
  clear_value found
  split
  · extract_lets _ s1
    have h3 : s1.Inv := .ite h1 h1.setDirty
    split
    · exact h1
    · exact h3.poke.noteWrite
  · exact h

theorem State.Inv.enterFault {sk : Nat} {f : FaultRec} (h : s.Inv) : (s.enterFault sk f).Inv := h.putSlice.storeFault

theorem State.Inv.refillFaults {sk : Nat} (h : s.Inv) : (s.refillFaults sk).Inv :=
  (h.putSlice.foldl (fun _ _ h1 => h1.enterFault)).askHandler

theorem State.Inv.withdraw {ck unit : Nat} (h : s.Inv) : (s.withdraw ck unit).Inv := by
  unfold State.withdraw
  extract_lets _ _ _ s1
  have h1 : s1.Inv := h.putPkg
  split
  · exact h1.putSlice.refillFaults
  · exact h1

theorem State.Inv.devWrite {ck : Nat} {at_ : Nat × Bool} {chk : Bool} {off : Nat} {bs : List Byte} (h : s.Inv) :
    (s.devWrite ck at_ chk off bs).Inv :=
  h.poke.noteWrite

theorem State.Inv.endHalf {k : KvHalf} {code : Nat} (h : s.Inv) : (s.endHalf k code).Inv := by
  unfold State.endHalf
  extract_lets s1 s2 _ s3
  have h1 : s1.Inv := h
  have h2 : s2.Inv := by
    unfold s2
    split
    · exact (h1.racing.pair ‹_›).count
    · exact (h1.racing.pair ‹_›).devWrite.countRelease.stamp
  have h3 : s3.Inv := .ite h2.record h2
  exact h3.wake

theorem State.Inv.endTransfers {ck : Nat} (h : s.Inv) : (s.endTransfers ck).Inv := h.foldl fun _ _ h1 => h1.endHalf

theorem State.Inv.dropLock {ck : Nat} (h : s.Inv) : (s.dropLock ck).Inv := by
  unfold State.dropLock
  extract_lets _ locked
  clear_value locked
  split
  · split
    · have h1 := h.translate.ok ‹_›
      split
      · exact (h1.racing.pair ‹_›).count
      · exact (h1.racing.pair ‹_›).poke.noteWrite.countRelease.stamp
    · exact h
  · exact h

theorem State.Inv.resetRing {ck r : Nat} (h : s.Inv) : (s.resetRing ck r).Inv := by
  unfold State.resetRing
  extract_lets s1 _ _ s2 s3 s4 _ s5
  have h1 : s1.Inv := .ite h.dropLock h
  have h2 : s2.Inv := h1.putCore
  have h3 : s3.Inv := h2.withdraw
  have h4 : s4.Inv := h3.wake.wake.wake
  have h5 : s5.Inv := h4
  split
  · exact h5.foldl fun _ _ h6 => (State.Inv.ite h6.wake h6).wake
  · exact .endTransfers h4
  · exact h4

theorem State.Inv.resetRings {ck : Nat} (h : s.Inv) : (s.resetRings ck).Inv := h.resetRing.resetRing.resetRing

theorem State.Inv.complete {node func ep seq kind status : Nat} {tag detail : W64} (h : s.Inv) :
    (s.complete node func ep seq kind status tag detail).Inv := by
  unfold State.complete
  extract_lets _ s1
  have h1 : s1.Inv := by
    unfold s1
    split <;> exact h
  split
  · exact h1.putPkg
  · exact h1

theorem State.Inv.raiseFault {ck unit kind cause level : Nat} {va : W64} {ipa : Nat} {desc wh : W64} (h : s.Inv) :
    (s.raiseFault ck unit kind cause level va ipa desc wh).2.Inv := by
  unfold State.raiseFault
  extract_lets _ s1
  have h1 : s1.Inv := h.count
  split
  · extract_lets _ _ _ s2
    have h2 : s2.Inv := .ite h1.putSlice.enterFault h1.putSlice
    exact h2.askHandler
  · exact h1.putPkg

theorem State.Inv.retireIteration {sk : Nat} {c : Core} (h : s.Inv) : (s.retireIteration sk c).Inv := by
  unfold State.retireIteration
  extract_lets
  split
  · exact h
  · exact h.putSlice

theorem State.Inv.dropTagged {ck : Nat} (h : s.Inv) : (s.dropTagged ck).Inv := by
  unfold State.dropTagged
  split <;> exact h

theorem State.Inv.threadEnds {ck : Nat} (h : s.Inv) : (s.threadEnds ck).Inv := by
  unfold State.threadEnds
  extract_lets s1 _ s2 s3
  have h1 : s1.Inv := h.countRelease
  have h2 : s2.Inv := h1.putCore
  have h3 : s3.Inv := h2.foldl fun _ _ h3 => h3.wake
  split
  · exact h3
  · exact h3.putSlice.retireIteration.wake

theorem State.Inv.invFault {sk slot : Nat} {detail : W64} (h : s.Inv) : (s.invFault sk slot detail).Inv := by
  unfold State.invFault
  extract_lets
  split
  · exact h
  · exact h.putSlice.wake

theorem State.Inv.endThread {ck cause : Nat} {addr inner detail : W64} {unit : optParam Nat 1} (h : s.Inv) :
    (s.endThread ck cause addr inner detail unit).Inv := by
  unfold State.endThread
  extract_lets _ s1 s2 s3 _ s4 s5
  have h1 : s1.Inv := h.resetRings.dropTagged
  have h2 : s2.Inv := h1.withdraw
  have h3 : s3.Inv := h2.withdraw
  have h4 : s4.Inv := h3.writeRecord
  have h5 : s5.Inv := h4.threadEnds
  split
  · exact h5.invFault
  · exact h4.putCore

theorem State.Inv.stageStop {ck : Nat} {detail : W64} (h : s.Inv) : (s.stageStop ck detail).Inv := by
  unfold State.stageStop
  extract_lets _ s1
  have h1 : s1.Inv := h.withdraw.putCore
  split
  · exact h1
  extract_lets _ s2
  have h2 : s2.Inv := by
    unfold s2
    split
    · exact h1
    · exact h1.putSlice
  exact h2.invFault

theorem State.Inv.endUnit {ck unit cause : Nat} {va detail : W64} (h : s.Inv) : (s.endUnit ck unit cause va detail).Inv := by
  unfold State.endUnit
  extract_lets
  split
  · exact h.endThread
  split
  · exact h.stageStop
  · exact h

theorem State.Inv.handlerEnds {ck : Nat} {own : Option W64} (h : s.Inv) : (s.handlerEnds ck own).Inv := by
  unfold State.handlerEnds
  extract_lets c s1 _ s2
  have h1 : s2.Inv := h.resetRings.putCore
  split
  · exact h
  extract_lets _ s3 _ _ s4 s5
  have h2 : s3.Inv := h1.putSlice
  refine (State.Inv.refillFaults ?_).askHandler
  unfold s5
  split
  · split
    · exact h2
    split
    · exact h2.endUnit
    · exact h2.invFault
  · exact h2.putSlice.endUnit

theorem State.Inv.endOf {ck cause : Nat} {addr inner detail : W64} {unit : optParam Nat 1} (h : s.Inv) :
    (s.endOf ck cause addr inner detail unit).Inv := by
  unfold State.endOf
  split
  · exact h.writeRecord.handlerEnds
  · exact h.endThread

theorem State.Inv.unitFault {ck unit kind cause level : Nat} {va : W64} {ipa : Nat} {desc wh : W64} (h : s.Inv) :
    (s.unitFault ck unit kind cause level va ipa desc wh).2.Inv := by
  unfold State.unitFault
  extract_lets
  split
  · exact h.count.endOf
  split
  have h1 := h.raiseFault.pair ‹_›
  split
  · split
    · exact h1
    · exact h1.endThread
  · exact h1

/-! ### The shared operations of the access core (R125, R126, R300) -/

theorem State.Inv.setReg {r : BitVec 5} {v : W64} (h : s.Inv) : (s.setReg r v).Inv := h.setMe
theorem State.Inv.setPred {r : BitVec 3} {v : Bool} (h : s.Inv) : (s.setPred r v).Inv := h.setMe

theorem State.Inv.spend (h : s.Inv) : s.spend.Inv := by
  unfold State.spend
  extract_lets _ s1
  have h1 : s1.Inv := h.setMe
  split
  · exact h
  split
  · exact h1.now
  · exact h1

theorem State.Inv.finishAt {nxt : W64} (h : s.Inv) : (s.finishAt nxt).Inv := h.setMe.spend

theorem State.Inv.finish (h : s.Inv) : s.finish.Inv := h.finishAt

theorem State.Inv.jump {t : W64} (h : s.Inv) : (s.jump t).Inv := h.setMe.spend

theorem State.Inv.returnTo {t : W64} (h : s.Inv) : (s.returnTo t).Inv := h.setMe.spend

theorem State.Inv.deliver {cause : Nat} {addr ret : W64} (h : s.Inv) : (s.deliver cause addr ret).Inv := by
  unfold State.deliver
  extract_lets _ s1
  have h1 : s1.Inv := h.count
  split
  · exact h1.count.endOf
  split
  · exact h1.endOf
  · exact h1.setMe

theorem State.Inv.trap {cause : Nat} {addr : W64} (h : s.Inv) : (s.trap cause addr).Inv := h.deliver

theorem State.Inv.wordTrap {cause : Nat} {i : Instr} (h : s.Inv) : (s.wordTrap cause i).Inv := h.trap

theorem State.Inv.returnFromTrap {g : BitVec 3} (h : s.Inv) : (s.returnFromTrap g).Inv := by
  unfold State.returnFromTrap
  extract_lets
  split
  · exact h.trap
  split
  · exact h.wordTrap
  · exact h.setMe.returnTo

theorem State.Inv.stall {unit : Nat} {k : Kind} {f : XFault} {va : W64} (h : s.Inv) : (s.stall unit k f va).Inv := by
  unfold State.stall
  split
  · exact h
  split
  · exact (h.unitFault.pair ‹_›).setMe
  · exact h.unitFault.pair ‹_›

theorem Res.Inv.run {r : Res α} {k : α → State → State} (h : r.Inv) (hk : ∀ v t, t.Inv → (k v t).Inv) : (Res.run r k).Inv := by
  unfold Res.run
  split
  · exact hk _ _ h
  · exact h

theorem Res.Inv.then_ {r : Res α} {k : α → State → Res β} (h : r.Inv) (hk : ∀ v t, t.Inv → (k v t).Inv) : (Res.then_ r k).Inv := by
  unfold Res.then_
  split
  · exact hk _ _ h
  · exact h

theorem State.Inv.guarded {g : BitVec 3} {k : State → State} (h : s.Inv) (hk : ∀ t, t.Inv → (k t).Inv) : Out.Inv (s.guarded g k) := by
  unfold State.guarded
  show State.Inv _
  split
  · exact hk _ h
  · exact h.finish

theorem State.Inv.copyFailed {va : W64} (h : s.Inv) : (s.copyFailed va).Inv := by
  unfold State.copyFailed
  split
  · exact h.record
  · exact h

theorem Acc.Inv.ofAcc {va : W64} {acc : Acc α} (h : acc.Inv) : (ofAcc va acc).Inv := by
  unfold Machine.ofAcc
  split
  · exact h
  · exact h.copyFailed.trap
  · exact h.copyFailed.trap
  · exact h.trap

theorem State.Inv.accessPage {va : W64} {k : Kind} (h : s.Inv) : (s.accessPage va k).Inv := by
  unfold State.accessPage
  split
  · exact h.translate.ok ‹_›
  · exact (h.translate.fault ‹_›).stall
  · exact (h.translate.refused ‹_›).trap

theorem State.Inv.dataPage {va : W64} {k : Kind} {n : optParam Nat 1} (h : s.Inv) : (s.dataPage va k n).Inv := by
  unfold State.dataPage
  split
  · split <;> exact h.accessPage.ok ‹_›
  · exact h.accessPage.stop ‹_›

theorem State.Inv.fillLine {pg : Page} (h : s.Inv) : (s.fillLine pg).Inv := by
  unfold State.fillLine
  split
  · exact h
  · exact h.setMe

theorem State.Inv.loadMiss {va : W64} {pg : Page} {n : Nat} (h : s.Inv) : (s.loadMiss va pg n).Inv := by
  unfold State.loadMiss
  split
  · exact h.loadAt.ofAcc.stop ‹_›
  · exact (h.loadAt.ofAcc.ok ‹_›).fillLine.noteRead

theorem State.Inv.loadFrom {va : W64} {pg : Page} {n : Nat} (h : s.Inv) : (s.loadFrom va pg n).Inv := by
  unfold State.loadFrom
  split
  · exact h.loadMiss
  split
  · exact (h.takeUpset.pair ‹_›).setMe.record.loadMiss
  have h1 := h.takeUpset.pair ‹_›
  split
  · exact (h1.racing.pair ‹_›).trap
  extract_lets
  have h2 := h1.racing.pair ‹_›
  split
  · exact h2.noteSeen
  split
  have h3 := h2.pickBool.pair ‹_›
  split
  · exact h3.noteSeen
  · exact h3.loadMiss

theorem State.Inv.load {va : W64} {n : Nat} (h : s.Inv) : (s.load va n).Inv := h.dataPage.then_ fun _ _ h1 => h1.loadFrom

theorem State.Inv.tagPerform {t : TagReq} (h : s.Inv) : (s.tagPerform t).Inv := by
  unfold State.tagPerform
  extract_lets pa pg sc s1 s2 st s3 s4 s5 s6
  split
  · have h1 : s2.Inv := h.poke.noteWrite.countRelease
    have h2 : s4.Inv := h1.addStamps.putCore
    split
    · exact h.answerTagged
    · exact (h2.tagFilled _).answerTagged
  · have h3 : s5.Inv := h.acquireAt
    have h4 : s6.Inv := h3.correct.noteRead
    split
    · split
      · exact h.answerTagged
      · exact h.refuse.answerTagged
    split
    · exact h.answerTagged
    · exact (h4.tagEmptied _).answerTagged

theorem State.Inv.tagGone {t : TagReq} (h : s.Inv) : (s.tagGone t).Inv := by
  unfold State.tagGone
  extract_lets s1
  have h1 : s1.Inv := h
  split
  · exact ⟨(State.poke_Inv h1 none _ _).1, NSet.sorted_add h1.2 _⟩
  · exact h1.tagEmptied _

theorem State.Inv.tagRun {word n : Nat} (h : s.Inv) : (s.tagRun word n).Inv := by
  induction n generalizing s with
  | zero => exact h
  | succ n ih =>
    rw [State.tagRun]
    split
    · split
      · exact ih h.tagGone
      · exact ih h.tagPerform.cacheOwn
    · exact h

theorem State.Inv.tagServe {word : Nat} (h : s.Inv) : (s.tagServe word).Inv := by
  unfold State.tagServe
  split
  · exact h
  · exact h.tagRun

theorem State.Inv.beginWait {i : Instr} (h : s.Inv) : (s.beginWait i).Inv := by
  unfold State.beginWait
  split
  · exact h
  · exact h.setMe

theorem State.Inv.endWait (h : s.Inv) : s.endWait.Inv := h.setMe

theorem State.Inv.stopCore {code : Nat} (h : s.Inv) : (s.stopCore code).Inv := h.setMe

theorem State.Inv.timedWait {p : BitVec 3} {t : BitVec 5} {cond : Bool} {met expire : State → State} (h : s.Inv)
    (hmet : ∀ t, t.Inv → (met t).Inv) (hexpire : ∀ t, t.Inv → (expire t).Inv) : (s.timedWait p t cond met expire).Inv := by
  unfold State.timedWait
  split
  · exact (hmet _ h).endWait.setPred.finish
  split
  · exact (hexpire _ h).endWait.setPred.finish
  split
  · exact (hexpire _ h).endWait.stopCore
  · exact h

/-! ### Arithmetic, compares and predicate logic (R118 to R122) -/

theorem State.Inv.setNext {d : BitVec 5} {v : W64} (h : s.Inv) : (s.setNext d v).Inv := h.setReg.finish
theorem State.Inv.setPredNext {d : BitVec 3} {v : Bool} (h : s.Inv) : (s.setPredNext d v).Inv := h.setPred.finish

theorem State.Inv.checkedNext {i : Instr} {d : BitVec 5} {v : W64} (h : s.Inv) : (s.checkedNext i d v).Inv := by
  unfold State.checkedNext
  split
  · have h1 := h.takeUpset.pair ‹_›
    split
    · exact h1.setNext
    · exact h1.wordTrap
  · exact (h.takeUpset.pair ‹_›).setNext

theorem State.Inv.arithC {i : Instr} {f : W64 → W64 → W64} {d a b : BitVec 5} {g : BitVec 3} (h : s.Inv) :
    Out.Inv (arithC i f d a b g s) :=
  h.guarded fun _ h1 => h1.checkedNext

theorem State.Inv.arith {f : W64 → W64 → W64} {d a b : BitVec 5} {g : BitVec 3} (h : s.Inv) : Out.Inv (arith f d a b g s) :=
  h.guarded fun _ h1 => h1.setNext

theorem State.Inv.arithImmC {i : Instr} {f : W64 → W64 → W64} {d a : BitVec 5} {g : BitVec 3} {n : BitVec 12} (h : s.Inv) :
    Out.Inv (arithImmC i f d a g n s) :=
  h.guarded fun _ h1 => h1.checkedNext

theorem State.Inv.arithImm {f : W64 → W64 → W64} {d a : BitVec 5} {g : BitVec 3} {i : BitVec 12} (h : s.Inv) :
    Out.Inv (arithImm f d a g i s) :=
  h.guarded fun _ h1 => h1.setNext

theorem State.Inv.shiftImm {i : Instr} {f : W64 → Nat → W64} {d a : BitVec 5} {g : BitVec 3} {n : BitVec 6} (h : s.Inv) :
    Out.Inv (shiftImm i f d a g n s) :=
  h.guarded fun _ h1 => h1.checkedNext

theorem State.Inv.compare {f : W64 → W64 → Bool} {d : BitVec 3} {a b : BitVec 5} {g : BitVec 3} (h : s.Inv) :
    Out.Inv (compare f d a b g s) :=
  h.guarded fun _ h1 => h1.setPredNext

theorem State.Inv.predLogic {f : Bool → Bool → Bool} {d a b g : BitVec 3} (h : s.Inv) : Out.Inv (predLogic f d a b g s) :=
  h.guarded fun _ h1 => h1.setPredNext

/-! ### The engines' side of the rings (R146, R149, R302, R303) -/

theorem State.Inv.setRing {r : Nat} {x : Ring} (h : s.Inv) : (s.setRing r x).Inv := h.setMe
theorem State.Inv.setEntry {r : Nat} {e : Entry} (h : s.Inv) : (s.setEntry r e).Inv := h.setRing
theorem State.Inv.stageEnd {cause : Nat} {va : W64} (h : s.Inv) : (s.stageEnd cause va).Inv := h.writeRecord.stageStop

theorem State.Inv.renewFault {r : Nat} {p : Park} {va : W64} {ipa : Nat} {desc : W64} (h : s.Inv) :
    (s.renewFault r p va ipa desc).Inv := by
  unfold State.renewFault
  extract_lets _ _ s1 _ s2
  have h1 : s1.Inv := h.setRing
  have h2 : s2.Inv := by
    unfold s2
    split
    · exact h1.putSlice.foldl fun _ _ h2 => h2.storeFault
    · exact h1.putPkg
  exact h2.record

theorem State.Inv.passRetry {r : Nat} (h : s.Inv) : (s.passRetry r).Inv := by
  unfold State.passRetry
  split
  · exact h
  · exact h.setRing.withdraw.wake

theorem State.Inv.parkAs {r kind cause level : Nat} {va : W64} {ipa : Nat} {desc : W64} (h : s.Inv) :
    (s.parkAs r kind cause level va ipa desc).Inv := by
  unfold State.parkAs
  split
  · split
    · split
      · split
        have h1 := h.raiseFault.pair ‹_›
        split
        · exact h1.setMe
        · exact h1.stageEnd
      · exact h.count.stageEnd
    · exact h.raiseFault.setMe
  split
  · exact h.setRing
  split
  · exact h.renewFault
  split
  · exact (h.passRetry.unitFault.pair ‹_›).setRing
  · exact h.passRetry.unitFault.pair ‹_›

theorem State.Inv.park {r cause : Nat} {va desc : W64} (h : s.Inv) : (s.park r cause va desc).Inv := h.parkAs

theorem State.Inv.engLater {r : Nat} (h : s.Inv) : (s.engLater r).Inv := by
  unfold State.engLater
  split <;> exact h.wake

theorem State.Inv.parkX {r : Nat} {k : Kind} {f : XFault} {va : W64} (h : s.Inv) : (s.parkX r k f va).Inv := by
  unfold State.parkX
  split
  · exact h.engLater
  · exact h.parkAs

theorem State.Inv.checkDrained {ck : Nat} (h : s.Inv) : (s.checkDrained ck).Inv := by
  unfold State.checkDrained
  split
  · exact h.wake
  · exact h

theorem State.Inv.raiseToken {ck k : Nat} (h : s.Inv) : (s.raiseToken ck k).Inv := by
  unfold State.raiseToken
  split
  extract_lets s1
  have h1 : s1.Inv := h.putCore.wakeClaims
  split
  · exact h1.record
  · exact h1

theorem State.Inv.entryDone {r : Nat} (h : s.Inv) : (s.entryDone r).Inv := by
  unfold State.entryDone
  extract_lets _ s1 _ s2
  have h1 : s1.Inv := h.setRing
  have h2 : s2.Inv := .ite h1 h1.setMe.raiseToken
  exact h2.wake.checkDrained

theorem State.Inv.consumeError {r : Nat} {va : W64} {addr : optParam Bool true} (h : s.Inv) : (s.consumeError r va addr).Inv := by
  unfold State.consumeError
  split
  · exact h.count.stageEnd
  split
  · exact h.setRing
  extract_lets _ _ _ s1
  have h1 : s1.Inv := h.record
  split
  · exact h.setMe.park
  split
  · exact h1.setMe.wake
  · exact h.setMe.park

theorem State.Inv.startAhead {r : Nat} {ahead : List Entry} {f : Entry} {t : List Entry} (h : s.Inv) :
    (s.startAhead r ahead f t).Inv := by
  unfold State.startAhead
  extract_lets _ s1
  have h1 : s1.Inv := .ite h.setMe.wakeClaims h
  exact h1.setRing

theorem State.Inv.startTurn {r : Nat} {e : Entry} (h : s.Inv) : (s.startTurn r e).Inv := by
  unfold State.startTurn
  extract_lets s1 own
  have h1 : s1.Inv := h.setMe
  have h2 : ∀ t, t.Inv → (own t).Inv := by
    intro _ h2
    unfold own
    split <;> exact h2
  split
  · exact h2 _ h1
  split
  have h3 := h1.pickBool.pair ‹_›
  split
  · exact h3.startAhead
  · exact h2 _ h3.wake

theorem State.Inv.ringTurn {r : Nat} (h : s.Inv) : (s.ringTurn r).Inv := by
  unfold State.ringTurn
  extract_lets _ s1 s2
  have h1 : s1.Inv := .ite h.setRing h
  have h2 : s2.Inv := .ite h1 h1.correct
  split
  · exact h.checkDrained
  split
  · exact h.setRing.wake.checkDrained
  split
  · exact h
  split
  · exact h2.park
  split
  · exact h2.park
  split
  · split
    · exact h2.park
    · exact h2
  extract_lets s3
  have h3 : s3.Inv := .ite h2.setMe.setEntry.wakeClaims h2
  split
  · exact h3.wake
  · exact h3.startTurn

/-! ### Operands of the engines (R157, R158, R163, R164) -/

theorem State.Inv.padRead {r : Nat} {as : List Nat} (h : s.Inv) : (s.padRead r as).Inv := by
  unfold State.padRead
  split
  · exact h.consumeError
  split
  · exact h.park
  extract_lets s1
  have h1 : s1.Inv := .ite h (h.foldl (fun _ _ h1 => h1.correct))
  exact h1

theorem State.Inv.padMay {r : Nat} {as : List Nat} (h : s.Inv) : (s.padMay r as).Inv := by
  unfold State.padMay
  split
  · exact h.park
  · exact h

theorem State.Inv.padPut {l : List (Nat × Nat)} {l' : List Byte} (h : s.Inv) : (s.padPut l l').Inv := by
  induction l generalizing s l' with
  | nil => exact h
  | cons a l ih =>
    rw [State.padPut]
    exact ih h.poke.noteWrite

theorem State.Inv.padWrite {r : Nat} {as : List Nat} {bs : List Byte} (h : s.Inv) : (s.padWrite r as bs).Inv := by
  unfold State.padWrite
  split
  · exact h.refuse.park
  split
  · exact h.padMay.stop ‹_›
  · exact (h.padMay.ok ‹_›).padPut

theorem State.Inv.portRead {p n : Nat} (h : s.Inv) : (s.portRead p n).Inv := by
  unfold State.portRead
  split
  · exact h
  split
  · exact h.padRead
  split
  · exact h
  · exact h
  · exact h.park
  · exact h.wake

theorem State.Inv.readPorts {n : Nat} {l : List Nat} {l' : PortVals} (h : s.Inv) : (s.readPorts n l l').Inv := by
  induction l generalizing s n l' with
  | nil => exact h
  | cons a l ih =>
    rw [State.readPorts]
    split
    · split
      · exact h.portRead.stop ‹_›
      · exact ih (h.portRead.ok ‹_›)
    · exact ih h

theorem State.Inv.portWrite {p : Nat} {r : VRes} (h : s.Inv) : (s.portWrite p r).Inv := by
  unfold State.portWrite
  split
  · exact h
  extract_lets
  split
  · exact h.padWrite.stop ‹_›
  · exact (h.padWrite.ok ‹_›).setMe

theorem State.Inv.portMay {p k n : Nat} (h : s.Inv) : (s.portMay p k n).Inv := by
  unfold State.portMay
  split
  · exact h
  · exact h.padMay

theorem State.Inv.deliverV {d : Nat} {vals : PortVals} {r : VRes} (h : s.Inv) : (s.deliverV d vals r).Inv := by
  unfold State.deliverV
  split
  · exact h.setMe.setMe
  split
  · split
    · exact h.portWrite.stop ‹_›
    · exact (h.portWrite.ok ‹_›).setMe
  · exact h.setMe

/-! ### The vector engine: each body leaves the invariant to the one end of `vec` -/

theorem State.Inv.wakeBanks {w : W32} (h : s.Inv) : (s.wakeBanks w).Inv := h.setMe

theorem State.Inv.vec {b : VBody} (hb : ∀ v t, t.Inv → (b v t).Inv) (h : s.Inv) : Out.Inv (vec b s) :=
  (hb _ _ h.wakeBanks).run fun _ _ h1 => h1.entryDone

theorem State.Inv.execBankPowerGate {node core bank : Nat} (h : s.Inv) : Out.Inv (execBankPowerGate node core bank s) := by
  unfold Machine.execBankPowerGate
  show State.Inv _
  split
  · exact h.putCore
  · exact h

theorem State.Inv.upset {unit : Nat} (h : s.Inv) : (s.upset unit).2.Inv := h.takeUpset

theorem State.Inv.handleDivergence {failed : Bool} (h : s.Inv) : (s.handleDivergence failed).Inv := by
  unfold State.handleDivergence
  extract_lets _ _ _ s1 s2
  have h1 : s1.Inv := h.putPkg
  have h2 : s2.Inv := .ite h1.record h1
  split
  · exact h2
  split
  have h3 := h2.pickBool.pair ‹_›
  split
  · exact h3
  · exact h3.putPkg.record

theorem State.Inv.diverge {r first again place : Nat} {row : optParam Nat 0} (h : s.Inv) : (s.diverge r first again place row).Inv :=
  h.setRing.writeRecord.handleDivergence.park

theorem State.Inv.shadowed {l : List (Option Nat)} {div : Nat → Nat → Bool} (h : s.Inv) : (s.shadowed l div).Inv := by
  unfold State.shadowed
  split
  extract_lets
  have h1 := h.upset.pair ‹_›
  split
  · exact h1.diverge
  · exact h1

theorem State.Inv.tabled {l : List (Option Nat)} (h : s.Inv) : (s.tabled l).Inv := by
  unfold State.tabled
  split
  have h1 := h.upset.pair ‹_›
  split
  · split
    · exact h1.park
    · exact h1
  · exact h1

theorem State.Inv.unchecked {l : List (Option Nat)} (h : s.Inv) : (s.unchecked l).Inv := by
  unfold State.unchecked
  split
  split <;> exact h.upset.pair ‹_›

theorem State.Inv.sources {ent : Entry} {e : Nat} {vs : List Nat} (h : s.Inv) : (s.sources ent e vs).Inv := by
  unfold State.sources
  split
  · exact h.readPorts.stop ‹_›
  · exact h.readPorts.ok ‹_›

theorem State.Inv.laneWise {d m : Nat} {vs : List Nat} {f : List (List Nat) → Nat → Nat}
    {check : State → List (List Nat) → List (Option Nat) → Res (List (Option Nat))} {ent : Entry}
      (hcheck : ∀ t a b, t.Inv → (check t a b).Inv) (h : s.Inv) : (laneWise d m vs f check ent s).Inv := by
  unfold Machine.laneWise
  split
  · exact h.sources.stop ‹_›
  have h1 := h.sources.ok ‹_›
  split
  · exact (hcheck _ _ _ h1).stop ‹_›
  · exact ((hcheck _ _ _ h1).ok ‹_›).deliverV

theorem State.Inv.plain {l : List (List Nat)} {l' : List (Option Nat)} (h : s.Inv) : (plain s l l').Inv := h.unchecked

theorem State.Inv.byTable {l : List (List Nat)} {l' : List (Option Nat)} (h : s.Inv) : (byTable s l l').Inv := h.tabled

theorem State.Inv.f32Two {d a b m : Nat} {f : Nat → Nat → Nat} {div : Nat → Nat → Nat → Bool} {ent : Entry} (h : s.Inv) :
    (f32Two d a b m f div ent s).Inv :=
  h.laneWise fun _ _ _ h1 => h1.shadowed

theorem State.Inv.twoLane {d a b m : Nat} {f : Nat → Nat → Nat} {ent : Entry} (h : s.Inv) : (twoLane d a b m f ent s).Inv :=
  h.laneWise fun _ _ _ h1 => h1.plain

theorem State.Inv.oneLane {d a m : Nat} {f : Nat → Nat} {ent : Entry} (h : s.Inv) : (oneLane d a m f ent s).Inv :=
  h.laneWise fun _ _ _ h1 => h1.plain

theorem State.Inv.tableLane {d a m : Nat} {f : Nat → Nat} {ent : Entry} (h : s.Inv) : (tableLane d a m f ent s).Inv :=
  h.laneWise fun _ _ _ h1 => h1.byTable

theorem State.Inv.intTwo {d a b m : Nat} {f : Nat → Nat → Nat → Nat} {ent : Entry} (h : s.Inv) : (intTwo d a b m f ent s).Inv := h.twoLane

theorem State.Inv.vecFma {d x y z m : Nat} {ent : Entry} (h : s.Inv) : (vecFma d x y z m ent s).Inv :=
  h.laneWise fun _ _ _ h1 => h1.shadowed

theorem State.Inv.vecCmp {d a b m : Nat} {f : Nat → Nat → Nat → Bool} {ent : Entry} (h : s.Inv) : (vecCmp d a b m f ent s).Inv := by
  unfold Machine.vecCmp
  split
  · exact h.sources.stop ‹_›
  · exact (h.sources.ok ‹_›).setMe

theorem State.Inv.vecMask {d a b o : Nat} {ent : Entry} (h : s.Inv) : (vecMask d a b o ent s).Inv := h.setMe

theorem State.Inv.vecSel {d a b m : Nat} {ent : Entry} (h : s.Inv) : (vecSel d a b m ent s).Inv := by
  unfold Machine.vecSel
  split
  · exact h.sources.stop ‹_›
  · exact (h.sources.ok ‹_›).deliverV

theorem State.Inv.vecCvt {d a m sw tw : Nat} {f : Nat → Nat} {ent : Entry} (h : s.Inv) : (vecCvt d a m sw tw f ent s).Inv := by
  unfold Machine.vecCvt
  split
  · exact h.sources.stop ‹_›
  have h1 := h.sources.ok ‹_›
  split
  · exact h1.unchecked.stop ‹_›
  · exact (h1.unchecked.ok ‹_›).deliverV

theorem State.Inv.vecCvtFF {d a t m x : Nat} {sat : Bool} {ent : Entry} (h : s.Inv) : (vecCvtFF d a t m x sat ent s).Inv := by
  unfold Machine.vecCvtFF
  exact h.vecCvt

theorem State.Inv.vecCvtFI {d a t m x : Nat} {ent : Entry} (h : s.Inv) : (vecCvtFI d a t m x ent s).Inv := by
  unfold Machine.vecCvtFI
  exact h.vecCvt

theorem State.Inv.vecCvtIF {d a t m x : Nat} {ent : Entry} (h : s.Inv) : (vecCvtIF d a t m x ent s).Inv := by
  unfold Machine.vecCvtIF
  exact h.vecCvt

theorem State.Inv.vecCvtII {d a t m : Nat} {ent : Entry} (h : s.Inv) : (vecCvtII d a t m ent s).Inv := by
  unfold Machine.vecCvtII
  exact h.vecCvt

theorem State.Inv.vecBscale {d a f x : Nat} {ent : Entry} (h : s.Inv) : (vecBscale d a f x ent s).Inv := by
  unfold Machine.vecBscale
  extract_lets
  split
  · exact h.readPorts.stop ‹_›
  extract_lets
  have h1 := h.readPorts.ok ‹_›
  split
  · exact h1.unchecked.stop ‹_›
  · exact (h1.unchecked.ok ‹_›).deliverV

theorem State.Inv.vecQuant {d a f x : Nat} {ent : Entry} (h : s.Inv) : (vecQuant d a f x ent s).Inv := by
  unfold Machine.vecQuant
  split
  · exact h.sources.stop ‹_›
  · exact (h.sources.ok ‹_›).deliverV

theorem State.Inv.vecRed {d a m : Nat} {opOf : Nat → Nat → Nat → Nat} {idOf : Nat → Nat} {div : Nat → Nat → Nat → Bool} {ent : Entry}
    (h : s.Inv) : (vecRed d a m opOf idOf div ent s).Inv := by
  unfold Machine.vecRed
  split
  · exact h.sources.stop ‹_›
  split
  extract_lets
  have h1 := h.sources.ok ‹_›
  have h2 := h1.upset.pair ‹_›
  split
  · exact h2.diverge
  · exact h2.deliverV

theorem State.Inv.vecScan {d a m : Nat} {opOf : Nat → Nat → Nat → Nat} {idOf : Nat → Nat} {div : Nat → Nat → Nat → Bool} {ent : Entry}
    (h : s.Inv) : (vecScan d a m opOf idOf div ent s).Inv := by
  unfold Machine.vecScan
  split
  · exact h.sources.stop ‹_›
  split
  extract_lets
  have h1 := h.sources.ok ‹_›
  have h2 := h1.upset.pair ‹_›
  split
  · exact h2.diverge
  · exact h2.deliverV

theorem State.Inv.vecPerm {d a b m : Nat} {ent : Entry} (h : s.Inv) : (vecPerm d a b m ent s).Inv := h.laneWise fun _ _ _ h1 => h1.plain

theorem State.Inv.vecRot {d a m : Nat} {ent : Entry} (h : s.Inv) : (vecRot d a m ent s).Inv := h.laneWise fun _ _ _ h1 => h1.plain

theorem State.Inv.vecIota {d m : Nat} {ent : Entry} (h : s.Inv) : (vecIota d m ent s).Inv := h.laneWise fun _ _ _ h1 => h1.plain

theorem State.Inv.vecSplat {d m c : Nat} {ent : Entry} (h : s.Inv) : (vecSplat d m c ent s).Inv := h.laneWise fun _ _ _ h1 => h1.plain

theorem State.Inv.vecPart {d a b m : Nat} {ent : Entry} (h : s.Inv) : (vecPart d a b m ent s).Inv := by
  unfold Machine.vecPart
  split
  · exact h.sources.stop ‹_›
  extract_lets
  split
  have h1 := h.sources.ok ‹_›
  split
  · exact h1.portMay.stop ‹_›
  have h2 := h1.portMay.ok ‹_›
  split
  · exact h2.portWrite.stop ‹_›
  have h3 := h2.portWrite.ok ‹_›
  split
  · exact h3.portWrite.stop ‹_›
  · exact (h3.portWrite.ok ‹_›).setMe

theorem State.Inv.vecPort {d : Nat} {ent : Entry} (h : s.Inv) : (vecPort d ent s).Inv := by
  unfold Machine.vecPort
  split
  · exact h
  · exact h.setMe

theorem State.Inv.bodyAdd {d a b : BitVec 6} {m : BitVec 3} {x : BitVec 2} {ent : Entry} (h : s.Inv) : (bodyAdd d a b m x ent s).Inv :=
  h.f32Two

theorem State.Inv.bodySub {d a b : BitVec 6} {m : BitVec 3} {x : BitVec 2} {ent : Entry} (h : s.Inv) : (bodySub d a b m x ent s).Inv :=
  h.f32Two

theorem State.Inv.bodyMul {d a b : BitVec 6} {m : BitVec 3} {x : BitVec 2} {ent : Entry} (h : s.Inv) : (bodyMul d a b m x ent s).Inv :=
  h.f32Two

theorem State.Inv.bodyFma {d a b : BitVec 6} {m : BitVec 3} {x : BitVec 2} {ent : Entry} (h : s.Inv) : (bodyFma d a b m x ent s).Inv :=
  h.vecFma

theorem State.Inv.bodyFmaT {d a b : BitVec 6} {m : BitVec 3} {x : BitVec 2} {ent : Entry} (h : s.Inv) : (bodyFmaT d a b m x ent s).Inv :=
  h.vecFma

theorem State.Inv.vbody {i : Instr} {ent : Entry} (h : s.Inv) : (vbody i ent s).Inv := by
  unfold Machine.vbody
  split
  · exact h.bodyAdd
  · exact h.bodySub
  · exact h.bodyMul
  · exact h.bodyFma
  · exact h.bodyFmaT
  · exact h.twoLane
  · exact h.twoLane
  · exact h.oneLane
  · exact h.oneLane
  · exact h.vecCmp
  · exact h.tableLane
  · exact h.tableLane
  · exact h.tableLane
  · exact h.tableLane
  · exact h.tableLane
  · exact h.intTwo
  · exact h.intTwo
  · exact h.intTwo
  · exact h.intTwo
  · exact h.intTwo
  · exact h.intTwo
  · exact h.oneLane
  · exact h.twoLane
  · exact h.twoLane
  · exact h.twoLane
  · exact h.intTwo
  · exact h.intTwo
  · exact h.vecCmp
  · exact h.vecCmp
  · exact h.vecSel
  · exact h.vecMask
  · exact h.oneLane
  · exact h.vecCvtFF
  · exact h.vecCvtFF
  · exact h.vecCvtFI
  · exact h.vecCvtIF
  · exact h.vecCvtII
  · exact h.vecBscale
  · exact h.vecQuant
  · exact h.vecRed
  · exact h.vecRed
  · exact h.vecScan
  · exact h.vecScan
  · exact h.vecPerm
  · exact h.vecRot
  · exact h.vecIota
  · exact h.vecPart
  · exact h.vecPort
  · exact h.vecPort
  · exact h.vecSplat
  · exact h

theorem State.Inv.repeatOne {n : Nat} (h : s.Inv) : (s.repeatOne n).Inv := by
  unfold State.repeatOne
  extract_lets
  split
  · exact h
  split
  · exact h
  · exact h.wakeBanks.vbody

theorem State.Inv.repeatAll {n count nm : Nat} (h : s.Inv) : (s.repeatAll n count nm).Inv := by
  induction nm generalizing s n with
  | zero =>
    rw [State.repeatAll]
    exact h.entryDone
  | succ nm ih =>
    rw [State.repeatAll]
    split
    · exact h.entryDone
    split
    · exact h.repeatOne.stop ‹_›
    · exact ih (h.repeatOne.ok ‹_›).setRing

/-! ### The matrix engine -/

theorem State.Inv.matDone {u : MatUnit} (h : s.Inv) : (s.matDone u).Inv := h.setMe.entryDone

theorem State.Inv.tileError (h : s.Inv) : s.tileError.2.Inv := by
  unfold State.tileError
  split <;> exact h.takeUpset.pair ‹_›

theorem State.Inv.readTile {a : BitVec 3} {k : State → State} (h : s.Inv) (hk : ∀ t, t.Inv → (k t).Inv) : (s.readTile a k).Inv := by
  unfold State.readTile
  split
  · exact (h.tileError.pair ‹_›).consumeError
  · exact hk _ (h.tileError.pair ‹_›)

theorem State.Inv.arrayFault (h : s.Inv) : s.arrayFault.2.Inv := h.upset

theorem State.Inv.mmul {acc : Bool} {a b c : BitVec 3} {k : BitVec 1} (h : s.Inv) : Out.Inv (mmul acc a b c k s) := by
  unfold Machine.mmul
  extract_lets _ _ s1
  have h1 : s1.Inv := h.setMe
  show State.Inv _
  refine h1.readTile fun _ h2 => ?_
  split
  have h3 := h2.arrayFault.pair ‹_›
  split
  · exact h3.diverge
  · exact h3.matDone

theorem State.Inv.gangComplete {b ck : Nat} (h : s.Inv) : (s.gangComplete b ck).Inv := by
  unfold State.gangComplete
  extract_lets
  split
  · exact h.record
  · exact h.putCore

theorem State.Inv.gangPark {r cause place : Nat} {desc : optParam W64 0} {row : optParam Nat 0} (h : s.Inv) :
    (s.gangPark r cause place desc row).Inv := by
  unfold State.gangPark
  extract_lets _ _ s1
  have h1 : s1.Inv := h.setEntry
  split
  · exact h1.diverge
  · exact h1.park

theorem State.Inv.ownPart {acc : Bool} {a b c : BitVec 3} {k : BitVec 1} (h : s.Inv) : (s.ownPart acc a b c k).2.Inv := by
  unfold State.ownPart
  extract_lets _ _ _ s1
  have h1 : s1.Inv := h.setMe
  split
  · exact h
  split
  · exact h1.tileError.pair ‹_›
  split
  have h2 := h1.tileError.pair ‹_›
  have h3 := h2.arrayFault.pair ‹_›
  split
  · exact h3
  · exact h3.setMe.setEntry

theorem State.Inv.sendParts (h : s.Inv) : s.sendParts.Inv := h.setEntry.foldl fun _ _ h1 => h1.later

theorem State.Inv.mgang {acc : Bool} {a b c : BitVec 3} {n : BitVec 7} {k : BitVec 1} (h : s.Inv) : Out.Inv (mgang acc a b c n k s) := by
  unfold Machine.mgang
  split
  extract_lets s1
  have h1 : s1.Inv := (h.ownPart.pair ‹_›).sendParts
  show State.Inv _
  split
  · exact h1.gangPark
  · exact h1.consumeError
  split
  · refine State.Inv.entryDone ?_
    split
    · exact h1
    · exact h1.foldl fun _ _ h2 => h2.gangComplete
  split
  · exact h1.wake
  · exact h1

theorem State.Inv.execGangPartArrive {node core member : Nat} (h : s.Inv) : Out.Inv (execGangPartArrive node core member s) := by
  unfold Machine.execGangPartArrive
  extract_lets _ s1
  have h1 : s1.Inv := h
  show State.Inv _
  split
  · exact h1
  extract_lets
  split
  · exact h1
  split
  · exact h1.gangPark
  · exact h1.putCore.later

theorem State.Inv.execGangPartCommit {node core member : Nat} (h : s.Inv) : Out.Inv (execGangPartCommit node core member s) := by
  unfold Machine.execGangPartCommit
  extract_lets ck s1
  have h1 : s1.Inv := h
  show State.Inv _
  split
  · exact h1
  split
  · exact h1
  split
  · exact h1.wake
  extract_lets _ _ _ _ _ s2
  have h2 : s2.Inv := h1.putCore
  have h2' : ∀ ck, State.Inv { s2 with cur := ck } := fun _ => h2
  split
  · have h3 := (h2' _).tileError.pair ‹_›
    exact .gangPark (.record h3)
  have h3 := (h2' _).tileError.pair ‹_›
  split
  have h4 := h3.arrayFault.pair ‹_›
  extract_lets s5
  have h5 : s5.Inv := h4
  split
  · exact h5.gangPark
  · exact h5.putCore.setEntry.wake.wake.checkDrained

theorem State.Inv.claimBytes {q first n : Nat} (h : s.Inv) : (s.claimBytes q first n).Inv := by
  induction n generalizing s with
  | zero => exact h
  | succ n ih =>
    rw [State.claimBytes]
    split
    · exact (ih h).stop ‹_›
    have h1 := (ih h).ok ‹_›
    split
    · exact h1
    · exact h1
    · exact h1.park
    · exact h1.wake

theorem State.Inv.tileLoad {tr : Bool} {rowsOf : W64 → Nat × Nat} {a : BitVec 3} {k : BitVec 1} (h : s.Inv) :
    Out.Inv (tileLoad tr rowsOf a k s) := by
  unfold Machine.tileLoad
  extract_lets
  split
  extract_lets _ _ _ _ got
  have h1 : got.Inv := by
    unfold got
    split
    · split
      · exact h.claimBytes.stop ‹_›
      · exact h.claimBytes.ok ‹_›
    split
    · exact h.padRead.stop ‹_›
    have h2 := h.padRead.ok ‹_›
    split
    · exact h2
    split
    · exact h2.padRead.stop ‹_›
    · exact h2.padRead.ok ‹_›
  exact h1.run fun _ _ h3 => h3.setMe.matDone

theorem State.Inv.execMld {a sh : BitVec 3} {k : BitVec 1} (h : s.Inv) : Out.Inv (execMld a sh k s) := by
  unfold Machine.execMld
  exact h.tileLoad

theorem State.Inv.execMldt {a sh : BitVec 3} {k : BitVec 1} (h : s.Inv) : Out.Inv (execMldt a sh k s) := by
  unfold Machine.execMldt
  exact h.tileLoad

theorem State.Inv.execMwld {a sh : BitVec 3} {k : BitVec 1} (h : s.Inv) : Out.Inv (execMwld a sh k s) := by
  unfold Machine.execMwld
  exact h.tileLoad

theorem State.Inv.execMwldt {a sh : BitVec 3} {k : BitVec 1} (h : s.Inv) : Out.Inv (execMwldt a sh k s) := by
  unfold Machine.execMwldt
  exact h.tileLoad

theorem State.Inv.streamWrite {base w : Nat} {els : List (Nat × Nat)} {extra : List (Nat × Byte)} (h : s.Inv) :
    (s.streamWrite base w els extra).Inv := by
  unfold State.streamWrite
  exact h.padWrite

theorem State.Inv.execMstt {a sh : BitVec 3} (h : s.Inv) : Out.Inv (execMstt a sh s) :=
  h.readTile fun _ h1 => h1.streamWrite.run fun _ _ h2 => h2.entryDone

theorem State.Inv.epilogueFault {new : List ((Nat × Nat) × Nat)} (h : s.Inv) : (s.epilogueFault new).2.2.Inv := by
  unfold State.epilogueFault
  split <;> exact h.upset.pair ‹_›

theorem State.Inv.epilogueEnd {c : BitVec 3} {extra : List Nat} {new : List ((Nat × Nat) × Nat)} (h : s.Inv) :
    (s.epilogueEnd c extra new).Inv :=
  h.matDone

theorem State.Inv.epilogue {c : BitVec 3} {extra : List Nat} {f : Nat → Nat → Nat → Nat} (h : s.Inv) : (s.epilogue c extra f).Inv :=
  h.epilogueEnd

theorem State.Inv.residue {c : BitVec 3} {extra : List Nat} {f : Nat → Nat → Nat → Nat} (h : s.Inv) : (s.residue c extra f).Inv := by
  unfold State.residue
  split
  have h1 := h.epilogueFault.triple ‹_›
  split
  · exact h1.park
  · exact h1.epilogueEnd

theorem State.Inv.vector32 {n : Nat} (h : s.Inv) : (s.vector32 n).Inv := by
  unfold State.vector32
  split
  · exact h.padRead.stop ‹_›
  · exact h.padRead.ok ‹_›

theorem State.Inv.execMeact {c sh : BitVec 3} {f : BitVec 4} (h : s.Inv) : Out.Inv (execMeact c sh f s) := by
  unfold Machine.execMeact
  split
  have h1 := h.upset.pair ‹_›
  exact .ite h1.park h1.epilogue

theorem State.Inv.tileStore {only : Bool} {c : BitVec 3} {t : BitVec 1} {r : BitVec 2} {f : BitVec 5} (h : s.Inv) :
    Out.Inv (tileStore only c t r f s) := by
  unfold Machine.tileStore
  show State.Inv _
  split
  · exact h.matDone
  · exact h.streamWrite.run fun _ _ h1 => h1.matDone

/-! ### The copy engine; `ctag` fills or empties many tags at once (R237) -/

theorem State.Inv.engPage {r va : Nat} {k : Kind} (h : s.Inv) : (s.engPage r va k).Inv := by
  unfold State.engPage
  split
  · have h1 := h.translate.ok ‹_›
    split
    · exact h1.engLater
    · exact h1
  · exact (h.translate.fault ‹_›).parkX
  · exact (h.translate.refused ‹_›).park

theorem State.Inv.segs {r : Nat} {k : Kind} {va n fuel : Nat} {sw : optParam Bool false} (h : s.Inv) : (s.segs r k va n fuel sw).Inv := by
  induction fuel generalizing s r k va n sw with
  | zero => exact h
  | succ fuel ih =>
    rw [State.segs]
    split
    · exact h
    split
    · exact h.park
    split
    · exact h.engPage.stop ‹_›
    extract_lets
    have h1 := h.engPage.ok ‹_›
    split
    · exact (ih h1).stop ‹_›
    · exact (ih h1).ok ‹_›

theorem Acc.Inv.engAcc {r va pa : Nat} {acc : Acc α} (h : acc.Inv) : (engAcc r va pa acc).Inv := by
  unfold Machine.engAcc
  split
  · exact h
  · exact h.park
  · exact h.consumeError
  · exact h.park

theorem State.Inv.lineRead {r : Nat} {g : Seg} (h : s.Inv) : (s.lineRead r g).Inv := h.loadAt.engAcc

theorem State.Inv.lineWrite {r : Nat} {g : Seg} {bs : List Byte} (h : s.Inv) : (s.lineWrite r g bs).Inv := by
  unfold State.lineWrite
  extract_lets s1
  have h1 : s1.Inv := .ite h h.nextIndex
  exact h1.storeAt.engAcc

theorem State.Inv.each {f : α → State → Res Unit} {l : List α} (hf : ∀ v t, t.Inv → (f v t).Inv) (h : s.Inv) :
    (State.each f l s).Inv := by
  induction l generalizing s with
  | nil => exact h
  | cons a l ih =>
    rw [State.each]
    split
    · exact (hf _ _ h).stop ‹_›
    · exact ih ((hf _ _ h).ok ‹_›)

theorem State.Inv.gather {r : Nat} {l : List Seg} (h : s.Inv) : (State.gather r l s).Inv := by
  induction l generalizing s with
  | nil => exact h
  | cons a l ih =>
    rw [State.gather]
    split
    · exact h.lineRead.stop ‹_›
    have h1 := h.lineRead.ok ‹_›
    split
    · exact (ih h1).stop ‹_›
    · exact (ih h1).ok ‹_›

theorem State.Inv.rangeRead {r va n : Nat} (h : s.Inv) : (s.rangeRead r va n).Inv := by
  unfold State.rangeRead
  split
  · exact h.segs.stop ‹_›
  · exact (h.segs.ok ‹_›).gather

theorem State.Inv.scatter {r : Nat} {l : List Seg} {l' : List Byte} (h : s.Inv) : (State.scatter r l l' s).Inv := by
  induction l generalizing l' s with
  | nil => exact h
  | cons a l ih =>
    rw [State.scatter]
    split
    · exact h.lineWrite.stop ‹_›
    · exact ih (h.lineWrite.ok ‹_›)

theorem State.Inv.rangeWrite {r : Nat} {k : Kind} {va : Nat} {bs : List Byte} (h : s.Inv) : (s.rangeWrite r k va bs).Inv := by
  unfold State.rangeWrite
  split
  · exact h.segs.stop ‹_›
  · exact (h.segs.ok ‹_›).scatter

theorem State.Inv.copyAcquire {q : BitVec 1} {sc : BitVec 3} {first : Option Seg} (h : s.Inv) : (s.copyAcquire q sc first).Inv := by
  unfold State.copyAcquire
  split
  · split
    · exact h.acquireAt
    · exact h
  · exact h

theorem State.Inv.descAcquire {q : BitVec 1} {sc : BitVec 3} (h : s.Inv) : (s.descAcquire q sc).Inv := by
  unfold State.descAcquire
  split
  · have h1 := h.translate.ok ‹_›
    split
    · exact h1.acquireAt
    · exact h1
  · exact h

theorem State.Inv.copyRelease {rl : BitVec 1} {sc : BitVec 3} {last : Option Nat} (h : s.Inv) : (s.copyRelease rl sc last).Inv := by
  unfold State.copyRelease
  split
  · extract_lets s1
    have h1 : s1.Inv := h.countRelease
    split
    · exact h1.stamp
    · exact h1
  · exact h

theorem State.Inv.copyDone {r : BitVec 1} {sc : BitVec 3} {last : Option Nat} (h : s.Inv) : (s.copyDone r sc last).Inv :=
  h.copyRelease.setRing.wake.entryDone

theorem Res.Inv.copy {r : BitVec 1} {sc : BitVec 3} {b : Res (Option Nat)} (h : b.Inv) : Out.Inv (copy r sc b) :=
  h.run fun _ _ h1 => h1.copyDone

theorem State.Inv.badFmt {r : Nat} {k : Kind} {va : Nat} {pg : Page} {cause : Nat} (h : s.Inv) : (s.badFmt r k va pg cause).Inv := by
  unfold State.badFmt
  split
  · exact h.parkX
  · exact h.park

theorem State.Inv.oneFmt {r : Nat} {k : Kind} {l : List Seg} (h : s.Inv) : (s.oneFmt r k l).Inv := by
  unfold State.oneFmt
  extract_lets
  split
  · exact h.badFmt
  · exact h

theorem State.Inv.moveIn {r : Nat} {l : List Seg} {place : Nat → Nat} {from_ : Nat} (h : s.Inv) : (s.moveIn r l place from_).Inv := by
  unfold State.moveIn
  refine h.each fun _ _ h1 => ?_
  split
  · exact h1.lineRead.stop ‹_›
  · exact (h1.lineRead.ok ‹_›).padWrite

theorem State.Inv.moveOut {r : Nat} {l : List Seg} {place : Nat → Nat} {from_ : Nat} (h : s.Inv) : (s.moveOut r l place from_).Inv := by
  unfold State.moveOut
  refine h.each fun _ _ h1 => ?_
  split
  · exact h1.padRead.stop ‹_›
  · exact (h1.padRead.ok ‹_›).lineWrite

theorem State.Inv.loadIn {r va n : Nat} {place : Nat → Nat} {acq : State → List Seg → State} {sw : optParam Bool false} (h : s.Inv)
    (hacq : ∀ t a, t.Inv → (acq t a).Inv) : (s.loadIn r va n place acq sw).Inv := by
  unfold State.loadIn
  split
  · exact h.segs.stop ‹_›
  have h1 := h.segs.ok ‹_›
  split
  · exact h1.oneFmt.stop ‹_›
  extract_lets s1
  have h2 : s1.Inv := hacq _ _ (h1.oneFmt.ok ‹_›)
  split
  · split
    · exact h2.moveIn.stop ‹_›
    · exact h2.moveIn.ok ‹_›
  split
  · exact h2.badFmt
  split
  · exact h2.gather.stop ‹_›
  extract_lets
  have h3 := h2.gather.ok ‹_›
  split
  · exact h3.padWrite.stop ‹_›
  · exact h3.padWrite.ok ‹_›

theorem State.Inv.execCldHbm {q r : BitVec 1} {sc : BitVec 3} {fo : BitVec 1} {x : BitVec 20} (h : s.Inv) :
    Out.Inv (execCldHbm q r sc fo x s) := by
  unfold Machine.execCldHbm
  refine Res.Inv.copy ?_
  split
  · exact (h.loadIn (fun _ _ h1 => h1.copyAcquire)).stop ‹_›
  · exact (h.loadIn (fun _ _ h1 => h1.copyAcquire)).ok ‹_›

theorem State.Inv.storeTo {va n x : Nat} {sw : optParam Bool false} (h : s.Inv) : (s.storeTo va n x sw).Inv := by
  unfold State.storeTo
  split
  · exact h.segs.stop ‹_›
  have h1 := h.segs.ok ‹_›
  split
  · exact h1.oneFmt.stop ‹_›
  have h2 := h1.oneFmt.ok ‹_›
  split
  · split
    · exact h2.moveOut.stop ‹_›
    · exact h2.moveOut.ok ‹_›
  split
  · exact h2.badFmt
  split
  · exact h2.padRead.stop ‹_›
  have h3 := h2.padRead.ok ‹_›
  split
  · exact h3.scatter.stop ‹_›
  · exact h3.scatter.ok ‹_›

theorem State.Inv.rowIn {r va rb x j : Nat} {skew : Bool} {acq : State → List Seg → State} (h : s.Inv)
    (hacq : ∀ t a, t.Inv → (acq t a).Inv) : (s.rowIn r va rb x j skew acq).Inv := by
  unfold State.rowIn
  split
  · exact h.segs.stop ‹_›
  have h1 := h.segs.ok ‹_›
  split
  · exact h1.badFmt
  · exact (hacq _ _ h1).moveIn

theorem State.Inv.execCld2d {q r : BitVec 1} {sc : BitVec 3} {fo : BitVec 1} {x : BitVec 20} (h : s.Inv) :
    Out.Inv (execCld2d q r sc fo x s) := by
  unfold Machine.execCld2d
  refine Res.Inv.copy ?_
  split
  · exact (h.each (fun _ _ h1 => h1.rowIn fun _ _ h2 => .ite h2.copyAcquire h2)).stop ‹_›
  · exact (h.each (fun _ _ h1 => h1.rowIn fun _ _ h2 => .ite h2.copyAcquire h2)).ok ‹_›

theorem State.Inv.execCst2d {q r : BitVec 1} {sc : BitVec 3} {x : BitVec 20} (h : s.Inv) : Out.Inv (execCst2d q r sc x s) := by
  unfold Machine.execCst2d
  extract_lets _ _ s1 row
  have h1 : s1.Inv := h.copyAcquire
  have h2 : ∀ v t, t.Inv → (row v t).Inv := by
    intro _ _ h2
    unfold row
    extract_lets
    split
    · exact h2.segs.stop ‹_›
    have h3 := h2.segs.ok ‹_›
    split
    · exact h3.badFmt
    · exact h3.moveOut
  refine Res.Inv.copy ?_
  split
  · exact (h1.each h2).stop ‹_›
  have h4 := (h1.each h2).ok ‹_›
  split
  · exact h4.translate.ok ‹_›
  · exact h4

theorem State.Inv.copyLine {src dst i : Nat} (h : s.Inv) : (State.copyLine src dst i s).Inv := by
  unfold State.copyLine
  split
  · exact h.rangeRead.stop ‹_›
  · exact (h.rangeRead.ok ‹_›).rangeWrite

theorem State.Inv.pairFmt {src dst n : Nat} (h : s.Inv) : (s.pairFmt src dst n).Inv := by
  unfold State.pairFmt
  split
  · exact h.segs.stop ‹_›
  have h1 := h.segs.ok ‹_›
  split
  · exact h1.segs.stop ‹_›
  extract_lets clash
  clear_value clash
  have h2 := h1.segs.ok ‹_›
  split
  · exact h2.badFmt
  split
  · exact h2.badFmt
  · exact h2

theorem State.Inv.execCcpy {q r : BitVec 1} {sc : BitVec 3} {x : BitVec 20} (h : s.Inv) : Out.Inv (execCcpy q r sc x s) := by
  unfold Machine.execCcpy
  refine Res.Inv.copy ?_
  split
  · exact h.pairFmt.stop ‹_›
  have h1 := h.pairFmt.ok ‹_›
  split
  · exact (h1.copyAcquire.each (fun _ _ h2 => h2.copyLine)).stop ‹_›
  · exact (h1.copyAcquire.each (fun _ _ h2 => h2.copyLine)).ok ‹_›

theorem State.Inv.copyUpset {bs : List Byte} (h : s.Inv) : (s.copyUpset bs).2.Inv := by
  unfold State.copyUpset
  split <;> exact h.upset.pair ‹_›

theorem State.Inv.execCcvt {q r : BitVec 1} {sc : BitVec 3} {x : BitVec 20} (h : s.Inv) : Out.Inv (execCcvt q r sc x s) := by
  unfold Machine.execCcvt
  refine Res.Inv.copy ?_
  split
  · exact h.segs.stop ‹_›
  have h1 := h.segs.ok ‹_›
  split
  · exact h1.oneFmt.stop ‹_›
  have h2 := h1.oneFmt.ok ‹_›
  split
  · exact h2.badFmt
  extract_lets
  split
  · exact h2.segs.stop ‹_›
  have h3 := h2.segs.ok ‹_›
  split
  · exact h3.badFmt
  split
  · exact h3.copyAcquire.gather.stop ‹_›
  extract_lets
  split
  have h4 := h3.copyAcquire.gather.ok ‹_›
  have h5 := h4.copyUpset.pair ‹_›
  split
  · exact h5.park
  split
  · exact h5.scatter.stop ‹_›
  · exact h5.scatter.ok ‹_›

theorem State.Inv.elemBytes {k : Kind} {va : Nat} (h : s.Inv) : (s.elemBytes k va).Inv := by
  unfold State.elemBytes
  split
  · exact h.engPage.stop ‹_›
  have h1 := h.engPage.ok ‹_›
  split
  · exact h1.badFmt
  split
  · exact h1.badFmt
  · exact h1

theorem State.Inv.execCgat {q r : BitVec 1} {sc : BitVec 3} {fo : BitVec 1} {x : BitVec 20} (h : s.Inv) :
    Out.Inv (execCgat q r sc fo x s) := by
  unfold Machine.execCgat
  refine Res.Inv.copy ?_
  split
  · exact h.copyAcquire.padRead.stop ‹_›
  have h1 := h.copyAcquire.padRead.ok ‹_›
  split
  · exact h1.elemBytes.stop ‹_›
  extract_lets one
  have h2 : ∀ v t, t.Inv → (one v t).Inv := by
    intro _ _ h2
    unfold one
    split
    · exact h2.padWrite
    extract_lets
    split
    · exact h2.park
    split
    · exact h2.elemBytes.stop ‹_›
    have h3 := h2.elemBytes.ok ‹_›
    split
    · exact h3.rangeRead.stop ‹_›
    · exact (h3.rangeRead.ok ‹_›).padWrite
  have h4 := h1.elemBytes.ok ‹_›
  split
  · exact (h4.each h2).stop ‹_›
  · exact (h4.each h2).ok ‹_›

theorem State.Inv.execCsct {q r : BitVec 1} {sc : BitVec 3} {x : BitVec 20} (h : s.Inv) : Out.Inv (execCsct q r sc x s) := by
  unfold Machine.execCsct
  refine Res.Inv.copy ?_
  split
  · exact h.copyAcquire.padRead.stop ‹_›
  have h1 := h.copyAcquire.padRead.ok ‹_›
  split
  · exact h1.elemBytes.stop ‹_›
  extract_lets one
  have h2 : ∀ v t, t.Inv → (one v t).Inv := by
    intro _ _ h2
    unfold one
    split
    · exact h2
    extract_lets
    split
    · exact h2.park
    split
    · exact h2.elemBytes.stop ‹_›
    have h3 := h2.elemBytes.ok ‹_›
    split
    · exact h3.padRead.stop ‹_›
    · exact (h3.padRead.ok ‹_›).rangeWrite
  have h4 := h1.elemBytes.ok ‹_›
  split
  · exact (h4.each h2).stop ‹_›
  have h5 := (h4.each h2).ok ‹_›
  split
  · exact h5
  split
  · exact h5.translate.ok ‹_›
  · exact h5

theorem State.Inv.execCfill {q r : BitVec 1} {sc : BitVec 3} {x : BitVec 20} (h : s.Inv) : Out.Inv (execCfill q r sc x s) := by
  unfold Machine.execCfill
  refine Res.Inv.copy ?_
  split
  · exact h.segs.stop ‹_›
  have h1 := h.segs.ok ‹_›
  split
  · exact h1.badFmt
  split
  · exact (h1.each (fun _ _ h2 => h2.lineWrite)).stop ‹_›
  · exact (h1.each (fun _ _ h2 => h2.lineWrite)).ok ‹_›

theorem State.Inv.execCfillSp {q r : BitVec 1} {sc : BitVec 3} {x : BitVec 20} (h : s.Inv) : Out.Inv (execCfillSp q r sc x s) := by
  unfold Machine.execCfillSp
  refine Res.Inv.copy ?_
  split
  · exact h.padWrite.stop ‹_›
  · exact h.padWrite.ok ‹_›

/-- The set of full tags after the marks of a `ctag`. -/
theorem NSet.sorted_foldl_mark {l t : NSet} (h : NSet.sorted t = true) (c : Prop) [Decidable c] :
    NSet.sorted (l.foldl (fun t w => if c then NSet.add t w else NSet.del t w) t) = true := by
  induction l generalizing t with
  | nil => exact h
  | cons a l ih =>
    refine ih ?_
    split
    · exact NSet.sorted_add h a
    · exact NSet.sorted_del h a

theorem State.Inv.execCtag {q r : BitVec 1} {sc : BitVec 3} {x : BitVec 20} (h : s.Inv) : Out.Inv (execCtag q r sc x s) := by
  unfold Machine.execCtag
  extract_lets _ _ _ s1
  have h1 : s1.Inv := ⟨h.1, NSet.sorted_foldl_mark h.2 _⟩
  exact Res.Inv.copy (State.Inv.foldl h1 fun _ _ h => h.tagServe)

theorem State.Inv.execCpref {q r : BitVec 1} {sc : BitVec 3} {x : BitVec 20} (h : s.Inv) : Out.Inv (execCpref q r sc x s) := by
  unfold Machine.execCpref
  extract_lets _ _ s1
  have h1 : s1.Inv := by
    unfold s1
    refine h.foldl fun _ _ h1 => ?_
    split
    · exact h1.translate.ok ‹_›
    · exact h1
  exact Res.Inv.copy h1

theorem State.Inv.execCmovSp {q r : BitVec 1} {sc : BitVec 3} {fo : BitVec 1} {x : BitVec 20} (h : s.Inv) :
    Out.Inv (execCmovSp q r sc fo x s) := by
  unfold Machine.execCmovSp
  refine Res.Inv.copy ?_
  split
  · exact h.copyAcquire.padRead.stop ‹_›
  have h1 := h.copyAcquire.padRead.ok ‹_›
  split
  · exact h1.padWrite.stop ‹_›
  · exact h1.padWrite.ok ‹_›

theorem State.Inv.windowWrite {mk off : Nat} {bs : List Byte} (h : s.Inv) : (s.windowWrite mk off bs).Inv := h.scatter

theorem State.Inv.execCmst {q r : BitVec 1} {sc : BitVec 3} {x : BitVec 20} (h : s.Inv) : Out.Inv (execCmst q r sc x s) := by
  unfold Machine.execCmst
  refine Res.Inv.copy ?_
  split
  · exact h.copyAcquire.padRead.stop ‹_›
  have h1 := h.copyAcquire.padRead.ok ‹_›
  split
  · exact (h1.each (fun _ _ h2 => h2.windowWrite)).stop ‹_›
  · exact (h1.each (fun _ _ h2 => h2.windowWrite)).ok ‹_›

theorem State.Inv.execCsig {q r : BitVec 1} {sc : BitVec 3} {k : BitVec 2} (h : s.Inv) : Out.Inv (execCsig q r sc k s) := by
  unfold Machine.execCsig
  refine Res.Inv.copy ?_
  split
  · split
    · exact h.engPage.stop ‹_›
    extract_lets s1 s2
    have h1 : s1.Inv := (h.engPage.ok ‹_›).copyAcquire
    have h2 : s2.Inv := .ite h1 h1.nextIndex
    split
    · exact h2.atomicAt.engAcc.stop ‹_›
    · exact h2.atomicAt.engAcc.ok ‹_›
  split
  · exact h.engPage.stop ‹_›
  have h3 := h.engPage.ok ‹_›
  split
  · exact h3.lineWrite.stop ‹_›
  · exact h3.lineWrite.ok ‹_›

theorem State.Inv.batchOne {op X j : Nat} (h : s.Inv) : (s.batchOne op X j).Inv := by
  unfold State.batchOne
  split
  · exact h.padRead.stop ‹_›
  have h1 := h.padRead.ok ‹_›
  extract_lets
  split
  · exact h1
  split
  · exact h1.engPage.stop ‹_›
  have h2 := h1.engPage.ok ‹_›
  extract_lets
  split
  · exact h2.badFmt
  split
  · exact h2.park
  split
  · exact h2.engPage.stop ‹_›
  have h3 := h2.engPage.ok ‹_›
  split
  · exact h3.badFmt
  split
  next s4 _ =>
  have h4 : s4.Inv := (State.Inv.ite_pair h3.upset h3).pair ‹_›
  extract_lets
  split
  · exact h4.park
  split
  · exact h4.padMay.stop ‹_›
  have h5 := h4.padMay.ok ‹_›
  split
  · exact h5.atomicAt.engAcc.stop ‹_›
  · exact (h5.atomicAt.engAcc.ok ‹_›).padWrite

theorem State.Inv.batchAll {op X n : Nat} (h : s.Inv) : (s.batchAll op X n).Inv := by
  induction n generalizing s with
  | zero => exact h
  | succ n ih =>
    rw [State.batchAll]
    split
    · exact h.batchOne.stop ‹_›
    · exact ih (h.batchOne.ok ‹_›).setRing

theorem State.Inv.cbat {op : Nat} {q r : BitVec 1} {sc : BitVec 3} {x : BitVec 20} (h : s.Inv) : Out.Inv (cbat op q r sc x s) := by
  unfold Machine.cbat
  extract_lets _ s1
  have h1 : s1.Inv := h.copyAcquire
  refine Res.Inv.copy ?_
  split
  · exact h1.batchAll.stop ‹_›
  · split <;> exact h1.batchAll.ok ‹_›

/-! ### Switch memory, reductions and key-value transfers (R214 to R220) -/

theorem State.Inv.execCldSw {q r : BitVec 1} {sc : BitVec 3} {fo : BitVec 1} {x : BitVec 20} (h : s.Inv) :
    Out.Inv (execCldSw q r sc fo x s) := by
  unfold Machine.execCldSw
  refine Res.Inv.copy ?_
  split
  · exact (h.loadIn (fun _ _ h1 => h1.copyAcquire)).stop ‹_›
  · exact (h.loadIn (fun _ _ h1 => h1.copyAcquire)).ok ‹_›

theorem State.Inv.redFinish {sw off state : Nat} {valid : Bool} (h : s.Inv) : (s.redFinish sw off state valid).Inv := by
  unfold State.redFinish
  extract_lets
  split
  · exact h
  · exact h.putSwitch.foldl fun _ _ h1 => h1.wake

theorem State.Inv.redContribute {sw off : Nat} {cmst : Bool} {b : W64} {data : List Byte} {t : State} (h : s.Inv)
    (ht : s.redContribute sw off cmst b data = .ok t) : t.Inv := by
  unfold State.redContribute at ht
  extract_lets at ht
  split at ht
  · cases ht
  split at ht
  · cases ht
  split at ht
  · cases ht
  split at ht
  · cases ht
  split at ht
  · cases ht
  extract_lets _ _ s1 at ht
  have h1 : s1.Inv := h.putSwitch
  split at ht
  · exact Except.ok.inj ht ▸ h1.redFinish
  · exact Except.ok.inj ht ▸ State.Inv.ite h1.wake h1

theorem State.Inv.redLoad {sw off ck : Nat} {b : W64} {v : Option (List Byte)} {t : State} (h : s.Inv)
    (ht : s.redLoad sw off ck b = .ok (v, t)) : t.Inv := by
  unfold State.redLoad at ht
  extract_lets at ht
  split at ht
  · cases ht
    exact h.putSwitch
  split at ht
  · cases ht
  split at ht
  · cases ht
  split at ht
  · cases ht
    exact h.putSwitch
  split at ht
  · split at ht
    · cases ht
      exact h
    · cases ht
  · cases ht

theorem State.Inv.execReductionRoundTimeout {sw ctx : Nat} (h : s.Inv) : Out.Inv (execReductionRoundTimeout sw ctx s) := by
  unfold Machine.execReductionRoundTimeout
  show State.Inv _
  split
  · exact h
  split
  · exact h
  split
  · exact h.redFinish
  · exact h.wake

theorem State.Inv.redPlace {va : Nat} (h : s.Inv) : (s.redPlace va).Inv := by
  unfold State.redPlace
  split
  · exact h.parkX
  extract_lets
  split
  · exact h
  split
  · exact h.parkX
  · exact h

theorem State.Inv.atSwitchPa {va pa : Nat} {f : State → Except (Nat × Option Nat) (α × State)} (h : s.Inv)
    (hf : ∀ s v t, s.Inv → f s = .ok (v, t) → t.Inv) : (s.atSwitchPa va pa f).Inv := by
  unfold State.atSwitchPa
  split
  · exact h.wake
  split
  · split
    exact (h.refuseSent.pair ‹_›).park
  split
  next s1 _ =>
  have h1 : s1.Inv := h.fabric.quad ‹_›
  split
  · split
    · exact (hf _ _ _ h1 ‹_›).cacheOwn
    · exact h1.park
  · refine State.Inv.park ?_
    split
    · split
      · exact (hf _ _ _ h1 ‹_›).cacheOwn
      · exact h1
    · exact h1

theorem State.Inv.atSwitch {va sw off : Nat} {f : State → Except (Nat × Option Nat) (α × State)} (h : s.Inv)
    (hf : ∀ s v t, s.Inv → f s = .ok (v, t) → t.Inv) : (s.atSwitch va sw off f).Inv :=
  h.atSwitchPa hf

theorem State.Inv.execCredInit {q r : BitVec 1} {sc : BitVec 3} {x : BitVec 20} (h : s.Inv) : Out.Inv (execCredInit q r sc x s) := by
  unfold Machine.execCredInit
  refine Res.Inv.copy ?_
  split
  · exact h.parkX
  extract_lets
  split
  · exact h.park
  refine h.copyAcquire.atSwitch fun s v t h e => ?_
  split at e
  · cases e
  · cases e
    exact (State.Inv.ite h.redFinish h).putSwitch

theorem State.Inv.contribute {cmst : Bool} {q r : BitVec 1} {sc : BitVec 3} {x : BitVec 20} (h : s.Inv) :
    Out.Inv (contribute cmst q r sc x s) := by
  unfold Machine.contribute
  refine Res.Inv.copy ?_
  split
  · exact h.redPlace.stop ‹_›
  · exact h.redPlace.ok ‹_›
  extract_lets
  have h1 := h.redPlace.ok ‹_›
  split
  · exact h1.copyAcquire.padRead.stop ‹_›
  · refine (h1.copyAcquire.padRead.ok ‹_›).atSwitch fun s v t h e => ?_
    split at e
    · cases e
      exact h.redContribute ‹_›
    · cases e

theorem State.Inv.dropAnswer (h : s.Inv) : s.dropAnswer.Inv := h

/-- Where a reduction address is placed: the answer of an identity, or what its switch gives (R219). -/
theorem Res.Inv.placed {u : Res (Option (Nat × Nat × Nat))} {none_ : State → Res α} {some_ : Nat → Nat → State → Res α} (hu : u.Inv)
    (hnone : ∀ s, s.Inv → (none_ s).Inv) (hsome : ∀ sw off s, s.Inv → (some_ sw off s).Inv) :
    (match u with
      | .stop s => .stop s
      | .ok none s => none_ s
      | .ok (some (sw, off, _)) s => some_ sw off s : Res α).Inv := by
  rcases u with ⟨_ | ⟨sw, off, _⟩, s⟩ | s
  · exact hnone _ hu
  · exact hsome _ _ _ hu
  · exact hu

theorem State.Inv.execCldrSw {q r : BitVec 1} {sc : BitVec 3} {fo : BitVec 1} {x : BitVec 20} (h : s.Inv) :
    Out.Inv (execCldrSw q r sc fo x s) := by
  unfold Machine.execCldrSw
  extract_lets _ e put acquire
  have hput : ∀ s bs, s.Inv → (put s bs).Inv := by
    intro _ _ h
    unfold put
    split
    · exact h.padWrite.stop ‹_›
    · exact h.padWrite.ok ‹_›
  have hacq : ∀ s, s.Inv → (acquire s).Inv := by
    intro _ h
    unfold acquire
    split
    · exact (h.redPlace.ok ‹_›).copyAcquire
    · exact h
  refine Res.Inv.copy ?_
  split
  · split
    · exact ((hput _ _ (hacq _ h)).ok ‹_›).dropAnswer
    · exact (hput _ _ (hacq _ h)).stop ‹_›
  refine Res.Inv.placed h.redPlace (fun s h => hput _ _ h) fun sw off s h => ?_
  have hl : (s.atSwitch e.capa.toNat sw off fun t => t.redLoad sw off t.cur e.capb).Inv :=
    h.atSwitch fun _ _ _ h e => h.redLoad e
  generalize s.atSwitch _ _ _ _ = v at hl ⊢
  rcases v with ⟨_ | bs, t⟩ | t
  · exact hl
  · exact hput _ _ (hacq _ hl)
  · exact hl

theorem State.Inv.execCredDrop {q r : BitVec 1} {sc : BitVec 3} {b : BitVec 1} (h : s.Inv) : Out.Inv (execCredDrop q r sc b s) := by
  unfold Machine.execCredDrop
  refine Res.Inv.copy ?_
  split
  · exact h.redPlace.stop ‹_›
  · exact h.redPlace.ok ‹_›
  refine (h.redPlace.ok ‹_›).copyAcquire.atSwitch fun s v t h e => ?_
  split at e
  · split at e
    · cases e
      exact h.redFinish
    · cases e
  · cases e

theorem State.Inv.execReductionContribution {node core : Nat} {form : Bool} {ctx capb : W64} {data : List Byte} (h : s.Inv) :
    Out.Inv (execReductionContribution node core form ctx capb data s) := by
  unfold Machine.execReductionContribution
  show State.Inv _
  split
  · split
    · exact h.redContribute ‹_›
    · exact State.Inv.park (h.of_same rfl rfl)
  · exact h

theorem State.Inv.execReductionLoad {node core : Nat} {ctx capb : W64} (h : s.Inv) :
    Out.Inv (execReductionLoad node core ctx capb s) := by
  unfold Machine.execReductionLoad
  show State.Inv _
  split
  · extract_lets
    split
    · exact h.redLoad ‹_›
    · exact (h.redLoad ‹_›).putSwitch.wake
    · exact State.Inv.park (h.of_same rfl rfl)
  · exact h

theorem State.Inv.kvTranslate {k : Kind} {l : List Nat} (h : s.Inv) : (s.kvTranslate k l).Inv := by
  induction l generalizing s with
  | nil => exact h
  | cons a l ih =>
    rw [State.kvTranslate]
    split
    · exact h.park
    split
    · exact h.engPage.stop ‹_›
    have h1 := h.engPage.ok ‹_›
    split
    · exact (ih h1).stop ‹_›
    · exact (ih h1).ok ‹_›

theorem State.Inv.kvPost {pull : Bool} {q r : BitVec 1} {sc : BitVec 3} (h : s.Inv) : Out.Inv (kvPost pull q r sc s) := by
  unfold Machine.kvPost
  refine Res.Inv.copy ?_
  split
  · exact h
  split
  · exact h.descAcquire.rangeRead.stop ‹_›
  have h1 := h.descAcquire.rangeRead.ok ‹_›
  extract_lets
  split
  · exact h1.park
  split
  · exact h1.rangeRead.stop ‹_›
  have h2 := h1.rangeRead.ok ‹_›
  extract_lets
  split
  · exact h2.park
  refine .ite h2.park ?_
  split
  · exact h2.kvTranslate.stop ‹_›
  have h3 := h2.kvTranslate.ok ‹_›
  split
  · exact h3.engPage.stop ‹_›
  have h4 := h3.engPage.ok ‹_›
  split
  · exact h4.lineWrite.stop ‹_›
  have h5 := h4.lineWrite.ok ‹_›
  extract_lets _ other s5 s6 s7
  have h6 : s6.Inv := .later h5
  have h7 : s7.Inv := by
    unfold s7
    clear_value other
    split
    · exact h6.later
    · exact h6
  exact h7

theorem State.Inv.execCkvSync {q r : BitVec 1} {sc : BitVec 3} (h : s.Inv) : Out.Inv (execCkvSync q r sc s) := by
  unfold Machine.execCkvSync
  refine Res.Inv.copy ?_
  split <;> exact h

theorem State.Inv.setHalf {k : KvHalf} (h : s.Inv) : (s.setHalf k).Inv := h

theorem State.Inv.execKvHalvesMatch {send pull : Nat} (h : s.Inv) : Out.Inv (execKvHalvesMatch send pull s) := by
  unfold Machine.execKvHalvesMatch
  show State.Inv _
  split
  · split
    · exact h
    split
    · exact h.endHalf.endHalf
    · exact h.setHalf.setHalf.later
  · exact h

theorem State.Inv.kvRefused {k : KvHalf} {pg : Page} {acc : Nat} {t : State} (h : s.Inv) (ht : s.kvRefused k pg acc = some t) :
    t.Inv := by
  obtain ⟨c, -, rfl⟩ := Option.map_eq_some_iff.1 ht
  exact h.refuseSent

theorem State.Inv.kvMove {a b : KvHalf} {x y : Page} (h : s.Inv) : (s.kvMove a b x y).2.Inv := by
  unfold State.kvMove
  split
  · exact h.kvRefused ‹_›
  split
  · exact h
  split
  · exact (h.racing.pair ‹_›).count
  have h1 := h.racing.pair ‹_›
  split
  · exact h1.fabric.quad ‹_›
  have h2 := h1.fabric.quad ‹_›
  split
  · exact h2.kvRefused ‹_›
  split
  · exact (h2.racing.pair ‹_›).count
  have h3 := h2.racing.pair ‹_›
  extract_lets
  split
  have h4 := h3.fabric.quad ‹_›
  exact .ite h4.poke.noteWrite.cacheOwn h4

theorem State.Inv.kvPart {a b : KvHalf} {i : Nat} (h : s.Inv) : (s.kvPart a b i).2.Inv := by
  unfold State.kvPart
  split
  · refine h.foldl_snd fun _ _ h1 => ?_
    split
    · exact h1
    · exact h1.kvMove
  · exact h

/-- The pages of a transfer, moved part by part until one fails. -/
theorem State.Inv.kvParts {a b : KvHalf} {p : Option Bool × State} {l : List Nat} {i : Nat → Nat} (h : p.2.Inv) :
    (l.foldl (fun t j => if t.1.isSome then t else t.2.kvPart a b (i j)) p).2.Inv := by
  refine h.foldl_snd fun p j h => ?_
  split
  · exact h
  · exact h.kvPart

theorem State.Inv.execKvPageLanded {pull page : Nat} (h : s.Inv) : Out.Inv (execKvPageLanded pull page s) := by
  unfold Machine.execKvPageLanded
  show State.Inv _
  split
  · exact h
  split
  · exact h
  extract_lets
  split
  · exact h
  split
  · exact h.wake
  split
  · exact ((State.Inv.kvParts (p := (none, s)) h).pair ‹_›).endHalf
  · exact ((State.Inv.kvParts (p := (none, s)) h).pair ‹_›).endHalf
  have h1 := (State.Inv.kvParts (p := (none, s)) h).pair ‹_›
  split
  · exact h1.setHalf.setHalf.later
  · exact h1.setHalf.setHalf.later.later

theorem State.Inv.kvHalfLanded {a b : KvHalf} (h : s.Inv) : (s.kvHalfLanded a b).Inv :=
  h.foldl fun _ _ h1 => .ite h1.pickBool.kvMove h1.pickBool

theorem State.Inv.execKvTransferTimeout {half : Nat} (h : s.Inv) : Out.Inv (execKvTransferTimeout half s) := by
  unfold Machine.execKvTransferTimeout
  show State.Inv _
  split
  · exact h
  split
  · exact h.later
  extract_lets s1
  have h1 : s1.Inv := by
    unfold s1
    split
    · exact h.kvHalfLanded
    · exact h
  exact h1.endHalf

theorem State.Inv.execKvTransferEnd {half code : Nat} (h : s.Inv) : Out.Inv (execKvTransferEnd half code s) := by
  unfold Machine.execKvTransferEnd
  show State.Inv _
  split
  · exact h
  split
  · exact h
  split
  · exact h.endHalf
  · exact h

theorem State.Inv.kvPeerLost {node func : Nat} (h : s.Inv) : (s.kvPeerLost node func).Inv := by
  unfold State.kvPeerLost
  refine h.foldl fun _ _ h1 => ?_
  split
  · exact h1.endHalf
  · exact h1

/-! ### The sketch forms (R222 to R228) -/

theorem State.Inv.setRead {va n : Nat} (h : s.Inv) : (s.setRead va n).Inv := by
  unfold State.setRead
  split
  · exact h.park
  · exact h.rangeRead

theorem State.Inv.setWordAt {va : Nat} (h : s.Inv) : (s.setWordAt va).Inv := h.setRead.then_ fun _ _ h1 => h1

theorem State.Inv.linesMay {l : List Seg} (h : s.Inv) : (s.linesMay l).Inv := by
  induction l generalizing s with
  | nil => exact h
  | cons a l ih =>
    rw [State.linesMay]
    split
    · exact h.refuseSent.park
    split
    · exact (h.racing.pair ‹_›).park
    · exact ih (h.racing.pair ‹_›)

theorem State.Inv.allMay {l : List Put} (h : s.Inv) : (s.allMay l).Inv := by
  induction l generalizing s with
  | nil => exact h
  | cons a l ih =>
    rw [State.allMay]
    split
    · exact h.park
    · exact h.segs.then_ fun _ _ h1 => h1.linesMay.then_ fun _ _ h2 => ih h2

theorem State.Inv.putEach {l : List Put} (h : s.Inv) : (s.putEach l).Inv := by
  induction l generalizing s with
  | nil => exact h
  | cons a l ih =>
    rw [State.putEach]
    exact h.rangeWrite.then_ fun _ _ h1 => ih h1

theorem State.Inv.putAll {l : List Put} (h : s.Inv) : (s.putAll l).Inv := h.allMay.then_ fun _ _ h1 => h1.putEach

theorem State.Inv.setProg {f : Progress → Progress} (h : s.Inv) : (s.setProg f).Inv := h.setRing

theorem State.Inv.takeLock {a : Nat} (h : s.Inv) : (s.takeLock a).Inv := by
  unfold State.takeLock
  split
  · exact h
  refine h.engPage.then_ fun _ _ h1 => ?_
  refine h1.acquireAt.atomicAt.engAcc.then_ fun _ _ h2 => ?_
  split
  · exact h2.wake
  · exact h2.setProg

theorem State.Inv.readSet {init : Bool} (h : s.Inv) : (s.readSet init).Inv := by
  unfold State.readSet
  refine h.setRead.then_ fun _ _ h1 => ?_
  extract_lets
  split
  · exact h1.park
  · exact h1

theorem State.Inv.giveLock {d : SetDesc} {c round nout : Nat} (h : s.Inv) : (s.giveLock d c round nout).Inv :=
  h.engPage.then_ fun _ _ h1 => h1.lineWrite.then_ fun _ _ h2 => h2.countRelease.stamp.setProg

theorem State.Inv.setDone {d : SetDesc} {op code a b c round nout : Nat} {rec : Option Nat} (h : s.Inv) :
    (s.setDone d op code a b c round nout rec).Inv := by
  unfold State.setDone
  refine h.putAll.then_ fun _ _ h1 => ?_
  refine Res.Inv.then_ ?_ fun _ _ h2 => ?_
  · split
    · exact h1.giveLock
    · exact h1
  refine h2.engPage.then_ fun _ _ h3 => ?_
  extract_lets s1
  have h4 : s1.Inv := by
    unfold s1
    split
    · exact h3.record
    · exact h3
  exact h4

theorem State.Inv.readCell {base i : Nat} (h : s.Inv) : (s.readCell base i).Inv := h.setRead.then_ fun _ _ h1 => h1

theorem State.Inv.addPuts {base : Nat} {k : W64} {plus : Bool} {l : List Nat} (h : s.Inv) : (s.addPuts base k plus l).Inv := by
  induction l generalizing s with
  | nil => exact h
  | cons a l ih =>
    rw [State.addPuts]
    exact h.readCell.then_ fun _ _ h1 => (ih h1).then_ fun _ _ h2 => h2

theorem State.Inv.setFind {base esize cap : Nat} {k : W64} {t : Nat} {free : Option Nat} {n : Nat} (h : s.Inv) :
    (s.setFind base esize cap k t free n).Inv := by
  induction n generalizing s base esize cap k t free with
  | zero => exact h
  | succ n ih =>
    rw [State.setFind]
    refine h.setWordAt.then_ fun _ _ h1 => ?_
    split
    · exact h1
    split
    · exact h1
    · exact ih h1

theorem State.Inv.find {d : SetDesc} {base : Nat} {k : W64} (h : s.Inv) : (s.find d base k).Inv := h.setFind

theorem State.Inv.setInsert {d : SetDesc} {entry : List Byte} (h : s.Inv) : (s.setInsert d entry).Inv := by
  unfold State.setInsert
  extract_lets
  split
  · exact h.park
  refine h.find.then_ fun _ _ h1 => ?_
  split
  · exact h1
  · exact h1.park
  · exact h1.addPuts.then_ fun _ _ h2 => h2.putAll.then_ fun _ _ h3 => h3

theorem State.Inv.setDelete {d : SetDesc} {k : W64} (h : s.Inv) : (s.setDelete d k).Inv := by
  unfold State.setDelete
  split
  · exact h.park
  refine h.find.then_ fun _ _ h1 => ?_
  split
  · exact h1.addPuts.then_ fun _ _ h2 => h2.putAll.then_ fun _ _ h3 => h3
  · exact h1

theorem State.Inv.clearSlots {d : SetDesc} {j n : Nat} (h : s.Inv) : (s.clearSlots d j n).Inv := by
  induction n generalizing s d j with
  | zero => exact h
  | succ n ih =>
    rw [State.clearSlots]
    exact h.putAll.then_ fun _ _ h1 => ih h1

theorem State.Inv.rebuild {d : SetDesc} {c n : Nat} (h : s.Inv) : (s.rebuild d c n).Inv := by
  induction n generalizing s with
  | zero => exact h
  | succ n ih =>
    rw [State.rebuild]
    split
    · exact h.putAll.then_ fun _ _ h1 => ih h1.setProg
    split
    · refine h.setWordAt.then_ fun _ _ h1 => ?_
      split
      · exact ih h1.setProg
      · exact h1.addPuts.then_ fun _ _ h2 => h2.putAll.then_ fun _ _ h3 => ih h3.setProg
    · exact h

theorem State.Inv.zeroHeader {d : SetDesc} (h : s.Inv) : (s.zeroHeader d).Inv := h.putAll

theorem State.Inv.csk {init : Bool} {q r : BitVec 1} {sc : BitVec 3} {body : SetDesc → State → Res (Option Nat)} (h : s.Inv)
    (hbody : ∀ v t, t.Inv → (body v t).Inv) : Out.Inv (csk init q r sc s body) :=
  (h.descAcquire.takeLock.then_ (fun _ _ h1 => h1.readSet.then_ hbody)).copy

theorem State.Inv.execCskInit {q r : BitVec 1} {sc : BitVec 3} {cl : BitVec 1} (h : s.Inv) : Out.Inv (execCskInit q r sc cl s) := by
  unfold Machine.execCskInit
  extract_lets
  split
  · exact h.park
  refine h.csk fun _ _ h1 => ?_
  split
  · exact h1.park
  extract_lets s1
  have h2 : s1.Inv := h1.setProg
  refine h2.zeroHeader.then_ fun _ _ h3 => ?_
  refine Res.Inv.then_ ?_ fun _ _ h4 => h4.rebuild.then_ fun _ _ h5 => h5.setDone
  split
  · exact h3.clearSlots
  · exact h3

theorem State.Inv.setEach {f : List Byte → State → Res Bool} {n : Nat} {l : List (List Byte)} (h : s.Inv)
    (hf : ∀ v t, t.Inv → (f v t).Inv) : (s.setEach f n l).Inv := by
  induction l generalizing s n with
  | nil => exact h
  | cons a l ih =>
    rw [State.setEach]
    exact (hf _ _ h).then_ fun _ _ h1 => ih h1

theorem State.Inv.execCskIns {q r : BitVec 1} {sc : BitVec 3} (h : s.Inv) : Out.Inv (execCskIns q r sc s) := by
  unfold Machine.execCskIns
  refine h.csk fun _ _ h1 => ?_
  split
  · exact h1.park
  · exact h1.padRead.then_ fun _ _ h2 => (h2.setEach (fun _ _ h3 => h3.setInsert)).then_ fun _ _ h3 => h3.setDone

theorem State.Inv.execCskDel {q r : BitVec 1} {sc : BitVec 3} (h : s.Inv) : Out.Inv (execCskDel q r sc s) :=
  h.csk fun _ _ h1 => h1.padRead.then_ fun _ _ h2 => (h2.setEach (fun _ _ h3 => h3.setDelete)).then_ fun _ _ h3 => h3.setDone

theorem State.Inv.execCskSend {q r : BitVec 1} {sc : BitVec 3} (h : s.Inv) : Out.Inv (execCskSend q r sc s) := by
  unfold Machine.execCskSend
  refine Res.Inv.copy ?_
  refine h.descAcquire.readSet.then_ fun _ _ h1 => ?_
  refine h1.setWordAt.then_ fun _ _ h2 => ?_
  split
  · exact h2.park
  refine h2.takeLock.then_ fun _ _ h3 => ?_
  refine h3.readSet.then_ fun _ _ h4 => ?_
  refine h4.setRead.then_ fun _ _ h5 => ?_
  refine h5.giveLock.then_ fun _ _ h6 => ?_
  refine h6.putAll.then_ fun _ _ h7 => ?_
  split
  · exact h7.park
  · exact h7.engPage.then_ fun _ _ h8 => h8.lineWrite.then_ fun _ _ h9 => h9.countRelease.stamp.setDone

theorem State.Inv.readHeader {d : SetDesc} (h : s.Inv) : (s.readHeader d).Inv := by
  unfold State.readHeader
  split
  · exact h.park
  · exact h.engPage.then_ fun _ _ h1 => h1.acquireAt.loadAt.engAcc.then_ fun _ _ h2 => h2

theorem State.Inv.subtract {d : SetDesc} {n : Nat} (h : s.Inv) : (s.subtract d n).Inv := by
  induction n generalizing s with
  | zero => exact h
  | succ n ih =>
    rw [State.subtract]
    split
    · exact h
    · exact h.readCell.then_ fun _ _ h1 => h1.readCell.then_ fun _ _ h2 => h2.putAll.then_ fun _ _ h3 => ih h3.setProg

theorem State.Inv.execCskXchg {q r : BitVec 1} {sc : BitVec 3} (h : s.Inv) : Out.Inv (execCskXchg q r sc s) := by
  unfold Machine.execCskXchg
  refine h.csk fun _ _ h1 => ?_
  refine h1.readHeader.then_ fun _ _ h2 => ?_
  split
  · exact h2.park
  · exact h2.subtract.then_ fun _ _ h3 => h3.putAll.then_ fun _ _ h4 => h4.setDone

theorem State.Inv.peel {d : SetDesc} {n : Nat} (h : s.Inv) : (s.peel d n).Inv := by
  induction n generalizing s with
  | zero => exact h
  | succ n ih =>
    rw [State.peel]
    split
    · split
      · exact ih h.setProg
      · exact h
    refine h.readCell.then_ fun _ _ h1 => ?_
    split
    · exact ih h1.setProg
    split
    · exact h1
    · exact h1.addPuts.then_ fun _ _ h2 => h2.putAll.then_ fun _ _ h3 => ih h3.setProg

theorem State.Inv.cellsLeft {d : SetDesc} {n : Nat} {l : List Nat} (h : s.Inv) : (s.cellsLeft d n l).Inv := by
  induction l generalizing s n with
  | nil => exact h
  | cons a l ih =>
    rw [State.cellsLeft]
    exact h.readCell.then_ fun _ _ h1 => ih h1

theorem State.Inv.execCskPeel {q r : BitVec 1} {sc : BitVec 3} (h : s.Inv) : Out.Inv (execCskPeel q r sc s) := by
  unfold Machine.execCskPeel
  refine h.csk fun _ _ h1 => ?_
  refine h1.readHeader.then_ fun _ _ h2 => ?_
  split
  · exact h2.park
  · exact h2.peel.then_ fun _ _ h3 => h3.cellsLeft.then_ fun _ _ h4 => h4.putAll.then_ fun _ _ h5 => h5.setDone

theorem State.Inv.fetchOne {d : SetDesc} {mirror : Bool} {i : Nat} (h : s.Inv) : (s.fetchOne d mirror i).Inv := by
  unfold State.fetchOne
  refine h.setRead.then_ fun _ _ h1 => ?_
  split
  · refine h1.find.then_ fun _ _ h2 => ?_
    split
    · exact h2.setRead.then_ fun _ _ h3 => h3.setInsert.then_ fun _ _ h4 => h4
    · exact h2
  split
  · exact h1.setDelete.then_ fun _ _ h2 => h2
  · exact h1

theorem State.Inv.fetchAll {d : SetDesc} {mirror : Bool} {n : Nat} (h : s.Inv) : (s.fetchAll d mirror n).Inv := by
  induction n generalizing s with
  | zero => exact h
  | succ n ih =>
    rw [State.fetchAll]
    split
    · exact h
    · exact h.fetchOne.then_ fun _ _ h1 => ih h1.setProg

theorem State.Inv.execCskFetch {q r : BitVec 1} {sc : BitVec 3} {m : BitVec 1} (h : s.Inv) : Out.Inv (execCskFetch q r sc m s) :=
  h.csk fun _ _ h1 => h1.fetchAll.then_ fun _ _ h2 => h2.setDone

theorem State.Inv.execCskRsz {q r : BitVec 1} {sc : BitVec 3} (h : s.Inv) : Out.Inv (execCskRsz q r sc s) := by
  unfold Machine.execCskRsz
  extract_lets
  split
  · exact h.park
  refine h.csk fun _ _ h1 => ?_
  split
  · exact h1.rebuild.then_ fun _ _ h2 => h2.setDone
  split
  · exact h1.setDone
  extract_lets
  split
  · exact h1.park
  · exact h1.allMay.then_ fun _ _ h2 => h2.zeroHeader.then_ fun _ _ h3 => h3.putAll.then_ fun _ _ h4 => h4.setProg.rebuild.then_
      fun _ _ h5 => h5.setDone

/-! ### The push of an engine instruction (R109, R143, R144) -/

theorem State.Inv.pushEntry {r : Nat} {e : Entry} (h : s.Inv) : (s.pushEntry r e).Inv := h.poke.setRing.wake

theorem State.Inv.portDesc {p : Nat} {a : W64} (h : s.Inv) : (s.portDesc p a).Inv := by
  unfold State.portDesc
  split
  · exact h
  extract_lets
  split
  · exact h
  refine Res.Inv.then_ ?_ fun _ _ h1 => h1
  split
  · exact h.loadFrom
  · exact h.loadMiss

theorem State.Inv.planPush {e : BitVec 2} {a b : W64} {w1 w2 : W32} (h : s.Inv) : (s.planPush e a b w1 w2).Inv := by
  unfold State.planPush
  extract_lets
  split
  · split
    · exact h
    · split
      · exact h
      · refine h.portDesc.then_ fun _ _ h1 => ?_
        split <;> exact h1
    · exact h
  split
  · split <;> exact h
  · split <;> exact h

theorem State.Inv.commitPush {p : Plan} {next : W64} (h : s.Inv) : (s.commitPush p next).Inv := by
  unfold State.commitPush
  extract_lets _ s1 s2
  have h1 : s1.Inv := h.setMe
  have h2 : s2.Inv := h1.pushEntry
  refine State.Inv.finishAt ?_
  split
  · exact h2.pushEntry
  · exact h2

theorem State.Inv.enterPush {p : Plan} {next : W64} (h : s.Inv) : (s.enterPush p next).Inv := by
  unfold State.enterPush
  split
  · split
    · exact h.stopCore
    · exact h.setMe
  · exact h.commitPush

theorem State.Inv.retryPush {p : Plan} {next : W64} (h : s.Inv) : (s.retryPush p next).Inv := h.enterPush

theorem State.Inv.execEnqueuePrefix {e : BitVec 2} {w k : BitVec 6} {t : BitVec 1} {a b : BitVec 5} {w1 w2 : W32} (h : s.Inv) :
    Out.Inv (execEnqueuePrefix e w k t a b w1 w2 s) := by
  unfold Machine.execEnqueuePrefix
  show State.Inv _
  split
  · exact h.trap
  refine h.planPush.run fun _ _ h1 => ?_
  split
  · exact h1.trap
  split
  · exact h1.trap
  extract_lets
  split
  · exact h1.trap
  · exact h1.enterPush

/-! ### Fetching, the turns of a core, and the passing of time (R99 to R101) -/

theorem State.Inv.fetchHome {a : W64} {pg : Page} (h : s.Inv) : (s.fetchHome a pg).Inv := by
  unfold State.fetchHome
  extract_lets
  split
  · exact h
  split
  · exact h.refuseSent.trap
  split
  · exact (h.fabric.quad ‹_›).trap
  have h1 := h.fabric.quad ‹_›
  split
  · split
    · exact h1.refuse.trap
    · exact h1.trap
  extract_lets _ s1
  have h2 : s1.Inv := by
    unfold s1
    refine State.Inv.dieCache ?_
    split
    · exact h1
    · exact h1.correct
  exact h2.setMe

theorem State.Inv.fetchWord {a : W64} (h : s.Inv) : (s.fetchWord a).Inv := by
  unfold State.fetchWord
  split
  · exact (h.translate.fault ‹_›).stall
  · exact (h.translate.refused ‹_›).trap
  have h1 := h.translate.ok ‹_›
  split
  · exact h1.fetchHome
  split
  · exact (h1.takeUpset.pair ‹_›).record.fetchHome
  split
  · exact h1
  split
  have h2 := h1.pickBool.pair ‹_›
  split
  · exact h2
  · exact h2.fetchHome

theorem State.Inv.fetchInstr (h : s.Inv) : s.fetchInstr.Inv := by
  unfold State.fetchInstr
  split
  · exact h.fetchWord.stop ‹_›
  have h1 := h.fetchWord.ok ‹_›
  split
  · split
    · exact h1.fetchWord.stop ‹_›
    have h2 := h1.fetchWord.ok ‹_›
    split
    · split
      · exact h2.fetchWord.stop ‹_›
      · exact h2.fetchWord.ok ‹_›
    · exact h2
  · exact h1

theorem State.Inv.waitTurn {w : Wait} (h : s.Inv) : (s.waitTurn w).Inv := by
  unfold State.waitTurn
  split <;> exact h

theorem State.Inv.coreTurn (h : s.Inv) : s.coreTurn.Inv := by
  unfold State.coreTurn
  split
  · exact h
  split
  · exact h.retryPush
  split
  · exact h.waitTurn
  split
  · exact h.setMe.copyFailed.trap
  split
  · exact h.fetchInstr.stop ‹_›
  have h1 := h.fetchInstr.ok ‹_›
  split
  · exact h1
  · exact h1.trap

theorem State.Inv.tick (h : s.Inv) : s.tick.Inv := by
  unfold State.tick
  split <;> exact h

/-! ### Loads and stores (R127, R128) -/

theorem State.Inv.loadForm {n : Nat} {conv : Nat → W64} {d a : BitVec 5} {g : BitVec 3} {i : BitVec 12} (h : s.Inv) :
    Out.Inv (loadForm n conv d a g i s) :=
  h.guarded fun _ h1 => .ite h1.trap (h1.load.run (fun _ _ h2 => h2.setReg.finish))

theorem State.Inv.postStore {va : W64} {pg : Page} {bs : List Byte} {rel : Option Nat} {stamps : List Stamp} (h : s.Inv) :
    (s.postStore va pg bs rel stamps).Inv :=
  h.nextSeq.nextIndex.putPkg.later

theorem State.Inv.storeOut {va : W64} {bs : List Byte} {rel : Option Nat} (h : s.Inv) : (s.storeOut va bs rel).Inv := by
  unfold State.storeOut
  split
  · exact h.dataPage.stop ‹_›
  have h1 := h.dataPage.ok ‹_›
  extract_lets _ _ _ _ _ s2 s3
  have h2 : s2.Inv := .ite h1.setMe h1
  have h3 : s3.Inv := .ite h2.takeFate h2
  refine .ite h1.setMe ?_
  split
  · split
    · exact h3.refuse.copyFailed.trap
    · exact h3.postStore.setMe
  split
  · exact (h2.storeAt.ofAcc.stop ‹_›).setMe
  have h4 := h2.storeAt.ofAcc.ok ‹_›
  exact .setMe (.addStamps (.ite h4.nextIndex h4))

theorem State.Inv.storeForm {n : Nat} {d a : BitVec 5} {g : BitVec 3} {i : BitVec 12} (h : s.Inv) : Out.Inv (storeForm n d a g i s) :=
  h.guarded fun _ h1 => .ite h1.trap (h1.storeOut.run (fun _ _ h2 => h2.finish))

theorem State.Inv.loadHome {va : W64} {n scope : Nat} (h : s.Inv) : (s.loadHome va n scope).Inv := by
  unfold State.loadHome
  split
  · exact h.dataPage.stop ‹_›
  have h1 := h.dataPage.ok ‹_›
  split
  · exact h1
  split
  · exact (h1.acquireAt.loadAt.ofAcc.ok ‹_›).setMe.noteRead
  · exact (h1.acquireAt.loadAt.ofAcc.stop ‹_›).putCore

theorem State.Inv.ldAcq {n : Nat} {d a : BitVec 5} {g sc : BitVec 3} (h : s.Inv) : Out.Inv (ldAcq n d a g sc s) :=
  h.guarded fun _ h1 => .ite h1.trap (h1.loadHome.run (fun _ _ h2 => h2.setReg.finish))

theorem State.Inv.stRel {n : Nat} {a b : BitVec 5} {g sc : BitVec 3} (h : s.Inv) : Out.Inv (stRel n a b g sc s) :=
  h.guarded fun _ h1 => .ite h1.trap (h1.storeOut.run (fun _ _ h2 => (State.Inv.ite h2.countRelease h2).finish))

theorem State.Inv.readLines {ck : Nat} {pg : Page} {l : List (Nat × Nat)} (h : s.Inv) : (s.readLines ck pg l).2.Inv := by
  induction l generalizing s with
  | nil => exact h
  | cons a l ih =>
    rw [State.readLines]
    split
    · have h1 := h.loadAt.ok ‹_›
      split
      · exact (ih h1).pair ‹_›
      · exact ih h1
    · exact h.loadAt.err ‹_›
    · exact h.loadAt.poison ‹_›
    · exact h.loadAt.race ‹_›

theorem State.Inv.performRld {ck : Nat} {pg : Page} {va len : Nat} (h : s.Inv) : (s.performRld ck pg va len).2.Inv := by
  unfold State.performRld
  split
  · exact (h.readLines.pair ‹_›).putCore.noteRead
  · exact h.readLines

theorem State.Inv.execRld {d : BitVec 2} {a b : BitVec 5} {g : BitVec 3} (h : s.Inv) : Out.Inv (execRld d a b g s) := by
  unfold Machine.execRld
  refine h.guarded fun _ h1 => ?_
  extract_lets
  split
  · exact h1.trap
  split
  · exact h1.dataPage.stop ‹_›
  have h2 := h1.dataPage.ok ‹_›
  split
  · exact h2.stall
  split
  · exact h2.stall
  split
  · exact h2.trap
  extract_lets
  split
  · split
    · split
      · exact h2.stopCore
      · exact h2
    · exact h2.trap
  split
  · split
    · exact (h2.performRld.pair ‹_›).trap
    · exact (h2.performRld.pair ‹_›).setMe.later.finish
  · exact h2.setMe.later.finish

theorem State.Inv.execLoadQueueFill {node core q idx : Nat} (h : s.Inv) : Out.Inv (execLoadQueueFill node core q idx s) := by
  unfold Machine.execLoadQueueFill
  show State.Inv _
  split
  · split
    · exact h.refuseLost.putCore.wake.wake.wake.wake
    · exact h.performRld.putCore.wake.wake.wake.wake
  · exact h.putCore.wake.wake.wake.wake
  · exact h

theorem State.Inv.execPop {p : BitVec 3} {q : BitVec 7} {t d : BitVec 5} (h : s.Inv) : Out.Inv (execPop p q t d s) := by
  unfold Machine.execPop
  extract_lets _ _ claim
  show State.Inv _
  clear_value claim
  split
  · exact h.trap
  extract_lets s1
  have h1 : s1.Inv := h.setMe.beginWait
  split
  · exact h1.setMe.endWait.trap
  · exact h1.timedWait (fun _ h2 => h2.setMe.setReg) fun _ h2 => h2
  · exact h1.timedWait (fun _ h2 => h2) fun _ h2 => h2

theorem State.Inv.amo {f : W64 → W64 → W64} {d a b : BitVec 5} {g : BitVec 3} (h : s.Inv) : Out.Inv (amo f d a b g s) := by
  unfold Machine.amo
  refine h.guarded fun _ h1 => ?_
  extract_lets
  split
  · exact h1.trap
  split
  · exact h1.dataPage.stop ‹_›
  have h2 := h1.dataPage.ok ‹_›
  split
  · exact (h2.atomicAt.ofAcc.stop ‹_›).setMe
  · exact (h2.atomicAt.ofAcc.ok ‹_›).addStamps.setMe.setReg.finish

theorem State.Inv.fenceHalves {sc lo hi : Nat} (h : s.Inv) : (s.fenceHalves sc lo hi).Inv := by
  unfold State.fenceHalves
  split
  · exact h.fenceAcquire.fenceRelease
  · exact h

theorem State.Inv.execFence {g sc : BitVec 3} (h : s.Inv) : Out.Inv (execFence g sc s) :=
  h.guarded fun _ h1 => .ite h1 h1.setMe.fenceHalves.finish

theorem State.Inv.execFenceR {a b : BitVec 5} {g sc : BitVec 3} (h : s.Inv) : Out.Inv (execFenceR a b g sc s) :=
  h.guarded fun _ h1 => .ite h1.finish (.ite h1 h1.setMe.fenceHalves.finish)

/-! ### Synchronisation; a tagged request fills or empties one word's tag (R237) -/

theorem State.Inv.execSigTk {k : BitVec 7} (h : s.Inv) : Out.Inv (execSigTk k s) := by
  unfold Machine.execSigTk
  show State.Inv _
  split
  · exact h
  · exact h.raiseToken.finish

theorem State.Inv.tokenWait {p : BitVec 3} {k : Nat} {t : BitVec 5} (h : s.Inv) : (s.tokenWait p k t).Inv := by
  unfold State.tokenWait
  exact h.timedWait (fun _ h1 => h1.setMe.wakeClaims) fun _ h1 => h1.setMe.wakeClaims

theorem State.Inv.execWaitTk {p : BitVec 3} {k : BitVec 7} {t : BitVec 5} (h : s.Inv) : Out.Inv (execWaitTk p k t s) := by
  unfold Machine.execWaitTk
  show State.Inv _
  split
  · exact h.tokenWait
  extract_lets
  split
  · exact h.setPred.finish
  · exact h.setMe.beginWait.tokenWait

theorem State.Inv.taggedTurn {p : BitVec 3} {va : W64} {t : BitVec 5} {done : W64 → State → State} (h : s.Inv)
    (hdone : ∀ v s, s.Inv → (done v s).Inv) : (s.taggedTurn p va t done).Inv := by
  have he : s.endWait.Inv := h.endWait
  unfold State.taggedTurn
  generalize s.me.wait.bind (·.reply) = r
  cases r with
  | none => exact .ite h.wake h
  | some r =>
    cases r with
    | waiting => exact .ite h.wake h
    | done v => exact (hdone _ _ h).endWait.setPred.finish
    | refused c => exact he.trap
    | withdrawn => exact .ite he.setPred.finish (.ite he.stopCore he)

theorem State.Inv.tagged {i : Instr} {fill : Bool} {p : BitVec 3} {a t : BitVec 5} {value : State → W64} {done : W64 → State → State}
    (hdone : ∀ v s, s.Inv → (done v s).Inv) (h : s.Inv) : Out.Inv (tagged i fill p a t value done s) := by
  unfold Machine.tagged
  show State.Inv _
  split
  · exact h.taggedTurn hdone
  split
  · exact h.trap
  split
  · exact h.accessPage.stop ‹_›
  have h1 := h.accessPage.ok ‹_›
  split
  · split
    · exact h1.refuseRemote.trap
    extract_lets s2
    have h2 : s2.Inv := h1.beginWait
    refine .ite (.ite h2.endWait.stopCore h2) ?_
    split
    have h3 := h2.takeUpset.pair ‹_›
    extract_lets _ cause
    clear_value cause
    split
    · exact h3.refuseSent.endWait.trap
    split
    have h4 := h3.fabric.quad ‹_›
    extract_lets _ _ s5 s6
    have h5 : s5.Inv := by
      unfold s5
      split
      · exact h4.setMe
      · exact h4
    have h6 : s6.Inv := .ite (.tagServe h5) h5
    exact .ite (h6.taggedTurn hdone) h6.dropTagged.endWait.trap
  · exact h1.trap

theorem State.Inv.execLdwfW64 {p : BitVec 3} {a t d : BitVec 5} (h : s.Inv) : Out.Inv (execLdwfW64 p a t d s) :=
  h.tagged fun _ _ h1 => h1.setMe.setReg

theorem State.Inv.execStweW64 {p : BitVec 3} {a t d : BitVec 5} (h : s.Inv) : Out.Inv (execStweW64 p a t d s) := h.tagged fun _ _ h1 => h1

theorem State.Inv.execTaggedRequestAtHome {node core : Nat} (h : s.Inv) : Out.Inv (execTaggedRequestAtHome node core s) := by
  unfold Machine.execTaggedRequestAtHome
  show State.Inv _
  split
  · exact h.tagServe
  · exact h

theorem State.Inv.execTaggedWaitWithdrawal {node core : Nat} (h : s.Inv) : Out.Inv (execTaggedWaitWithdrawal node core s) := by
  unfold Machine.execTaggedWaitWithdrawal
  show State.Inv _
  split
  · exact h.answerTagged
  · exact h

theorem State.Inv.execJoin {k : BitVec 7} (h : s.Inv) : Out.Inv (execJoin k s) := by
  unfold Machine.execJoin
  show State.Inv _
  split
  · exact h.wordTrap
  · exact h.putSlice.finish

theorem State.Inv.execLeave {k : BitVec 7} (h : s.Inv) : Out.Inv (execLeave k s) := by
  unfold Machine.execLeave
  show State.Inv _
  split
  · exact h.wordTrap
  · exact h.putSlice.finish

theorem State.Inv.execBarArrive {k : BitVec 7} (h : s.Inv) : Out.Inv (execBarArrive k s) := by
  unfold Machine.execBarArrive
  show State.Inv _
  split
  · exact h.wordTrap
  extract_lets _ _ _ s1 s2
  have h1 : s1.Inv := h.countRelease
  have h2 : s2.Inv := h1.setMe
  split
  · exact h
  split
  · exact h.trap
  split
  · exact h.trap
  · exact h2.putSlice.finish

theorem State.Inv.execBarWait {p : BitVec 3} {k : BitVec 7} {t : BitVec 5} (h : s.Inv) : Out.Inv (execBarWait p k t s) := by
  unfold Machine.execBarWait
  show State.Inv _
  split
  · exact h.wordTrap
  extract_lets
  split
  · exact h.beginWait.timedWait (fun _ h1 => h1.setMe.foldl fun _ _ h2 => h2.mergeFrom) fun _ h1 => h1
  · exact h.beginWait.timedWait (fun _ h1 => h1.setMe) fun _ h1 => h1

theorem State.Inv.execTimedWaitTimeout {node core : Nat} (h : s.Inv) : Out.Inv (execTimedWaitTimeout node core s) := by
  unfold Machine.execTimedWaitTimeout
  extract_lets _ t late
  have h1 : t.Inv := h
  have h2 : ∀ v t, Out.Inv t → (late v t).Inv := by
    intro _ _ h2
    unfold late
    split
    · split
      · exact h2
      · exact h
    · exact h
  show State.Inv _
  split
  · exact h
  split
  · exact h2 _ _ h1.execWaitTk
  · exact h2 _ _ h1.execBarWait
  · exact h2 _ _ h1.execLdwfW64
  · exact h2 _ _ h1.execStweW64
  · exact h2 _ _ h1.execPop
  · exact h

theorem State.Inv.execRouterAtomic {node core fn : Nat} {addr operand cmp : W64} (h : s.Inv) :
    Out.Inv (execRouterAtomic node core fn addr operand cmp s) := by
  unfold Machine.execRouterAtomic
  show State.Inv _
  split
  · split
    · exact h.atomicAt.ok ‹_›
    · exact h.atomicAt.err ‹_›
    · exact h.atomicAt.poison ‹_›
    · exact h.atomicAt.race ‹_›
  · exact h

theorem State.Inv.putSat {node func e : Nat} {ws : List W64} (h : s.Inv) : (s.putSat node func e ws).Inv := by
  unfold State.putSat
  extract_lets _ s1
  have h1 : s1.Inv := .ite h h.putPkg
  exact h1.setBytes

theorem State.Inv.pickOffset {sws : List Nat} {n : Nat} (h : s.Inv) : (s.pickOffset sws n).2.Inv := by
  unfold State.pickOffset
  extract_lets
  split
  · exact h
  · exact h.pickNat

theorem State.Inv.charge {node func sw : Nat} {f : Nat → Nat} (h : s.Inv) : (s.charge node func sw f).Inv := h.setWord

theorem State.Inv.switchOp {node sw : Nat} (h : s.Inv) : (s.switchOp node sw).2.Inv := by
  unfold State.switchOp
  extract_lets
  split
  · exact h
  split
  · exact h.record
  split
  · exact h.record
  split
  split
  extract_lets s1
  have h1 : s1.Inv := by
    unfold s1
    have h2 := h.nextSeq.pair ‹_›
    have h3 := h2.sendTries.pair ‹_›
    split
    · exact h3.cacheReply
    · exact h3
  dsimp only
  split
  · exact h1
  · exact h1.declareDead

theorem State.Inv.askSwitches {node : Nat} {l : List Nat} (h : s.Inv) : (s.askSwitches node l).2.Inv := by
  induction l generalizing s with
  | nil => exact h
  | cons a l ih =>
    rw [State.askSwitches]
    split
    have h1 := h.switchOp.pair ‹_›
    split
    · exact ih h1
    · exact h1

theorem State.Inv.takeSpace {holder x : Nat × Nat × Nat} (h : s.Inv) : (s.takeSpace holder x).Inv := ⟨Memory.wf_zero h.1 _ _, h.2⟩

theorem State.Inv.allocate {node func : Nat} {x : SatEntry} (h : s.Inv) : (s.allocate node func x).2.Inv := by
  unfold State.allocate
  extract_lets len free
  split
  next s1 _ =>
  have h1 : s1.Inv := h.askSwitches.pair ‹_›
  split
  · exact h1
  split
  next s2 _ =>
  have h2 : s2.Inv := h1.pickOffset.pair ‹_›
  split
  next s3 _ =>
  have h3 : s3.Inv := (State.Inv.ite_pair h2.pickOffset h2).pair ‹_›
  split
  · exact h1
  · exact h1
  · exact h1
  split
  exact (h3.pickNat.pair ‹_›).putSat.foldl fun _ _ h => h.charge.takeSpace

theorem State.Inv.execSwalloc {d a b : BitVec 5} {g : BitVec 3} (h : s.Inv) : Out.Inv (execSwalloc d a b g s) := by
  unfold Machine.execSwalloc
  refine h.guarded fun _ h1 => ?_
  extract_lets
  split
  · exact h1.trap
  split
  · exact h1.setReg.finish
  split
  · exact h1
  · exact h1.allocate.setReg.finish

theorem State.Inv.answerWaiters {sw lo hi state : Nat} (h : s.Inv) : (s.answerWaiters sw lo hi state).Inv :=
  h.foldl fun _ _ h1 => h1.putSwitch.foldl fun _ _ h2 => h2.wake

theorem State.Inv.leaveSpace {holder x : Nat × Nat × Nat} (h : s.Inv) : (s.leaveSpace holder x).Inv := h.putSwitch

theorem State.Inv.askEach {node : Nat} {l : List (Nat × Nat × Nat)} (h : s.Inv) : (s.askEach node l).2.Inv := by
  induction l generalizing s with
  | nil => exact h
  | cons a l ih =>
    rw [State.askEach]
    exact ih h.switchOp

theorem State.Inv.freeEntry {node func e : Nat} (h : s.Inv) : (s.freeEntry node func e).Inv := by
  unfold State.freeEntry
  extract_lets
  split
  extract_lets _ _ s1 s2 s3 s4
  have h1 : s1.Inv := (h.askEach.pair ‹_›).putSat
  have h2 : s2.Inv := .ite h1.setBytes h1
  have h3 : s3.Inv := .ite h2.answerWaiters h2
  have h4 : s4.Inv := .ite h3 (h3.foldl (fun _ _ h5 => h5.charge))
  exact h4.foldl fun _ _ h6 => h6.leaveSpace

theorem State.Inv.barredTrap {sw : Nat} {va : W64} (h : s.Inv) : (s.barredTrap sw va).Inv := h.record.trap

theorem State.Inv.execSwfree {d a : BitVec 5} {g : BitVec 3} (h : s.Inv) : Out.Inv (execSwfree d a g s) := by
  unfold Machine.execSwfree
  refine h.guarded fun _ h1 => ?_
  extract_lets
  split
  · exact h1.setReg.finish
  refine .ite h1 ?_
  split
  · exact h1.switchOp.trap
  split
  · exact h1.barredTrap
  split
  · exact h1
  · exact h1.freeEntry.setReg.finish

theorem State.Inv.execSwquota {d a : BitVec 5} {g : BitVec 3} (h : s.Inv) : Out.Inv (execSwquota d a g s) := by
  unfold Machine.execSwquota
  refine h.guarded fun _ h1 => ?_
  extract_lets
  split
  · exact h1.setReg.setReg.finish
  split
  · split <;> exact h1.setReg.setReg.finish
  · exact h1.trap

/-! ### System instructions -/

theorem State.Inv.setShape {n : BitVec 3} {v : W64} (h : s.Inv) : (s.setShape n v).Inv := h.setMe

theorem State.Inv.execSetshapeV {d a b : BitVec 5} {g n : BitVec 3} (h : s.Inv) : Out.Inv (execSetshapeV d a b g n s) :=
  h.guarded fun _ h1 => .ite h1.trap (.ite h1.trap h1.setShape.setReg.finish)

theorem State.Inv.execSetshapeM {d a b : BitVec 5} {g n : BitVec 3} (h : s.Inv) : Out.Inv (execSetshapeM d a b g n s) :=
  h.guarded fun _ h1 => .ite h1.trap (.ite h1.trap (.ite h1.trap (.ite h1.trap h1.setShape.setReg.finish)))

theorem State.Inv.execAsnap {d a b : BitVec 5} {g n : BitVec 3} (h : s.Inv) : Out.Inv (execAsnap d a b g n s) :=
  h.guarded fun _ h1 => h1.setReg.setReg.finish

theorem State.Inv.tileBit {b : Bool} {since : Nat} (h : s.Inv) : (s.tileBit b since).2.Inv := by
  unfold State.tileBit
  split
  · exact h.pickBool
  · exact h

theorem State.Inv.execTstat {d : BitVec 5} {g n : BitVec 3} (h : s.Inv) : Out.Inv (execTstat d g n s) :=
  h.guarded fun _ h1 => h1.tileBit.tileBit.tileBit.setReg.finish

theorem State.Inv.unpark {ck unit : Nat} (h : s.Inv) : (s.unpark ck unit).Inv := by
  unfold State.unpark
  split <;> exact h.putCore.wake

theorem State.Inv.dropFault {ck : Nat} {p : Park} (h : s.Inv) : (s.dropFault ck p).Inv := by
  unfold State.dropFault
  split
  · exact h.putPkg
  split
  · exact h.putSlice.refillFaults
  · exact h

theorem State.Inv.resumeUnit {ck unit : Nat} {asHandle : Bool} (h : s.Inv) : (s.resumeUnit ck unit asHandle).2.Inv := by
  unfold State.resumeUnit
  split
  · split
    · exact h
    · exact h.dropFault.unpark
  · exact h

theorem State.Inv.execResume {d a : BitVec 5} {g : BitVec 3} (h : s.Inv) : Out.Inv (execResume d a g s) := by
  refine h.guarded fun s h => ?_
  extract_lets
  split
  · exact h.wordTrap
  split
  next t e =>
  have ht : t.Inv := by
    split at e
    · cases e; exact h
    split at e
    · exact h.resumeUnit.pair e
    · cases e; exact h
  exact ht.setReg.finish

theorem State.Inv.resetMask {ck m : Nat} (h : s.Inv) : (s.resetMask ck m).Inv := h.foldl fun _ _ h1 => .ite h1.resetRing h1

theorem State.Inv.execQreset {d a : BitVec 5} {g : BitVec 3} (h : s.Inv) : Out.Inv (execQreset d a g s) := by
  unfold Machine.execQreset
  refine h.guarded fun _ h1 => ?_
  extract_lets
  split
  · split
    · exact h1.wordTrap
    · exact h1.resetMask.setReg.finish
  split
  · exact h1.resetMask.setReg.finish
  · exact h1.setReg.finish

theorem State.Inv.dropTlb {sk : Nat} {f : TlbEntry → Bool} (h : s.Inv) : (s.dropTlb sk f).Inv := .putPkg h

theorem State.Inv.tinv1 {i : Instr} {f : State → TlbEntry → Bool} {g : BitVec 3} (h : s.Inv) : Out.Inv (tinv1 i f g s) :=
  h.guarded fun _ h1 => .ite h1.wordTrap (.ite h1 (h1.foldl (fun _ _ h2 => h2.dropTlb)).finish)

theorem State.Inv.tinv2 {i : Instr} {f : State → TlbEntry → Bool} {sl : BitVec 5} {g : BitVec 3} (h : s.Inv) :
    Out.Inv (tinv2 i f sl g s) :=
  h.guarded fun _ h1 => .ite h1.wordTrap (.ite h1.finish (.ite h1 h1.dropTlb.finish))

theorem State.Inv.injected {addr kind : Nat} (h : s.Inv) : (s.injected addr kind).Inv := h.record

theorem State.Inv.execEinj {a b : BitVec 5} {g : BitVec 3} (h : s.Inv) : Out.Inv (execEinj a b g s) := by
  unfold Machine.execEinj
  refine h.guarded fun _ h1 => ?_
  extract_lets _ _ no
  have h2 : no.Inv := h1.trap
  split
  · exact h2
  split
  · split
    · exact h2
    split
    · exact h1
    · exact .finish (.injected (.setMe h1))
  · split
    · exact h2
    · exact .finish (.injected h1)
  · split
    · exact h2
    · exact .finish (.injected h1)
  · split
    · exact h2
    split
    · exact h1.dataPage.stop ‹_›
    split
    · exact h2
    have h3 := h1.dataPage.ok ‹_›
    split
    · exact h3.refuse.trap
    split
    · exact .finish (.injected h3)
    · exact h2
  · exact h2

/-! ### Slices; the wipe of an address range, of memory and tags alike (R43, R328 to R334) -/

theorem State.Inv.setStatus {node n status : Nat} {v : W64} (h : s.Inv) : (s.setStatus node n status v).Inv := h.setPcsr
theorem State.Inv.wipe {lo hi : Nat} (h : s.Inv) : (s.wipe lo hi).Inv := ⟨Memory.wf_zero h.1 lo hi, NSet.sorted_cut h.2 _ _⟩

theorem State.Inv.wipeCores {node : Nat} {cores : List Nat} {keep : optParam (Core → Core) Core.blank} (h : s.Inv) :
    (s.wipeCores node cores keep).Inv :=
  h.foldl fun _ _ h1 => h1.wipe.putCore

theorem State.Inv.wipeChans {node mask : Nat} (h : s.Inv) : (s.wipeChans node mask).Inv := h.foldl fun _ _ h1 => h1.wipe

theorem State.Inv.targetNotReady {node : Nat} (h : s.Inv) : (s.targetNotReady node).Inv := h.record

theorem State.Inv.slbindWrite {node : Nat} {v : W64} (h : s.Inv) : (s.slbindWrite node v).Inv := by
  unfold State.slbindWrite
  extract_lets _ _ s1 _ s2 _ _ s3 _ s4
  have h1 : s1.Inv := h.setPcsr
  have h2 : s2.Inv := h1.wipeCores.wipeChans
  have h3 : s3.Inv := .ite h2 h2.putPkg
  have h4 : s4.Inv := h3.setWord
  split
  · split
    · exact h1.targetNotReady
    · exact h1
  · exact h4.putSlice

theorem State.Inv.execFuncStore {node xs func : Nat} (h : s.Inv) : Out.Inv (execFuncStore node xs func s) := by
  unfold Machine.execFuncStore
  show State.Inv _
  split
  · exact h.controlPut
  · exact h

theorem State.Inv.fnfreeWrite {node : Nat} {v : W64} (h : s.Inv) : (s.fnfreeWrite node v).Inv := by
  unfold State.fnfreeWrite
  extract_lets _ _ _ s1
  have h1 : s1.Inv := h.foldl fun _ _ h1 => h1.freeEntry
  split
  · exact h.setStatus
  split
  · exact h.setStatus
  split
  · exact h.setStatus
  · exact (h1.foldl (fun _ _ h2 => h2.setWord)).setStatus

theorem State.Inv.execFnfree {node : Nat} {v : W64} (h : s.Inv) : Out.Inv (execFnfree node v s) := by
  unfold Machine.execFnfree
  show State.Inv _
  split
  · exact h.wake
  · exact h.fnfreeWrite

theorem State.Inv.tell {sk ep seq kind status : Nat} {tag detail : W64} (h : s.Inv) : (s.tell sk ep seq kind status tag detail).Inv := by
  unfold State.tell
  split
  · exact h
  · exact h.complete

theorem State.Inv.endWork {sk cause : Nat} (h : s.Inv) : (s.endWork sk cause).Inv := by
  unfold State.endWork
  extract_lets _ _ _ s1 s2
  have h1 : s1.Inv := h.foldl fun _ _ h1 => h1.tell
  have h2 : s2.Inv := by
    unfold s2
    refine h1.foldl fun _ _ h2 => ?_
    extract_lets s3
    have h3 : s3.Inv := .ite h2 h2.record
    split
    · exact h3.tell
    · exact h3
  exact h2.foldl fun _ _ h3 => .ite h3 h3.tell

theorem State.Inv.refuseWaiters {sk : Nat} (h : s.Inv) : (s.refuseWaiters sk).Inv :=
  h.foldl fun _ _ h1 => .ite h1 (.ite h1 h1.refuse.answerTagged)

theorem State.Inv.dropHandlers {sk : Nat} (h : s.Inv) : (s.dropHandlers sk).Inv :=
  h.foldl fun _ _ h1 => .ite h1.resetRings.dropTagged.putCore h1

theorem State.Inv.slfreeBegin {node n : Nat} (h : s.Inv) : (s.slfreeBegin node n).Inv := by
  unfold State.slfreeBegin
  extract_lets _ _ _ _ s1 s2 _ _ _ _ s3 s4
  have h1 : s1.Inv := h.foldl fun _ _ h1 => (State.Inv.ite h1.record h1).resetRings.dropTagged.putCore
  have h2 : s2.Inv := h1.dropHandlers.endWork.refuseWaiters
  have h3 : s3.Inv := h2.putPkg
  have h4 : s4.Inv := .ite h3.setPcsr h3
  exact h4.putSlice

theorem State.Inv.slfreeEnd {node n : Nat} (h : s.Inv) : (s.slfreeEnd node n).Inv := by
  unfold State.slfreeEnd
  extract_lets _ _ _ _ s1 s2 s3 s4 _ s5 s6
  have h1 : s1.Inv := h.dropTlb.wipeCores
  have h2 : s2.Inv := h1.wipeChans
  have h3 : s3.Inv := .ite h2 (h2.foldl (fun _ _ h3 => h3.putSat)).setBytes
  have h4 : s4.Inv := h3.setBytes
  have h5 : s5.Inv := h4.putPkg
  have h6 : s6.Inv := h5
  split
  · exact h6
  · exact h6.kvPeerLost

theorem State.Inv.slfreeStart {node : Nat} {v : W64} (h : s.Inv) : (s.slfreeStart node v).Inv := by
  unfold State.slfreeStart
  extract_lets
  split
  · exact h
  · exact h.slfreeBegin

theorem State.Inv.slfreeWrite {node : Nat} {v : W64} (h : s.Inv) : (s.slfreeWrite node v).Inv := by
  unfold State.slfreeWrite
  extract_lets
  split
  · exact h.setStatus
  · exact h.slfreeStart.slfreeEnd.setStatus

theorem State.Inv.slfreeTurn {node : Nat} {v : W64} (h : s.Inv) : (s.slfreeTurn node v).Inv := by
  unfold State.slfreeTurn
  extract_lets s1
  have h1 : s1.Inv := h.slfreeStart
  split
  · exact h1.wake
  · exact h1.slfreeWrite

theorem State.Inv.setInbox {node func : Nat} {b : Inbox} (h : s.Inv) : (s.setInbox node func b).Inv := h.putPkg

theorem State.Inv.saveBytes {node a : Nat} {bs : List Byte} (h : s.Inv) : (s.saveBytes node a bs).2.Inv := by
  unfold State.saveBytes
  refine h.foldl_snd fun _ _ h1 => ?_
  split
  · exact h1
  extract_lets
  split
  · exact h1.storeAt.ok ‹_›
  · exact h1.storeAt.err ‹_›
  · exact h1.storeAt.poison ‹_›
  · exact h1.storeAt.race ‹_›

theorem State.Inv.saveWords {node a : Nat} {ws : List W64} (h : s.Inv) : (s.saveWords node a ws).2.Inv := h.saveBytes

theorem State.Inv.saveInbox {node base : Nat} {b : Inbox} (h : s.Inv) : (s.saveInbox node base b).2.Inv := by
  unfold State.saveInbox
  extract_lets
  split
  · exact (h.saveWords.pair ‹_›).saveBytes
  · exact h.saveWords

theorem State.Inv.detach {node : Nat} {v : W64} (h : s.Inv) : (s.detach node v).Inv := by
  unfold State.detach
  extract_lets
  split
  · exact .setStatus (.ite h.targetNotReady h)
  split
  next t e =>
  have ht : t.Inv := by
    split at e
    · exact h.saveInbox.pair e
    · cases e; exact h
  split
  · exact ht.record.setStatus
  · exact ht.putPkg.setStatus

theorem State.Inv.attachEp {node : Nat} {v : W64} (h : s.Inv) : (s.attachEp node v).Inv := by
  unfold State.attachEp
  extract_lets _ _ _ _ s1
  have h1 : s1.Inv := h.putPkg
  split
  · exact h.targetNotReady.setStatus
  split
  · exact h.targetNotReady.setStatus
  · exact h1.putSlice.setStatus

theorem State.Inv.epbindWrite {node : Nat} {v : W64} (h : s.Inv) : (s.epbindWrite node v).Inv := by
  unfold State.epbindWrite
  split
  · exact h.detach
  · exact h.attachEp
  · exact h.setStatus

theorem State.Inv.execEpbindDetach {node : Nat} {v : W64} (h : s.Inv) : Out.Inv (execEpbindDetach node v s) := by
  unfold Machine.execEpbindDetach
  show State.Inv _
  split
  · exact h.epbindWrite
  · exact h

theorem State.Inv.execEpbindAttach {node : Nat} {v : W64} (h : s.Inv) : Out.Inv (execEpbindAttach node v s) := by
  unfold Machine.execEpbindAttach
  show State.Inv _
  split
  · exact h.epbindWrite
  · exact h

theorem State.Inv.handleRead {node a n : Nat} (h : s.Inv) : (s.handleRead node a n).2.Inv := by
  unfold State.handleRead
  extract_lets
  split
  · exact h.loadAt.ok ‹_›
  · exact h.loadAt.err ‹_›
  · exact h.loadAt.poison ‹_›
  · exact h.loadAt.race ‹_›

theorem State.Inv.keyLoad {node slot : Nat} {key : Option (BitVec 512)} (h : s.Inv) : (s.keyLoad node slot key).2.Inv := by
  unfold State.keyLoad
  extract_lets _ refuse
  have h1 : refuse.2.Inv := h.record.setStatus
  split
  · exact h1
  split
  · exact h1
  · exact h.putPkg.setStatus

theorem State.Inv.keyctlWrite {node : Nat} {v : W64} (h : s.Inv) : (s.keyctlWrite node v).Inv := by
  unfold State.keyctlWrite
  extract_lets
  split
  · split
    · exact h.keyLoad
    · exact h.handleRead.keyLoad
  split
  · exact h.putPkg.setStatus
  · exact h.setStatus

theorem State.Inv.execKeyctlLoad {node : Nat} {v : W64} (h : s.Inv) : Out.Inv (execKeyctlLoad node v s) := by
  unfold Machine.execKeyctlLoad
  show State.Inv _
  split
  · exact h.keyctlWrite
  · exact h

theorem State.Inv.execKeyctlErase {node : Nat} {v : W64} (h : s.Inv) : Out.Inv (execKeyctlErase node v s) := by
  unfold Machine.execKeyctlErase
  show State.Inv _
  split
  · exact h.keyctlWrite
  · exact h

theorem State.Inv.extendMr {node : Nat} {r : Fin 16} {bs : List Byte} (h : s.Inv) : (s.extendMr node r bs).Inv := h.putPkg

theorem State.Inv.drawNonce {node : Nat} (h : s.Inv) : (s.drawNonce node).Inv := h.pickW64.setPcsr

theorem State.Inv.setFuse {node st : Nat} (h : s.Inv) : (s.setFuse node st).Inv := h.putPkg.setPcsr

theorem State.Inv.setLifecycle {node st : Nat} (h : s.Inv) : (s.setLifecycle node st).Inv := h.setFuse.record

theorem State.Inv.dbgctlWrite {node : Nat} {v : W64} (h : s.Inv) : (s.dbgctlWrite node v).Inv := by
  unfold State.dbgctlWrite
  extract_lets
  split
  split
  have h1 := h.handleRead.pair ‹_›
  have h2 := h1.handleRead.pair ‹_›
  split
  · split
    · exact h2.record.drawNonce.setStatus
    · exact h2.putPkg.setFuse.extendMr.putPkg.record.record.drawNonce.setStatus
  · exact h2.record.drawNonce.setStatus

theorem State.Inv.relbaseWrite {node : Nat} {v : W64} (h : s.Inv) : (s.relbaseWrite node v).Inv := h.setPcsr.setPcsr.setPcsr.setPcsr

theorem State.Inv.reltailWrite {node : Nat} {v : W64} (h : s.Inv) : (s.reltailWrite node v).Inv := by
  unfold State.reltailWrite
  extract_lets
  split
  · exact h
  · exact h.setPcsr

theorem State.Inv.relovfWrite {node : Nat} {v : W64} (h : s.Inv) : (s.relovfWrite node v).Inv := h.setPcsr

theorem State.Inv.relheadRead {ck : Nat} (h : s.Inv) : (s.relheadRead ck).2.Inv := h.putCore

theorem State.Inv.execRelhead {node core : Nat} {d : BitVec 5} (h : s.Inv) : Out.Inv (execRelhead node core d s) := by
  unfold Machine.execRelhead
  show State.Inv _
  split
  · exact h.relheadRead.putCore
  · exact h

theorem State.Inv.execAttest {d a b : BitVec 5} {g : BitVec 3} (h : s.Inv) : Out.Inv (execAttest d a b g s) := by
  unfold Machine.execAttest
  refine h.guarded fun _ h1 => ?_
  extract_lets
  split
  · exact h1.wordTrap
  split
  · exact h1.trap
  split
  · exact h1.setReg.finish
  split
  · exact h1.loadAt.ofAcc.stop ‹_›
  · exact (h1.loadAt.ofAcc.ok ‹_›).setMe.extendMr.record.setReg.finish

/-! ### What the Weaver reads (R10 to R22) -/

theorem State.Inv.asWeaver {sk : Nat} {f : State → α × State} (h : s.Inv) (hf : ∀ t, t.Inv → (f t).2.Inv) : (s.asWeaver sk f).2.Inv :=
  (hf _ h.putCore).of_same rfl rfl

theorem State.Inv.weaverOne {sk va : Nat} {k : Kind} {f : State → Page → Acc α} (h : s.Inv) (hf : ∀ t a, t.Inv → (f t a).Inv) :
    (s.weaverOne sk va k f).2.Inv := by
  unfold State.weaverOne
  split
  · exact h.translateIn.fault ‹_›
  · exact h.translateIn.refused ‹_›
  have h1 := h.translateIn.ok ‹_›
  split
  · exact (hf _ _ h1).ok ‹_›
  · exact (hf _ _ h1).err ‹_›
  · exact (hf _ _ h1).poison ‹_›
  · exact (hf _ _ h1).race ‹_›

theorem State.Inv.weaverReads {sk : Nat} {l : List (Nat × Nat)} (h : s.Inv) : (s.weaverReads sk l).2.Inv := by
  induction l generalizing s with
  | nil => exact h
  | cons a l ih =>
    rw [State.weaverReads]
    split
    · exact (h.weaverOne (fun _ _ h1 => h1.loadAt)).pair ‹_›
    · split <;> exact (ih ((h.weaverOne (fun _ _ h1 => h1.loadAt)).pair ‹_›)).pair ‹_›

theorem State.Inv.weaverWrites {sk : Nat} {l : List (Nat × Nat)} {l' : List Byte} (h : s.Inv) : (s.weaverWrites sk l l').2.Inv := by
  induction l generalizing s l' with
  | nil => exact h
  | cons a l ih =>
    rw [State.weaverWrites]
    split
    · exact (h.weaverOne (fun _ _ h1 => h1.storeAt)).pair ‹_›
    · exact ih ((h.weaverOne (fun _ _ h1 => h1.storeAt)).pair ‹_›)

theorem State.Inv.weaverLoad {sk va n : Nat} (h : s.Inv) : (s.weaverLoad sk va n).2.Inv := by
  unfold State.weaverLoad
  split
  · exact h
  · exact h.asWeaver fun _ h1 => h1.weaverReads

theorem State.Inv.weaverStore {sk va : Nat} {bs : List Byte} (h : s.Inv) : (s.weaverStore sk va bs).2.Inv := by
  unfold State.weaverStore
  split
  · exact h
  · exact h.asWeaver fun _ h1 => h1.weaverWrites

/-! ### Commands and the inbox -/

theorem State.Inv.endReqWith {sk id status : Nat} {detail : W64} (h : s.Inv) : (s.endReqWith sk id status detail).Inv := by
  unfold State.endReqWith
  extract_lets
  split
  · exact h
  · exact h.putSlice.tell

theorem State.Inv.endReq {sk id status : Nat} (h : s.Inv) : (s.endReq sk id status).Inv := by
  unfold State.endReq
  split
  · exact h
  · exact h.endReqWith

theorem State.Inv.endReqs {sk slot status : Nat} (h : s.Inv) : (s.endReqs sk slot status).Inv := h.foldl fun _ _ h1 => h1.endReq

theorem State.Inv.tryEmpty {sk slot : Nat} (h : s.Inv) : (s.tryEmpty sk slot).Inv := by
  unfold State.tryEmpty
  extract_lets
  split
  · exact h.putSlice
  · exact h

theorem State.Inv.enqueue {sk : Nat} {v : Invocation} (h : s.Inv) : (s.enqueue sk v).Inv := h.putSlice.wake

theorem State.Inv.invokeCmd {sk : Nat} {e : InboxEntry} (h : s.Inv) : (s.invokeCmd sk e).Inv := by
  unfold State.invokeCmd
  extract_lets
  split
  · exact h
  split
  · exact h
  split
  · exact h
  split
  · exact h
  split
  · exact h
  split
  · exact h
  · exact h.enqueue

theorem State.Inv.admitCmd {sk : Nat} {e : InboxEntry} (h : s.Inv) : (s.admitCmd sk e).Inv := by
  unfold State.admitCmd
  extract_lets
  split
  · exact h
  split
  · exact h
  split
  · exact h
  split
  · exact h
  · exact Done.Inv.ite h (State.Inv.ite h.putSlice.wake h.putSlice.wake)

theorem State.Inv.cancelCmd {sk : Nat} {e : InboxEntry} (h : s.Inv) : (s.cancelCmd sk e).Inv := by
  unfold State.cancelCmd
  extract_lets
  split
  · exact h
  split
  · exact h
  split
  · exact h.putSlice.wake
  · exact h.endReq

theorem State.Inv.slotLoadCmd {sk : Nat} {e : InboxEntry} (h : s.Inv) : (s.slotLoadCmd sk e).Inv := by
  unfold State.slotLoadCmd
  extract_lets
  split
  · exact h
  split
  · exact h.putSlice
  · split
    · exact h.putSlice
    · exact State.Inv.ite h.putSlice.askHandler h.putSlice
  · exact h

theorem State.Inv.slotUnloadCmd {sk : Nat} {e : InboxEntry} (h : s.Inv) : (s.slotUnloadCmd sk e).Inv := by
  unfold State.slotUnloadCmd
  extract_lets _ _ _ s1 _ s2
  have h1 : s1.Inv := h.putSlice
  have h2 : s2.Inv := by
    unfold s2
    split
    · exact h1
    split
    · exact h1.putSlice.wake
    · exact h1.putSlice.endReqs
  split
  · exact h
  split
  · exact h
  · exact h2.tryEmpty

theorem State.Inv.slotQueryCmd {sk : Nat} {e : InboxEntry} (h : s.Inv) : (s.slotQueryCmd sk e).Inv := by
  unfold State.slotQueryCmd
  split <;> exact h

theorem State.Inv.schedSetCmd {sk : Nat} {e : InboxEntry} (h : s.Inv) : (s.schedSetCmd sk e).Inv := by
  unfold State.schedSetCmd
  extract_lets
  split
  · exact h
  split
  · exact h
  split
  · split
    · exact h.wake
    · exact h.putSlice
  split
  · exact h
  · exact h.putSlice

theorem State.Inv.packRegisterCmd {sk : Nat} {e : InboxEntry} (h : s.Inv) : (s.packRegisterCmd sk e).Inv := by
  unfold State.packRegisterCmd
  split
  · exact h
  · exact h.putSlice

theorem State.Inv.packDropCmd {sk : Nat} {e : InboxEntry} (h : s.Inv) : (s.packDropCmd sk e).Inv := by
  unfold State.packDropCmd
  split
  · exact h
  · exact h.putSlice

theorem State.Inv.commitEntry {node func i : Nat} {e : InboxEntry} {status : Nat} {detail : W64} (h : s.Inv) :
    (s.commitEntry node func i e status detail).Inv :=
  h.complete.setInbox.putPkg

theorem State.Inv.hardwareCmd {sk : Nat} {e : InboxEntry} (h : s.Inv) : (s.hardwareCmd sk e).Inv := by
  unfold State.hardwareCmd
  split
  · exact h.invokeCmd
  split
  · exact h.admitCmd
  · exact h.cancelCmd

theorem State.Inv.inboxAnswer {node func : Nat} {e : InboxEntry} {d : Done} (h : s.Inv) (hd : s.inboxAnswer node func e = some d) :
    d.Inv := by
  unfold State.inboxAnswer at hd
  split at hd
  · exact Option.some.inj hd ▸ h
  split at hd
  · exact Option.some.inj hd ▸ h
  split at hd
  · obtain ⟨sk, -, rfl⟩ := Option.map_eq_some_iff.1 hd
    exact h.hardwareCmd
  · cases hd

theorem State.Inv.serve {node func n : Nat} (h : s.Inv) : (s.serve node func n).Inv := by
  induction n generalizing s with
  | zero => exact h
  | succ n ih =>
    rw [State.serve]
    split
    · exact h
    split
    · exact ih (h.inboxAnswer ‹_›).commitEntry
    · exact h

theorem State.Inv.runInbox {node func : Nat} (h : s.Inv) : (s.runInbox node func).Inv := by
  unfold State.runInbox
  split
  · exact h
  · exact h.setInbox.serve

theorem State.Inv.entryBytes {node func i : Nat} {e : InboxEntry} (h : s.Inv) : (s.entryBytes node func i e).Inv := h.setBytes

theorem State.Inv.arrive {node func : Nat} {e : InboxEntry} (h : s.Inv) : (s.arrive node func e).Inv := by
  unfold State.arrive
  extract_lets _ _ s1
  have h1 : s1.Inv := h.entryBytes
  split
  · split
    · exact h
    · exact h1.setInbox.runInbox
  split
  · split <;> exact h
  · exact h

theorem State.Inv.dropMessage {node func : Nat} (h : s.Inv) : (s.dropMessage node func).Inv := h.record

theorem State.Inv.execCommandMessage {node func ep host seq op len resv bytes : Nat} {tag : BitVec 64} {payload : List (BitVec 64)}
    (h : s.Inv) : Out.Inv (execCommandMessage node func ep host seq op len resv bytes tag payload s) := by
  unfold Machine.execCommandMessage
  show State.Inv _
  split
  · exact h
  split
  · exact h.arrive
  split
  · exact h.dropMessage
  split
  · exact h.dropMessage
  split
  · exact h
  · exact h.arrive

theorem State.Inv.fwCommand {node func idx op : Nat} {f : State → Nat → InboxEntry → Done} (h : s.Inv)
    (hf : ∀ s sk e, s.Inv → (f s sk e).Inv) : (s.fwCommand node func idx op f).Inv := by
  unfold State.fwCommand
  split
  · split
    · extract_lets d
      have hd : d.state.Inv := hf _ _ _ h
      split
      · exact hd
      · exact hd.commitEntry.runInbox
    · exact h
  · exact h

theorem State.Inv.takeEntry {node f : Nat} (h : s.Inv) : (s.takeEntry node f).2.Inv := by
  unfold State.takeEntry
  extract_lets
  split
  · split
    · exact h
    extract_lets s1 _ s2
    have h1 : s1.Inv := h.setInbox
    have h2 : s2.Inv := .ite h1 h1.putPkg
    exact h2
  · exact h

theorem State.Inv.execTakeIb {d a : BitVec 5} {g : BitVec 3} (h : s.Inv) : Out.Inv (execTakeIb d a g s) :=
  h.guarded fun _ h1 => .ite h1.wordTrap h1.takeEntry.setReg.finish

theorem State.Inv.commitHand {node f i : Nat} {v : W64} (h : s.Inv) : (s.commitHand node f i v).2.Inv := by
  unfold State.commitHand
  split
  · split
    · exact h
    · exact h.commitEntry.runInbox
  · exact h

theorem State.Inv.execCommitIb {d a b : BitVec 5} {g : BitVec 3} (h : s.Inv) : Out.Inv (execCommitIb d a b g s) :=
  h.guarded fun _ h1 => .ite h1.wordTrap h1.commitHand.setReg.finish

/-! ### Schedules and batches -/

theorem State.Inv.copyPages {sk list kvlist n nm : Nat} (h : s.Inv) : (s.copyPages sk list kvlist n nm).2.Inv := by
  induction nm generalizing s n with
  | zero => exact h
  | succ nm ih =>
    rw [State.copyPages]
    split
    · exact h.weaverLoad.pair ‹_›
    have h1 := h.weaverLoad.pair ‹_›
    split
    · exact h1.weaverLoad.pair ‹_›
    have h2 := h1.weaverLoad.pair ‹_›
    split
    · exact h2.weaverLoad.pair ‹_›
    have h3 := h2.weaverLoad.pair ‹_›
    split
    · exact h3.weaverStore.pair ‹_›
    · exact ih (h3.weaverStore.pair ‹_›)

theorem State.Inv.placePack {sk : Nat} {r : Request} (h : s.Inv) : (s.placePack sk r).2.Inv := by
  unfold State.placePack
  split
  · exact h
  split
  · split
    · exact h.weaverLoad.pair ‹_›
    · exact (h.weaverLoad.pair ‹_›).weaverStore
  · exact h.copyPages

theorem State.Inv.execPackPlacementDone {node slice req : Nat} (h : s.Inv) : Out.Inv (execPackPlacementDone node slice req s) := by
  unfold Machine.execPackPlacementDone
  show State.Inv _
  split
  · exact h
  split
  · exact h
  split
  · exact h.wake
  split
  · exact (h.placePack.pair ‹_›).endReqWith
  · exact (h.placePack.pair ‹_›).putSlice.wake

theorem State.Inv.applyEntry {sk table j id ntok : Nat} (h : s.Inv) : (s.applyEntry sk table j id ntok).Inv := by
  unfold State.applyEntry
  split
  · exact h
  split
  · exact (h.weaverLoad.pair ‹_›).endReqWith
  extract_lets
  split
  extract_lets s1
  have h1 : s1.Inv := (h.weaverLoad.pair ‹_›).putSlice
  split
  · exact h1.endReq
  · exact h1

theorem State.Inv.applyBatch {sk slot : Nat} {x : Sched} (h : s.Inv) : (s.applyBatch sk slot x).Inv := by
  unfold State.applyBatch
  split
  · exact h
  extract_lets _ s1
  have h1 : s1.Inv := h.putSlice
  refine h1.foldl fun _ _ h2 => ?_
  split
  · exact h2.endReqWith
  · exact h2.applyEntry

theorem State.Inv.startBatch {sk slot : Nat} {x : Sched} (h : s.Inv) : (s.startBatch sk slot x).Inv := by
  unfold State.startBatch
  extract_lets
  split
  · exact h
  split
  · exact ((h.weaverStore.pair ‹_›).foldl (fun _ _ h1 => h1.endReqWith)).wake
  · exact (h.weaverStore.pair ‹_›).putSlice.enqueue

theorem State.Inv.boundary {sk slot : Nat} (h : s.Inv) : (s.boundary sk slot).Inv := by
  unfold State.boundary
  split
  · exact h
  split
  · exact h
  split
  · exact h.wake
  extract_lets s1 s2 s3
  have h1 : s1.Inv := h.applyBatch
  have h2 : s2.Inv := h1.foldl fun _ _ h2 => h2.endReq
  have h3 : s3.Inv := h2.endReqs
  split
  · exact h3.putSlice.tryEmpty
  · exact h2.putSlice.startBatch

/-! ### Invocations and task graphs (R13 to R22, R330, R331) -/

theorem State.Inv.advance {sk : Nat} (h : s.Inv) : (s.advance sk).Inv := by
  unfold State.advance
  refine h.foldl fun _ _ h1 => ?_
  extract_lets _ _ s1
  have h2 : s1.Inv := h1.putSlice
  split
  · exact h2.wake
  · exact h2

theorem State.Inv.follow {sk : Nat} {v : Invocation} (h : s.Inv) : (s.follow sk v).Inv := h.putSlice.advance.wake

theorem State.Inv.execInvocationStart {node slice slot : Nat} (h : s.Inv) : Out.Inv (execInvocationStart node slice slot s) := by
  unfold Machine.execInvocationStart
  show State.Inv _
  split
  · exact h
  split
  · exact h
  · exact h.putSlice.follow

theorem State.Inv.afterInvocation {sk : Nat} {v : Invocation} (h : s.Inv) : (s.afterInvocation sk v).Inv := by
  unfold State.afterInvocation
  extract_lets _ _ s1 s2
  have h1 : s1.Inv := h.tryEmpty
  have h2 : s2.Inv := h1.foldl fun _ _ h2 => h2.wake
  split
  · exact h2.putSlice.wake
  split
  · exact h2.wake
  · exact h2

theorem State.Inv.execInvocationRetire {node slice slot : Nat} (h : s.Inv) : Out.Inv (execInvocationRetire node slice slot s) := by
  unfold Machine.execInvocationRetire
  extract_lets _ _ s1
  have h1 : s1.Inv := h.putSlice
  show State.Inv _
  split
  · exact h
  extract_lets _ _ s2
  have h2 : s2.Inv := by
    unfold s2
    split
    · split <;> exact h1.tell
    · exact h1
  split
  · exact h
  split
  · split
    · exact h.wake
    · exact h2.afterInvocation.wake
  split
  · exact h.wake
  · exact h2.afterInvocation.wake

theorem State.Inv.weaverRelease {sk va len : Nat} {l : List Stamp} (h : s.Inv) : (s.weaverRelease sk va len l).Inv := by
  unfold State.weaverRelease
  split
  · exact h
  split
  · exact h.addStamps
  · exact h

theorem State.Inv.execCopyNodeRetire {node slice slot n : Nat} (h : s.Inv) : Out.Inv (execCopyNodeRetire node slice slot n s) := by
  unfold Machine.execCopyNodeRetire
  show State.Inv _
  split
  · exact h
  split
  · exact h.wake
  extract_lets
  split
  · exact h.record.invFault.advance
  split
  · exact h.record.invFault.advance
  split
  · exact (h.weaverLoad.pair ‹_›).record.invFault.advance
  have h1 := h.weaverLoad.pair ‹_›
  split
  · exact (h1.weaverStore.pair ‹_›).record.invFault.advance
  · exact (h1.weaverStore.pair ‹_›).weaverRelease.follow

theorem State.Inv.execNodeCond {node slice slot n : Nat} (h : s.Inv) : Out.Inv (execNodeCond node slice slot n s) := by
  unfold Machine.execNodeCond
  show State.Inv _
  split
  · exact h
  · exact h.follow

theorem State.Inv.execNodeWhile {node slice slot n : Nat} (h : s.Inv) : Out.Inv (execNodeWhile node slice slot n s) := by
  unfold Machine.execNodeWhile
  show State.Inv _
  split
  · exact h
  extract_lets
  split
  · exact h.follow
  split
  · exact h.record.invFault.advance
  · exact h.follow

theorem State.Inv.execNodeNotify {node slice slot n : Nat} (h : s.Inv) : Out.Inv (execNodeNotify node slice slot n s) := by
  unfold Machine.execNodeNotify
  show State.Inv _
  split
  · exact h
  split
  · exact h.wake
  extract_lets s1
  have h1 : s1.Inv := by
    unfold s1
    split
    · exact h.tell
    · exact h
  exact h1.follow

theorem State.Inv.weaverEnds {sk slot cause : Nat} {addr : W64} (h : s.Inv) : (s.weaverEnds sk slot cause addr).Inv :=
  h.record.invFault.advance

theorem State.Inv.dispatchTo {sk : Nat} {v : Invocation} {n i ck : Nat} (h : s.Inv) : (s.dispatchTo sk v n i ck).Inv := by
  unfold State.dispatchTo
  extract_lets
  split
  extract_lets _ _ bad _ _ _ _ s1 s2
  have h1 : s1.Inv := h.putSlice
  have h2 : s2.Inv := h1.mergeInto
  split
  · exact h.putSlice.weaverEnds
  clear_value bad
  split
  · exact h.putSlice.weaverEnds
  · exact h2.putCore.wake

theorem State.Inv.execIterationDispatch {node slice : Nat} (h : s.Inv) : Out.Inv (execIterationDispatch node slice s) := by
  unfold Machine.execIterationDispatch
  extract_lets _ s1
  have h1 : s1.Inv := h.advance
  show State.Inv _
  split
  · exact h
  split
  · split
    · exact h1.dispatchTo.wake
    · exact h1
  · exact h1

theorem State.Inv.stagePart {sk d j off : Nat} {fmt : Option Nat} (h : s.Inv) : (s.stagePart sk d j off fmt).Inv := by
  unfold State.stagePart
  extract_lets
  split
  · exact h.park
  split
  · exact h.engPage.stop ‹_›
  extract_lets
  have h1 := h.engPage.ok ‹_›
  split
  · exact h1.badFmt
  split
  · exact h1.moveIn.then_ fun _ _ h2 => h2
  split
  · exact h1.badFmt
  split
  · exact h1.gather.stop ‹_›
  · exact (h1.gather.ok ‹_›).padWrite.then_ fun _ _ h3 => h3

theorem State.Inv.startThread {sk : Nat} (h : s.Inv) : (s.startThread sk).Inv := h.setMe.wake

theorem State.Inv.execThreadStart {node core : Nat} (h : s.Inv) : Out.Inv (execThreadStart node core s) := by
  unfold Machine.execThreadStart
  extract_lets s1
  have h1 : s1.Inv := h
  show State.Inv _
  split
  · split
    · exact h1
    split
    · split
      · exact h1
      · exact h1.startThread
    split
    · exact h1.stagePart.stop ‹_›
    · exact (h1.stagePart.ok ‹_›).setMe.wake
  · exact h1

theorem State.Inv.execThreadEnd {node core : Nat} (h : s.Inv) : Out.Inv (execThreadEnd node core s) := by
  unfold Machine.execThreadEnd
  show State.Inv _
  split
  · split
    · exact h.handlerEnds
    · exact h.threadEnds
  · exact h

theorem State.Inv.execWatchdogExpire {node core : Nat} (h : s.Inv) : Out.Inv (execWatchdogExpire node core s) := by
  unfold Machine.execWatchdogExpire
  show State.Inv _
  split
  · exact h.count.endOf
  · exact h

theorem State.Inv.execFaultHandlerStart {node slice worker : Nat} (h : s.Inv) : Out.Inv (execFaultHandlerStart node slice worker s) := by
  unfold Machine.execFaultHandlerStart
  show State.Inv _
  split
  · exact h
  split
  · exact h
  split
  · exact h.askHandler
  · exact h.putSlice.putCore.wake

theorem State.Inv.execTranslationWalk {node core unit kind : Nat} {va : BitVec 64} (h : s.Inv) :
    Out.Inv (execTranslationWalk node core unit kind va s) := by
  unfold Machine.execTranslationWalk
  show State.Inv _
  split
  · exact h.translate.ok ‹_›
  · exact h.translate.fault ‹_›
  · exact h.translate.refused ‹_›

/-! ### Pre-emption and migration; a restore writes a core's memory and tags back (R316 to R324) -/

theorem State.Inv.runSlice {sk : Nat} (h : s.Inv) : (s.runSlice sk).Inv := by
  unfold State.runSlice
  extract_lets _ _ _ _ s1 s2 _ s3 s4 s5 s6
  have h1 : s1.Inv := h.putSlice
  have h2 : s2.Inv := h1.foldl fun _ _ h2 => (State.Inv.ite (State.Inv.ite h2.putCore.wake h2.putCore).wake
    (.ite h2.putCore.wake h2.putCore)).wake.wake.wake.checkDrained
  have h3 : s3.Inv := h2.foldl fun _ _ h3 => h3.wake
  have h4 : s4.Inv := h3.foldl fun _ _ h4 => h4.wake
  have h5 : s5.Inv := h4.foldl fun _ _ h5 => h5.wake
  have h6 : s6.Inv := h5.wake.askHandler
  split
  · exact h
  · exact h6.runInbox

theorem State.Inv.preemptWrite {node : Nat} {v : W64} (h : s.Inv) : (s.preemptWrite node v).Inv := by
  unfold State.preemptWrite
  extract_lets _ _ _ s1 _ s2
  have h1 : s1.Inv := h.setPcsr
  have h2 : s2.Inv := h1.putPkg
  split
  · exact h
  split
  · exact h.setPcsr
  · exact h2.putSlice.wake

theorem State.Inv.freezeCore {ck : Nat} (h : s.Inv) : (s.freezeCore ck).Inv := by
  unfold State.freezeCore
  extract_lets s1
  have h1 : s1.Inv := h
  split
  · exact h1
  split
  have h2 := h1.pickBool.pair ‹_›
  split
  · exact h2
  · exact h2.pickNat.setMe.setPcsr.record

theorem State.Inv.freezeSlice {sk : Nat} (h : s.Inv) : (s.freezeSlice sk).Inv := h.putSlice.foldl fun _ _ h1 => h1.freezeCore

theorem State.Inv.execStopComplete {node slice : Nat} (h : s.Inv) : Out.Inv (execStopComplete node slice s) := by
  unfold Machine.execStopComplete
  extract_lets
  show State.Inv _
  split
  · exact h
  split
  · exact h
  extract_lets s1 _ s2 s3 _ s4
  have h1 : s1.Inv := .ite h.freezeSlice h
  have h2 : s2.Inv := h1.putPkg
  have h3 : s3.Inv := h2.setPcsr
  have h4 : s4.Inv := .ite h3.putSlice h3
  split
  · exact h4.record
  · exact h1.wake

theorem State.Inv.execFreeze {node core : Nat} (h : s.Inv) : Out.Inv (execFreeze node core s) := by
  unfold Machine.execFreeze
  show State.Inv _
  split
  · split
    · exact h.putSlice.freezeCore
    · exact h
  · exact h

theorem State.Inv.ctxStatus {node status : Nat} (h : s.Inv) : (s.ctxStatus node status).Inv := h.setPcsr

theorem State.Inv.saveAll {node : Nat} {l : List (Nat × List Byte)} (h : s.Inv) : (s.saveAll node l).2.Inv := by
  induction l generalizing s with
  | nil => exact h
  | cons a l ih =>
    rw [State.saveAll]
    split
    · exact ih (h.saveBytes.pair ‹_›)
    · exact h.saveBytes

theorem State.Inv.syncRings {ck : Nat} (h : s.Inv) : (s.syncRings ck).Inv :=
  h.foldl fun _ _ h1 => (h1.foldl (fun _ _ h2 => h2.setBytes)).foldl fun _ _ h2 => h2.setBytes

theorem State.Inv.hold {sk : Nat} (h : s.Inv) : (s.hold sk).Inv :=
  (h.foldl (fun _ _ h1 => h1.putCore.resetRings.dropTagged)).dropHandlers.wipeCores.putPkg.putSlice

theorem State.Inv.ctxBegin {node op : Nat} {v : W64} (h : s.Inv) : (s.ctxBegin node op v).Inv := h.setPcsr.putPkg

theorem State.Inv.ctxRefuse {node status : Nat} {v : W64} (h : s.Inv) : (s.ctxRefuse node status v).Inv := h.setPcsr

theorem State.Inv.ctxSave {node : Nat} {v : W64} (h : s.Inv) : (s.ctxSave node v).Inv := by
  unfold State.ctxSave
  extract_lets
  split
  · exact h.ctxRefuse
  · exact h.ctxBegin.wake

theorem State.Inv.execContextSaveDone {node : Nat} (h : s.Inv) : Out.Inv (execContextSaveDone node s) := by
  unfold Machine.execContextSaveDone
  show State.Inv _
  split
  · extract_lets _ _ s1 s2
    have h1 : s1.Inv := h.foldl fun _ _ h1 => h1.syncRings
    have h2 : s2.Inv := h1.foldl fun _ _ h2 => h2.putCore
    split
    extract_lets _ s3 _ s4 s5
    have h3 : s3.Inv := (h2.saveAll.pair ‹_›).putPkg
    have h4 : s4.Inv := h3.putSlice
    have h5 : s5.Inv := .ite h4.hold h4
    split
    · exact h3.ctxStatus.record
    · exact h5.ctxStatus
  · exact h

theorem State.Inv.imageBytes {node a n : Nat} (h : s.Inv) : (s.imageBytes node a n).2.Inv := by
  unfold State.imageBytes
  refine h.foldl_snd fun _ _ h1 => ?_
  split
  · exact h1
  · split <;> exact h1.handleRead.pair ‹_›

theorem State.Inv.withImage {bad : β} {r : Option (List Byte) × State} {k : List Byte → State → β × State} (h : r.2.Inv)
    (hk : ∀ v t, t.Inv → (k v t).2.Inv) : (withImage bad r k).2.Inv := by
  unfold Machine.withImage
  split
  · exact h
  · exact hk _ _ h

theorem State.Inv.readImages {node area : Nat} {f : List Byte} {l : List Nat} (h : s.Inv) : (s.readImages node area f l).2.Inv := by
  induction l generalizing s with
  | nil => exact h
  | cons a l ih =>
    rw [State.readImages]
    refine h.imageBytes.withImage fun _ _ h1 => ?_
    split
    · exact (ih h1).pair ‹_›
    · exact ih h1

theorem State.Inv.readArea {node base ncol i : Nat} (h : s.Inv) : (s.readArea node base ncol i).2.Inv := by
  unfold State.readArea
  refine h.imageBytes.withImage fun _ _ h1 => ?_
  split
  · exact h1
  split
  · exact h1.readImages.pair ‹_›
  extract_lets
  have h2 := h1.readImages.pair ‹_›
  split
  · exact h2
  split
  · exact h2
  · split <;> exact h2

theorem State.Inv.thenPart {r : Except ε α × State} {k : α → State → Except ε β × State} (h : r.2.Inv)
    (hk : ∀ v t, t.Inv → (k v t).2.Inv) : (thenPart r k).2.Inv := by
  unfold Machine.thenPart
  split
  · exact h
  · exact hk _ _ h

theorem State.Inv.readAreas {node base ncol : Nat} {l : List Nat} (h : s.Inv) : (s.readAreas node base ncol l).2.Inv := by
  induction l generalizing s with
  | nil => exact h
  | cons a l ih =>
    rw [State.readAreas]
    exact h.readArea.thenPart fun _ _ h1 => (ih h1).thenPart fun _ _ h2 => h2

/-- The set of full tags after the words of a restored scratchpad. -/
theorem NSet.sorted_foldl_add {l t : NSet} (h : NSet.sorted t = true) (f : Nat → Nat) :
    NSet.sorted (l.foldl (fun t x => NSet.add t (f x)) t) = true := by
  induction l generalizing t with
  | nil => exact h
  | cons a l ih => exact ih (NSet.sorted_add h _)

theorem State.Inv.restoreCore {sk i ck : Nat} {a : Area} (h : s.Inv) : (s.restoreCore sk i ck a).Inv := by
  unfold State.restoreCore
  extract_lets _ _ _ _ _ _ lo s1 s2 s3 s4
  have h1 : s1.Inv := h.wipe
  have h2 : s2.Inv := h1.setBytes
  have h3 : s3.Inv := ⟨h2.1, NSet.sorted_foldl_add h2.2 _⟩
  have h4 : s4.Inv := h3.putCore
  exact h4.foldl fun _ _ h => h.record

theorem State.Inv.restoreGangs {ids : List (Nat × Nat)} {ck : Nat} (h : s.Inv) : (s.restoreGangs ids ck).Inv := h.putCore

theorem State.Inv.installInbox {node func : Nat} {b : Inbox} (h : s.Inv) : (s.installInbox node func b).Inv :=
  h.putPkg.setInbox.foldl fun _ _ h1 => h1.entryBytes

theorem State.Inv.readSlice {node base : Nat} {hdr : List Byte} (h : s.Inv) : (s.readSlice node base hdr).2.Inv := by
  unfold State.readSlice
  refine h.imageBytes.withImage fun _ _ h1 => ?_
  refine h1.imageBytes.withImage fun _ _ h2 => ?_
  split <;> exact h2

theorem State.Inv.installSlice {node sk : Nat} {x : Slice × Inbox} {areas : List Area} (h : s.Inv) :
    (s.installSlice node sk x areas).Inv := by
  unfold State.installSlice
  extract_lets _ _ _ s1 _ s2 s3 _ s4
  have h1 : s1.Inv := .ite h h.installInbox
  have h2 : s2.Inv := h1.putSlice
  have h3 : s3.Inv := h2.foldl fun _ _ h3 => h3.restoreCore
  have h4 : s4.Inv := h3.foldl fun _ _ h4 => h4.restoreGangs
  exact h4.putPkg

theorem State.Inv.ctxRestore {node : Nat} {v : W64} (h : s.Inv) : (s.ctxRestore node v).Inv := by
  unfold State.ctxRestore
  extract_lets
  split
  · exact h.ctxRefuse
  split
  · exact (h.imageBytes.pair ‹_›).ctxRefuse.record
  have h1 := h.imageBytes.pair ‹_›
  split
  · exact h1.ctxRefuse.record
  split
  · exact h1.ctxRefuse
  split
  · exact (h1.readAreas.pair ‹_›).ctxRefuse.record
  have h2 := h1.readAreas.pair ‹_›
  split
  · exact (h2.readSlice.pair ‹_›).ctxRefuse.record
  · exact (h2.readSlice.pair ‹_›).installSlice.ctxBegin.putPkg.wake

theorem State.Inv.startRetry {r : Nat} (h : s.Inv) : (s.startRetry r).Inv := by
  unfold State.startRetry
  extract_lets
  split
  · exact h.setRing.wake
  · exact h

theorem State.Inv.eachRing {sk : Nat} {f : State → Nat → State} (h : s.Inv) (hf : ∀ s r, s.Inv → (f s r).Inv) :
    (s.eachRing sk f).Inv := by
  refine State.Inv.of_same (h.foldl (fun s m h => ?_)) rfl rfl
  exact hf _ _ (hf _ _ (hf _ _ (h.of_same rfl rfl)))

theorem State.Inv.execContextRestoreDone {node : Nat} (h : s.Inv) : Out.Inv (execContextRestoreDone node s) := by
  unfold Machine.execContextRestoreDone
  show State.Inv _
  split
  · extract_lets _ _ _ s1 _ s2 _ s3
    have h1 : s1.Inv := h.eachRing fun _ _ h1 => h1.passRetry
    have h2 : s2.Inv := h1.putPkg
    have h3 : s3.Inv := h2.putSlice
    split
    · exact (h.putPkg.eachRing (fun _ _ h4 => h4.startRetry)).wake
    split
    · exact h.wake
    · exact h3.runSlice.ctxStatus
  · exact h

theorem State.Inv.ctxResume {node : Nat} {v : W64} (h : s.Inv) : (s.ctxResume node v).Inv := by
  unfold State.ctxResume
  extract_lets _ s1 _ s2
  have h1 : s1.Inv := h.ctxBegin
  have h2 : s2.Inv := h1.putPkg
  split
  · exact h.ctxRefuse
  split
  · exact h.ctxRefuse
  split
  · exact (h2.eachRing (fun _ _ h3 => h3.wake)).wake
  · exact h.ctxRefuse.runSlice

theorem State.Inv.ctxopWrite {node : Nat} {v : W64} (h : s.Inv) : (s.ctxopWrite node v).Inv := by
  unfold State.ctxopWrite
  split
  · exact h
  split
  · exact h.ctxSave
  · exact h.ctxRestore
  · exact h.ctxResume
  · exact h.setPcsr

/-! ### csrr and csrw (R134, R135, R339) -/

theorem State.Inv.csrThread {n : Nat} (h : s.Inv) : (s.csrThread n).2.Inv := by
  unfold State.csrThread
  have hp := h.pickW64
  extract_lets
  split
  case h_1 => split <;> assumption
  case h_7 =>
    split
    · split <;> assumption
    · assumption
  all_goals exact h

theorem State.Inv.csrValue {n : Nat} (h : s.Inv) : (s.csrValue n).2.Inv := by
  unfold State.csrValue
  split
  · exact h.csrThread
  split
  · exact h
  · exact h
  · exact h
  · exact h.relheadRead
  · exact h
  · exact h
  · exact h
  · exact h
  · exact h

theorem State.Inv.execCsrr {d : BitVec 5} {g : BitVec 3} {c : BitVec 12} (h : s.Inv) : Out.Inv (execCsrr d g c s) :=
  h.guarded fun _ h1 => .ite h1.trap (.ite h1.wordTrap (.ite h1.trap h1.csrValue.setReg.finish))

theorem State.Inv.setSliceReg {f : Slice → Slice} (h : s.Inv) : (s.setSliceReg f).Inv := by
  unfold State.setSliceReg
  extract_lets
  split
  · exact h.putSlice
  · exact h

theorem State.Inv.csrStore {n : Nat} {v : W64} (h : s.Inv) : (s.csrStore n v).Inv := by
  unfold State.csrStore
  split
  · exact h.setSliceReg
  · exact h.setSliceReg
  · exact h.setMe
  · exact h.setMe
  · exact h.setMe
  · exact h.setMe
  · exact h.setMe
  · exact h.setMe
  · exact h.setMe
  · exact h.slbindWrite
  · exact h.preemptWrite
  · exact h.ctxopWrite
  · exact h.epbindWrite
  · exact h.slfreeWrite
  · exact h.fnfreeWrite
  · exact h.relbaseWrite
  · exact h.reltailWrite
  · exact h.relovfWrite
  · exact h.setPcsr
  · exact h.keyctlWrite
  · exact h.setPcsr
  · exact h.dbgctlWrite
  · exact h

theorem State.Inv.execCsrw {a : BitVec 5} {g : BitVec 3} {c : BitVec 12} (h : s.Inv) : Out.Inv (execCsrw a g c s) :=
  h.guarded fun _ h1 => .ite h1.trap (.ite h1.wordTrap (.ite h1.trap (.ite h1.trap (.ite h1 (.ite h1.slfreeStart h1.csrStore.finish)))))

/-! ### What the fabric delivers, and the end of packages and links -/

theorem State.Inv.dropOutstanding {src dst seq : Nat} (h : s.Inv) : (s.dropOutstanding src dst seq).Inv := by
  unfold State.dropOutstanding
  extract_lets _ _ _ s1
  have h1 : s1.Inv := h.putPkg
  split
  · exact h1.wakeEnded
  · exact h1

theorem State.Inv.performPosted {dst src : Nat} {q : Posted} (h : s.Inv) : (s.performPosted dst src q).Inv := by
  unfold State.performPosted
  extract_lets _ s1 s2 s3 _ s4
  have h1 : s1.Inv := by
    unfold s1
    split
    · exact h.controlPut
    · exact h.poke
  have h2 : s2.Inv := by
    unfold s2
    split
    · exact h1.mirrorWrite.mirrorDone
    · exact h1
  have h3 : s3.Inv := h2.noteWrite.addStamps
  have h4 : s4.Inv := .ite h3.putPkg h3
  exact h4.cacheReply

theorem State.Inv.performHeld {dst : Nat} (h : s.Inv) : (s.performHeld dst).Inv :=
  h.foldl fun _ _ h1 => .ite h1.performPosted.dropOutstanding h1

theorem State.Inv.failRequest {src dst : Nat} {q : Posted} {dead : Bool} (h : s.Inv) : (s.failRequest src dst q dead).Inv :=
  h.dropOutstanding.failPosted.foldl fun _ _ h1 => .ite h1.putPkg.dropOutstanding.losePosted h1.putPkg.dropOutstanding.failPosted

theorem State.Inv.dropNotice {src dst seq : Nat} {q : Posted} (h : s.Inv) : (s.dropNotice src dst seq q).Inv := .failRequest (.record h)

theorem State.Inv.resendLater {src dst seq : Nat} (h : s.Inv) : (s.resendLater src dst seq).Inv := h.wake

theorem State.Inv.arrive_ {src dst : Nat} {q : Posted} {answer : State → State} (h : s.Inv) (hanswer : ∀ t, t.Inv → (answer t).Inv) :
    (s.arrive_ src dst q answer).Inv := by
  unfold State.arrive_
  extract_lets
  split
  · exact h.refuseLost.failRequest
  split
  · exact h.refuse.failRequest
  split
  · exact hanswer _ h.performPosted
  · exact h.putPkg

theorem State.Inv.receive {src dst seq : Nat} (h : s.Inv) : (s.receive src dst seq).Inv := by
  unfold State.receive
  split
  · exact h
  split
  · split
    refine State.Inv.resendLater ?_
    have h1 := h.pickBool.pair ‹_›
    split
    · exact h1.record
    · exact h1
  split
  · exact h.resendLater
  split
  · exact (h.way.pair ‹_›).resendLater
  · exact (h.way.pair ‹_›).dropNotice
  split
  have h2 := h.way.pair ‹_›
  have h3 := h2.takeFate.pair ‹_›
  split
  · exact h3.resendLater
  extract_lets answer
  split
  · split
    · unfold answer
      split
      · exact h3.cacheReply.resendLater
      · exact h3.cacheReply.dropOutstanding.performHeld
    split
    · exact h3.record.failRequest
    · exact h3.arrive_ fun _ h4 => .ite h4.resendLater h4.dropOutstanding.performHeld
  · exact h3.arrive_ fun _ h4 => .ite h4.resendLater h4.dropOutstanding.performHeld

theorem State.Inv.execReplyReceive {src dst seq : Nat} (h : s.Inv) : Out.Inv (execReplyReceive src dst seq s) := by
  unfold Machine.execReplyReceive
  show State.Inv _
  split
  · exact h
  split
  · split
    · exact h.dropOutstanding
    · exact h
  · exact h.record

theorem State.Inv.execRetransmitTimeout {src dst seq : Nat} (h : s.Inv) : Out.Inv (execRetransmitTimeout src dst seq s) := by
  unfold Machine.execRetransmitTimeout
  show State.Inv _
  split
  · exact h
  split
  · exact h.resendLater
  split
  · exact h.declareDead
  · exact h.putPkg.later

theorem State.Inv.execPacketResidencyDrop {src dst seq : Nat} (h : s.Inv) : Out.Inv (execPacketResidencyDrop src dst seq s) := by
  unfold Machine.execPacketResidencyDrop
  show State.Inv _
  split
  · exact h
  split
  · exact State.Inv.resendLater h
  · exact h

theorem State.Inv.execHeldReleasePerform {dst src seq : Nat} (h : s.Inv) : Out.Inv (execHeldReleasePerform dst src seq s) := by
  unfold Machine.execHeldReleasePerform
  show State.Inv _
  split
  · exact h
  split
  · exact h.performPosted.dropOutstanding
  · exact h

theorem State.Inv.execSwitchPortDownTimeout {sw node : Nat} (h : s.Inv) : Out.Inv (execSwitchPortDownTimeout sw node s) := by
  unfold Machine.execSwitchPortDownTimeout
  show State.Inv _
  split
  · exact h.putSwitch
  · exact h

theorem State.Inv.execSwitchDropNotice {src dst seq : Nat} (h : s.Inv) : Out.Inv (execSwitchDropNotice src dst seq s) := by
  unfold Machine.execSwitchDropNotice
  show State.Inv _
  split
  · exact h
  split
  · exact h.dropNotice
  · exact h

theorem State.Inv.execRejoinQuietExpire {node : Nat} (h : s.Inv) : Out.Inv (execRejoinQuietExpire node s) := by
  unfold Machine.execRejoinQuietExpire
  show State.Inv _
  split
  · exact h.putPkg
  · exact h

theorem State.Inv.rejoinHome {home src : Nat} (h : s.Inv) : (s.rejoinHome home src).Inv := by
  unfold State.rejoinHome
  extract_lets _ _ _ _ s1 _ s2 s3 _ s4 _ _ s5 s6
  have h1 : s1.Inv := h.putPkg
  have h2 : s2.Inv := h1
  have h3 : s3.Inv := h2.foldl fun _ _ h3 => h3.record.failPosted
  have h4 : s4.Inv := (h3.foldl (fun _ _ h4 => h4.record)).failRlds
  have h5 : s5.Inv := h4
  have h6 : s6.Inv := h5.foldl fun _ _ h6 => h6.record
  split
  · exact h.putSwitch
  · exact h6.foldl fun _ _ h7 => h7.record.answerTagged

theorem State.Inv.execRejoinNotice {home src : Nat} (h : s.Inv) : Out.Inv (execRejoinNotice home src s) := by
  unfold Machine.execRejoinNotice
  show State.Inv _
  split
  · exact h.rejoinHome.putPkg
  · exact h

theorem State.Inv.execRejoinAck {node src : Nat} (h : s.Inv) : Out.Inv (execRejoinAck node src s) := by
  unfold Machine.execRejoinAck
  show State.Inv _
  split
  · exact h.putPkg
  · exact h

theorem State.Inv.execRejoinAckTimeout {node src : Nat} (h : s.Inv) : Out.Inv (execRejoinAckTimeout node src s) := by
  unfold Machine.execRejoinAckTimeout
  show State.Inv _
  split
  · exact h.putPkg.declareDead
  · exact h

theorem State.Inv.execProbeFire {node router : Nat} (h : s.Inv) : Out.Inv (execProbeFire node router s) := by
  unfold Machine.execProbeFire
  show State.Inv _
  split
  · split
    · exact h.putPkg
    · exact h
  · exact h

theorem State.Inv.execProbeReturn {node router : Nat} (h : s.Inv) : Out.Inv (execProbeReturn node router s) := by
  unfold Machine.execProbeReturn
  show State.Inv _
  split
  · exact h
  split
  · exact h
  split
  · split
    have h1 := h.pickBool.pair ‹_›
    split
    · exact h1.putPkg.count
    · exact h1.count
  · exact h.putPkg.count

theorem State.Inv.loseEntry {node func e sw st : Nat} (h : s.Inv) : (s.loseEntry node func e sw st).Inv := by
  unfold State.loseEntry
  extract_lets _ s1 _ s2 s3
  have h1 : s1.Inv := h.putSat
  have h2 : s2.Inv := .ite h1.putPkg h1
  have h3 : s3.Inv := h2.answerWaiters
  split
  · exact h3.putSwitch
  · exact h2

theorem State.Inv.entryRecord {node func e sw st : Nat} (h : s.Inv) : (s.entryRecord node func e sw st).Inv := h.record

theorem State.Inv.resendMirror {me sw : Nat} (h : s.Inv) : (s.resendMirror me sw).Inv :=
  h.foldl fun _ _ h1 => .ite h1.pickBool (State.Inv.ite h1.pickBool h1.pickBool.performPosted).dropOutstanding

theorem State.Inv.failSwitch {node sw : Nat} (h : s.Inv) : (s.failSwitch node sw).Inv := by
  unfold State.failSwitch
  extract_lets _ s1 _ s2 s3
  have h1 : s1.Inv := h.putPkg.resendMirror.failOutstanding
  have h2 : s2.Inv := h1.foldl fun _ _ h2 => h2.loseEntry
  have h3 : s3.Inv := h2.record
  split
  · exact h
  · exact h3.foldl fun _ _ h4 => h4.entryRecord

theorem State.Inv.execSwitchFailureDeclare {node sw : Nat} (h : s.Inv) : Out.Inv (execSwitchFailureDeclare node sw s) := by
  unfold Machine.execSwitchFailureDeclare
  split
  extract_lets _ s1 s2
  have h1 : s1.Inv := .ite (h.takeUpset.pair ‹_›).putSwitch h
  have h2 : s2.Inv := h1.failSwitch
  show State.Inv _
  split
  · exact h2.foldl fun _ _ h3 => h3.later
  · exact h1

theorem State.Inv.execSwitchFailureNotice {node sw : Nat} (h : s.Inv) : Out.Inv (execSwitchFailureNotice node sw s) := by
  unfold Machine.execSwitchFailureNotice
  show State.Inv _
  split
  · exact h.failSwitch
  · exact h

theorem State.Inv.execMirrorAck {sw idx : Nat} (h : s.Inv) : Out.Inv (execMirrorAck sw idx s) := by
  unfold Machine.execMirrorAck
  show State.Inv _
  split
  · exact h
  · exact h.putSwitch.mirrorPut

theorem State.Inv.emptySwitch {sw : Nat} (h : s.Inv) : (s.emptySwitch sw).Inv := by
  unfold State.emptySwitch
  split
  · exact h.wipe.putSwitch
  · exact h

theorem State.Inv.readmit {node sw : Nat} (h : s.Inv) : (s.readmit node sw).Inv := by
  unfold State.readmit
  split
  · exact h
  extract_lets s1 _ _ s2
  have h1 : s1.Inv := h.emptySwitch
  have h2 : s2.Inv := h1.putPkg
  split
  · exact h1
  · exact h2.foldl fun _ _ h3 => h3.later

theorem State.Inv.execReadmitNotice {node sw : Nat} (h : s.Inv) : Out.Inv (execReadmitNotice node sw s) := by
  unfold Machine.execReadmitNotice
  extract_lets _ s1
  have h1 : s1.Inv := h.putPkg
  show State.Inv _
  split
  · exact h1
  · exact h

theorem State.Inv.setReady {node l : Nat} {v : Bool} (h : s.Inv) : (s.setReady node l v).Inv := h.putPkg

theorem State.Inv.portRecord {node cause link : Nat} (h : s.Inv) : (s.portRecord node cause link).Inv := h.record

theorem State.Inv.execLinkReady {node link : Nat} (h : s.Inv) : Out.Inv (execLinkReady node link s) := by
  unfold Machine.execLinkReady
  show State.Inv _
  split
  · exact h
  extract_lets s1 _ s2
  have h1 : s1.Inv := h.setReady
  have h2 : s2.Inv := h1.putPkg
  split
  · split
    have h3 := h2.pickBool.pair ‹_›
    split
    · exact h3.portRecord
    · exact h3
  · exact h2

theorem State.Inv.execLinkDown {node link : Nat} (h : s.Inv) : Out.Inv (execLinkDown node link s) := by
  unfold Machine.execLinkDown
  show State.Inv _
  split
  · exact h
  extract_lets s1 _ s2
  have h1 : s1.Inv := h.setReady
  have h2 : s2.Inv := h1.putPkg
  split
  · exact h2.portRecord
  · exact h2

theorem State.Inv.overPair {pair ck pa : Nat} (h : s.Inv) : (s.overPair pair ck pa).2.Inv := by
  unfold State.overPair
  split
  · exact h
  extract_lets
  split
  · exact h
  split
  · exact h
  split
  · exact h
  split
  · exact h.pickBool
  · exact h

theorem State.Inv.eachRld {node : Nat} {f : State → Nat → Fin 4 → Nat → W64 → W64 → State} (h : s.Inv)
    (hf : ∀ t a b c d e, t.Inv → (f t a b c d e).Inv) : (s.eachRld node f).Inv := by
  unfold State.eachRld
  refine h.foldl fun _ _ h1 => ?_
  refine h1.foldl fun _ _ h2 => ?_
  refine h2.foldl fun _ _ h3 => ?_
  split
  · exact hf _ _ _ _ _ _ h3
  · exact h3

theorem State.Inv.cutPair {node pair : Nat} (h : s.Inv) : (s.cutPair node pair).Inv :=
  ((h.eachRld (fun _ _ _ _ _ _ h1 => .ite h1.overPair.putCore h1.overPair)).foldl
    (fun _ _ h1 => .ite h1.overPair.failRequest h1.overPair)).foldl fun _ _ h1 => .ite h1.overPair.answerTagged h1.overPair

theorem State.Inv.execD2dLinkFail {node pair : Nat} (h : s.Inv) : Out.Inv (execD2dLinkFail node pair s) := by
  unfold Machine.execD2dLinkFail
  show State.Inv _
  split
  · extract_lets _ s1
    have h1 : s1.Inv := h.putPkg.setReady
    split
    extract_lets s2
    have h2 : s2.Inv := by
      unfold s2
      have h3 := h1.pickBool.pair ‹_›
      split
      · exact h3.record
      · exact h3
    exact h2.record.cutPair
  · exact h

theorem State.Inv.failEntry {node func e sw : Nat} (h : s.Inv) : (s.failEntry node func e sw).Inv := by
  unfold State.failEntry
  split
  · exact h.loseEntry.entryRecord
  · exact h

theorem State.Inv.attach {owner ofunc entry node func : Nat} {vbase : W64} (h : s.Inv) :
    (s.attach owner ofunc entry node func vbase).Inv := by
  unfold State.attach
  extract_lets
  split
  · exact h
  split
  · exact h
  · exact (h.putSat.setBytes.foldl (fun _ _ h1 => h1.putSwitch)).foldl fun _ _ h1 => h1.failEntry

/-! ### Boot, sessions and restarts -/

theorem State.Inv.restartCore {ck : Nat} {entry : W64} (h : s.Inv) : (s.restartCore ck entry).Inv := by
  unfold State.restartCore
  extract_lets s1 _ s2
  have h1 : s1.Inv := h.dropTagged
  have h2 : s2.Inv := h1
  exact h2.putCore.wake

theorem State.Inv.repriseAll {node : Nat} (h : s.Inv) : (s.repriseAll node).Inv := h.putPkg

theorem State.Inv.execLockstepMismatch {node : Nat} (h : s.Inv) : Out.Inv (execLockstepMismatch node s) := by
  unfold Machine.execLockstepMismatch
  extract_lets _ s1 s2
  have h1 : s1.Inv := h.record
  have h2 : s2.Inv := h1.repriseAll.restartCore
  show State.Inv _
  split
  · exact h
  · exact h2.record

theorem State.Inv.repriseEntry {node e : Nat} (h : s.Inv) : (s.repriseEntry node e).Inv := by
  unfold State.repriseEntry
  extract_lets
  split
  · exact h.setInbox
  · exact h

theorem State.Inv.execWorkerTimeout {node worker : Nat} (h : s.Inv) : Out.Inv (execWorkerTimeout node worker s) := by
  unfold Machine.execWorkerTimeout
  extract_lets _ s1 s2
  have h1 : s1.Inv := h.record
  have h2 : s2.Inv := h1.foldl fun _ _ h2 => h2.repriseEntry
  show State.Inv _
  split
  · exact h
  · exact h2.putPkg.restartCore

theorem State.Inv.clearPackage {node : Nat} (h : s.Inv) : (s.clearPackage node).Inv :=
  .setFuse (.putPkg (.wipe (.foldl ((h.foldl (fun _ _ h1 => h1.kvPeerLost)).of_same rfl rfl) (fun _ _ h1 => h1.putCore))))

theorem State.Inv.readFuses {node : Nat} (h : s.Inv) : (s.readFuses node).Inv := by
  unfold State.readFuses
  extract_lets _ _ s1
  have h1 : s1.Inv := h.putCore
  split
  · exact h1.setPcsr.record
  · exact h

theorem State.Inv.bootImages {node : Nat} {l : List Nat} (h : s.Inv) : (s.bootImages node l).2.Inv := by
  induction l generalizing s with
  | nil => exact h
  | cons a l ih =>
    rw [State.bootImages]
    split
    · exact ih h.extendMr.record.poke
    · exact h

theorem State.Inv.resetFaults {node : Nat} (h : s.Inv) : (s.resetFaults node).Inv :=
  h.foldl fun _ _ h1 => .ite h1.putCore.record h1.putCore.record

theorem State.Inv.packageReset {node : Nat} (h : s.Inv) : (s.packageReset node).Inv := by
  unfold State.packageReset
  extract_lets s1
  have h1 : s1.Inv := h.clearPackage.readFuses.resetFaults.drawNonce
  split
  · exact (h1.bootImages.pair ‹_›).record.setPcsr
  · exact (h1.bootImages.pair ‹_›).setPcsr.putPkg.putCore.wake

theorem State.Inv.execPackageReset {node : Nat} (h : s.Inv) : Out.Inv (execPackageReset node s) := by
  unfold Machine.execPackageReset
  show State.Inv _
  split
  · exact h.packageReset
  · exact h

theorem State.Inv.sendMgmt {node ep : Nat} {ws : List W64} (h : s.Inv) : (s.sendMgmt node ep ws).Inv := h

theorem State.Inv.freeHash (h : s.Inv) : s.freeHash.2.Inv := h

theorem State.Inv.spdm {node ep code : Nat} {param : W64} (h : s.Inv) : (s.spdm node ep code param).Inv := by
  unfold State.spdm
  extract_lets
  split
  · exact h
  split
  · exact h.pickW64.sendMgmt
  split
  · exact h.pickW64.sendMgmt
  split
  · exact h.sendMgmt
  split
  · exact h.putPkg.pickW64.sendMgmt
  split
  · split
    · exact h.sendMgmt
    · exact h.freeHash.putPkg.pickW64.sendMgmt
  split
  · exact h.putPkg.pickW64.sendMgmt
  · exact h.record.sendMgmt

theorem State.Inv.dropMgmt {node : Nat} (h : s.Inv) : (s.dropMgmt node).Inv := h.record

theorem State.Inv.funcStore {node n func : Nat} (h : s.Inv) : (s.funcStore node n func).Inv := h.controlPut

theorem State.Inv.operatorDo {node ep kind : Nat} {body : List W64} (h : s.Inv) : (s.operatorDo node ep kind body).Inv := by
  unfold State.operatorDo
  extract_lets _ _ _ s1
  have h1 : s1.Inv := h.controlPut.slbindWrite
  split
  · split
    · exact h
    split
    · exact h1.putSlice
    · exact h1
  · exact h.attach
  · split
    have h2 := h.keyLoad.pair ‹_›
    split
    · exact h2.funcStore
    · exact h2
  · exact h.readmit
  · exact h.sendMgmt
  · exact h

theorem State.Inv.operatorCommand {node ep kind : Nat} {key : BitVec 256} {cseq : W64} {body : List W64} {sig : BitVec 512} (h : s.Inv) :
    (s.operatorCommand node ep kind key cseq body sig).Inv := by
  unfold State.operatorCommand
  extract_lets
  split
  · exact h
  split
  · exact h.dropMgmt
  split
  · exact h.putPkg.operatorDo
  · exact h.dropMgmt

theorem State.Inv.imageWrite {node ep : Nat} {key : BitVec 256} {cseq : W64} {image : List Byte} {sig : BitVec 512} (h : s.Inv) :
    (s.imageWrite node ep key cseq image sig).Inv := by
  unfold State.imageWrite
  extract_lets _ x
  split
  · exact h
  clear_value x
  split
  · exact h.dropMgmt
  split
  · exact h.putPkg
  · exact h.dropMgmt

theorem State.Inv.execImageWrite {node ep : Nat} {key : BitVec 256} {cseq hdr : BitVec 64} {image : List Byte} {sig : BitVec 512}
    (h : s.Inv) : Out.Inv (execImageWrite node ep key cseq hdr image sig s) := by
  unfold Machine.execImageWrite
  show State.Inv _
  split
  · exact h.imageWrite
  · exact h

theorem State.Inv.tenantKey {node ep func : Nat} {key : BitVec 512} (h : s.Inv) : (s.tenantKey node ep func key).Inv := by
  unfold State.tenantKey
  extract_lets _ target
  split
  · split
    · exact h.dropMgmt
    split
    have h1 := h.keyLoad.pair ‹_›
    split
    · exact h1.funcStore
    · exact h1
  · exact h.dropMgmt

theorem State.Inv.throttle {node die cause : Nat} (h : s.Inv) : (s.throttle node die cause).Inv := by
  unfold State.throttle
  split
  · exact h
  · exact h.putPkg.record

theorem State.Inv.execPatrolScrub {node : Nat} {line : BitVec 64} (h : s.Inv) : Out.Inv (execPatrolScrub node line s) := by
  unfold Machine.execPatrolScrub
  show State.Inv _
  split
  · split
    · exact State.Inv.record h
    · exact h
  · exact h

theorem State.Inv.execLifecycleChange {node state : Nat} (h : s.Inv) : Out.Inv (execLifecycleChange node state s) := by
  unfold Machine.execLifecycleChange
  show State.Inv _
  split
  · exact h.setLifecycle
  · exact h

/-! ### Transfers of control (R123 to R126, R136, R137, R247) -/

theorem State.Inv.execBr {g : BitVec 3} {n : BitVec 1} {i : BitVec 21} (h : s.Inv) : Out.Inv (execBr g n i s) := by
  unfold Machine.execBr
  show State.Inv _
  split
  · exact h.jump
  · exact h.finish

theorem State.Inv.pushRet {v : W64} (h : s.Inv) : (s.pushRet v).Inv := by
  unfold State.pushRet
  extract_lets
  split
  · exact h.setMe
  split
  · exact h.trap
  split
  · exact h.refuse.trap
  split
  · exact (h.racing.pair ‹_›).trap
  · exact (h.racing.pair ‹_›).poke.noteWrite.setMe

theorem State.Inv.popRet (h : s.Inv) : s.popRet.Inv := by
  unfold State.popRet
  extract_lets
  split
  · exact h.setMe
  split
  · exact h.trap
  split
  · exact h.refuse.trap
  split
  · exact h.trap
  split
  · exact (h.racing.pair ‹_›).trap
  · exact (h.racing.pair ‹_›).correct.setMe

theorem State.Inv.execCall {g : BitVec 3} {n : BitVec 1} {i : BitVec 21} (h : s.Inv) : Out.Inv (execCall g n i s) := by
  unfold Machine.execCall
  show State.Inv _
  split
  · exact h.pushRet.run fun _ _ h1 => h1.setMe.spend
  · exact h.finish

theorem State.Inv.badTarget {i : Instr} (h : s.Inv) : (s.badTarget i).Inv := h.trap

theorem State.Inv.execJr {a : BitVec 5} {g : BitVec 3} (h : s.Inv) : Out.Inv (execJr a g s) :=
  h.guarded fun _ h1 => .ite h1.jump h1.badTarget

theorem State.Inv.execRet {g : BitVec 3} (h : s.Inv) : Out.Inv (execRet g s) :=
  h.guarded fun _ h1 => h1.popRet.run fun _ _ h2 => .ite h2.returnTo h1.badTarget

theorem State.Inv.execLoop {a : BitVec 5} {g : BitVec 3} {i : BitVec 12} (h : s.Inv) : Out.Inv (execLoop a g i s) :=
  h.guarded fun _ h1 => .ite h1.finishAt (.ite h1.trap (.ite h1.trap h1.setMe.spend))

theorem State.Inv.execEndThread {g : BitVec 3} (h : s.Inv) : Out.Inv (execEndThread g s) :=
  h.guarded fun _ h1 => .ite h1.handlerEnds h1.setMe.wake

theorem State.Inv.execYield {i : BitVec 20} (h : s.Inv) : Out.Inv (execYield i s) := by
  unfold Machine.execYield
  extract_lets s1 _ s2
  have h1 : s1.Inv := h.finish
  have h2 : s2.Inv := by
    unfold s2
    split
    · exact h1.setMe
    · exact h1
  show State.Inv _
  split
  · exact h2.stopCore
  · exact h2

/-! ### One instruction -/

/-- Forms of one meaning share a case; the others go through the lemma of their instruction. -/
theorem State.Inv.exec {i : Instr} (h : s.Inv) : Out.Inv (exec i s) := by
  unfold Machine.exec
  cases i with
  | addI64 | subI64 | mulI64 | mulhI64 | mulhW64 | divI64 | divW64 | remI64 | shlI64 | shrW64 | sraI64 => exact h.arithC
  | andW64 | orW64 | xorW64 => exact h.arith
  | cmpEqI64 | cmpNeI64 | cmpLtI64 | cmpGeI64 | cmpLtW64 | cmpGeW64 => exact h.compare
  | pand | por | pxor | pandn => exact h.predLogic
  | pset => exact h.guarded fun _ h1 => h1.setPredNext
  | pget | bxlen => exact h.guarded fun _ h1 => h1.setNext
  | addiI64 => exact h.arithImmC
  | andiW64 | oriW64 | xoriW64 => exact h.arithImm
  | shliI64 | shriW64 | sraiI64 => exact h.shiftImm
  | li => exact h.setNext
  | lea => exact h.guarded fun _ h1 => h1.checkedNext
  | br => exact h.execBr
  | call => exact h.execCall
  | jr => exact h.execJr
  | ret => exact h.execRet
  | loop => exact h.execLoop
  | ldW8 | ldW16 | ldW32 | ldW64 | ldI8 | ldI32 => exact h.loadForm
  | stW8 | stW16 | stW32 | stW64 => exact h.storeForm
  | ldAcqW32 | ldAcqW64 => exact h.ldAcq
  | stRelW32 | stRelW64 => exact h.stRel
  | waitTk => exact h.execWaitTk
  | barWait => exact h.execBarWait
  | ldwfW64 => exact h.execLdwfW64
  | stweW64 => exact h.execStweW64
  | pop => exact h.execPop
  | sigTk => exact h.execSigTk
  | barArrive => exact h.execBarArrive
  | join => exact h.execJoin
  | leave => exact h.execLeave
  | amoAddW64 | amoMinI64 | amoMaxI64 | amoAndW64 | amoOrW64 | amoXorW64 | amoXchgW64 | amoCasW64 => exact h.amo
  | fence => exact h.execFence
  | fenceR => exact h.execFenceR
  | rld => exact h.execRld
  | setshapeV => exact h.execSetshapeV
  | setshapeM => exact h.execSetshapeM
  | asnap => exact h.execAsnap
  | tstat => exact h.execTstat
  | swalloc => exact h.execSwalloc
  | swfree => exact h.execSwfree
  | swquota => exact h.execSwquota
  | yield => exact h.execYield
  | enqueuePrefix => exact h.execEnqueuePrefix
  | trap => exact h.deliver
  | rft => exact h.guarded fun _ h1 => h1.returnFromTrap
  | endThread => exact h.execEndThread
  | csrr => exact h.execCsrr
  | csrw => exact h.execCsrw
  | resume => exact h.execResume
  | qreset => exact h.execQreset
  | tinvPg1 | tinvRg1 | tinvAll1 => exact h.tinv1
  | tinvPg2 | tinvRg2 | tinvAll2 => exact h.tinv2
  | einj => exact h.execEinj
  | takeIb => exact h.execTakeIb
  | commitIb => exact h.execCommitIb
  | attest => exact h.execAttest
  | vaddF32 | vsubF32 | vmulF32 | vfmaF32 | vfmaF32TMultiplier | vminF32 | vmaxF32 | vabsF32 | vnegF32 | vcmpF32 | vrcpF32 | vrsqrtF32
  | vexp2F32 | vlog2F32 | vtanhF32 | vaddInt | vsubInt | vmulInt | vmulh | vminInt | vmaxInt | vabsInt | vand | vor | vxor | vshl | vshr
  | vcmpSigned | vcmpUnsigned | vsel | vmask | vmov | vcvt | vcvtSat | vcvtFloatToInt | vcvtIntToFloat | vcvtIntToInt | vbscale | vquant
  | vredF32 | vredInt | vscanF32 | vscanInt | vperm | vrot | viota | vpart | vport | vportd | vsplat | vnop =>
    exact h.vec fun _ _ h1 => h1.vbody
  | vrep => exact h.repeatAll
  | mld => exact h.execMld
  | mldt => exact h.execMldt
  | mwld => exact h.execMwld
  | mwldt => exact h.execMwldt
  | mmulOvw | mmulAcc => exact h.mmul
  | mgangOvw | mgangAcc => exact h.mgang
  | mzero => exact h.matDone
  | macc | mescale => exact h.residue
  | mldacc => exact h.padRead.run fun _ _ h1 => h1.matDone
  | mescv | mebias => exact h.vector32.run fun _ _ h1 => h1.residue
  | meact => exact h.execMeact
  | meclamp => exact h.epilogue
  | mecvt => exact h.setMe.epilogue
  | mst | mstn => exact h.tileStore
  | msnap => exact h.streamWrite.run fun _ _ h1 => h1.matDone
  | mstt => exact h.execMstt
  | mmov | mtr => exact h.readTile fun _ h1 => h1.matDone
  | mnop => exact h.entryDone
  | cldHbm => exact h.execCldHbm
  | cstHbm | cstSw => exact h.copyAcquire.storeTo.copy
  | cld2d => exact h.execCld2d
  | cst2d => exact h.execCst2d
  | ccpy => exact h.execCcpy
  | ccvt => exact h.execCcvt
  | cgat => exact h.execCgat
  | csct => exact h.execCsct
  | cfill => exact h.execCfill
  | cfillSp => exact h.execCfillSp
  | ctag => exact h.execCtag
  | cpref => exact h.execCpref
  | cmovSp => exact h.execCmovSp
  | cmst => exact h.execCmst
  | ckvSend | ckvPull => exact h.kvPost
  | ckvSync => exact h.execCkvSync
  | cldSw => exact h.execCldSw
  | credInit => exact h.execCredInit
  | credSw | cmstSw => exact h.contribute
  | cldrSw => exact h.execCldrSw
  | credDrop => exact h.execCredDrop
  | cbatAdd | cbatMin | cbatMax | cbatOr | cbatXchg => exact h.cbat
  | cskInit => exact h.execCskInit
  | cskIns => exact h.execCskIns
  | cskDel => exact h.execCskDel
  | cskSend => exact h.execCskSend
  | cskXchg => exact h.execCskXchg
  | cskPeel => exact h.execCskPeel
  | cskFetch => exact h.execCskFetch
  | cskRsz => exact h.execCskRsz
  | cnop | cfence => exact Res.Inv.copy h
  | csig => exact h.execCsig
  | commandMessage => exact h.execCommandMessage
  | slotLoad => exact h.fwCommand fun _ _ _ h1 => h1.slotLoadCmd
  | slotUnload => exact h.fwCommand fun _ _ _ h1 => h1.slotUnloadCmd
  | slotQuery => exact h.fwCommand fun _ _ _ h1 => h1.slotQueryCmd
  | invoke => exact h.fwCommand fun _ _ _ h1 => h1.invokeCmd
  | schedSet => exact h.fwCommand fun _ _ _ h1 => h1.schedSetCmd
  | admitRequest => exact h.fwCommand fun _ _ _ h1 => h1.admitCmd
  | cancel => exact h.fwCommand fun _ _ _ h1 => h1.cancelCmd
  | packRegister => exact h.fwCommand fun _ _ _ h1 => h1.packRegisterCmd
  | packDrop => exact h.fwCommand fun _ _ _ h1 => h1.packDropCmd
  | invocationStart => exact h.execInvocationStart
  | iterationDispatch => exact h.execIterationDispatch
  | threadStart => exact h.execThreadStart
  | threadEnd => exact h.execThreadEnd
  | copyNodeRetire => exact h.execCopyNodeRetire
  | nodeCond => exact h.execNodeCond
  | nodeWhile => exact h.execNodeWhile
  | nodeNotify => exact h.execNodeNotify
  | invocationRetire => exact h.execInvocationRetire
  | schedBoundary => exact h.boundary
  | packPlacementDone => exact h.execPackPlacementDone
  | translationWalk => exact h.execTranslationWalk
  | faultHandlerStart => exact h.execFaultHandlerStart
  | timedWaitTimeout => exact h.execTimedWaitTimeout
  | watchdogExpire => exact h.execWatchdogExpire
  | bankPowerGate => exact h.execBankPowerGate
  | loadQueueFill => exact h.execLoadQueueFill
  | taggedRequestAtHome => exact h.execTaggedRequestAtHome
  | routerAtomic => exact h.execRouterAtomic
  | gangPartArrive => exact h.execGangPartArrive
  | gangPartCommit => exact h.execGangPartCommit
  | fabricRequestReceive => exact h.receive
  | retransmitTimeout => exact h.execRetransmitTimeout
  | replyReceive => exact h.execReplyReceive
  | packetResidencyDrop => exact h.execPacketResidencyDrop
  | heldReleasePerform => exact h.execHeldReleasePerform
  | switchPortDownTimeout => exact h.execSwitchPortDownTimeout
  | switchDropNotice => exact h.execSwitchDropNotice
  | packageReset => exact h.execPackageReset
  | linkReady => exact h.execLinkReady
  | linkDown => exact h.execLinkDown
  | rejoinQuietExpire => exact h.execRejoinQuietExpire
  | rejoinNotice => exact h.execRejoinNotice
  | rejoinAck => exact h.execRejoinAck
  | rejoinAckTimeout => exact h.execRejoinAckTimeout
  | probeFire => exact h.execProbeFire
  | probeReturn => exact h.execProbeReturn
  | switchFailureDeclare => exact h.execSwitchFailureDeclare
  | switchFailureNotice => exact h.execSwitchFailureNotice
  | mirrorAck => exact h.execMirrorAck
  | reductionContribution => exact h.execReductionContribution
  | reductionLoad => exact h.execReductionLoad
  | reductionRoundTimeout => exact h.execReductionRoundTimeout
  | d2dLinkFail => exact h.execD2dLinkFail
  | kvHalvesMatch => exact h.execKvHalvesMatch
  | kvPageLanded => exact h.execKvPageLanded
  | kvTransferTimeout => exact h.execKvTransferTimeout
  | kvTransferEnd => exact h.execKvTransferEnd
  | slbind => exact h.slbindWrite
  | funcStore => exact h.execFuncStore
  | preempt => exact h.preemptWrite
  | stopComplete => exact h.execStopComplete
  | freeze => exact h.execFreeze
  | ctxopSave | ctxopHold | ctxopRestore | ctxopResume => exact h.ctxopWrite
  | contextSaveDone => exact h.execContextSaveDone
  | contextRestoreDone => exact h.execContextRestoreDone
  | epbindDetach => exact h.execEpbindDetach
  | epbindAttach => exact h.execEpbindAttach
  | slfree => exact h.slfreeTurn
  | fnfree => exact h.execFnfree
  | keyctlLoad => exact h.execKeyctlLoad
  | keyctlErase => exact h.execKeyctlErase
  | debugUnlock => exact h.dbgctlWrite
  | relbase => exact h.relbaseWrite
  | reltail => exact h.reltailWrite
  | relovf => exact h.relovfWrite
  | relhead => exact h.execRelhead
  | rstkbase => exact h.putCore
  | spdmMessage => exact h.spdm
  | operatorCommand => exact h.operatorCommand
  | imageWrite => exact h.execImageWrite
  | tenantKeyDelivery => exact h.tenantKey
  | switchAttach => exact h.attach
  | switchReadmit => exact h.readmit
  | readmitNotice => exact h.execReadmitNotice
  | lockstepMismatch => exact h.execLockstepMismatch
  | workerTimeout => exact h.execWorkerTimeout
  | thermalThrottle | powerThrottle => exact h.throttle
  | taggedWaitWithdrawal => exact h.execTaggedWaitWithdrawal
  | patrolScrub => exact h.execPatrolScrub
  | lifecycleChange => exact h.execLifecycleChange

/-! ### One turn -/

theorem State.Inv.turn (h : s.Inv) : s.turn.Inv := by
  unfold State.turn
  extract_lets s1
  have h1 : s1.Inv := h.tick
  split
  · exact h1.coreTurn
  · extract_lets s2
    have h2 : s2.Inv := h1
    refine State.Inv.coreTurn ?_
    split
    · exact h2.wake
    · exact h2
  · exact State.Inv.ringTurn h1
  · exact h1
  · exact .slfreeTurn h1

/-! ### One step -/

theorem State.Inv.step (h : s.Inv) : Out.Inv (step s) := by
  unfold Machine.step
  split
  · exact (h.turn.exec ‹_›).exec
  · exact h.turn.idle ‹_›

end Sys2Proof.Machine
end

section
open Sys2Proof.Machine

/-- Settles O59: a step is a turn and then at most one instruction, and each of the two keeps the invariant. -/
theorem everyStepKeepsTheInvariant : Obligations.EveryStepKeepsTheInvariant := by
  unfold Obligations.EveryStepKeepsTheInvariant
  intro s t h e
  exact h.step.next e

end

section
/-!
SUPPORT. An instruction whose guard is false ends at once, as one that completes (R7, R103, R116).
-/
namespace Sys2Proof.Machine

/-- State.guarded_false with guarded evaluated: exec of each guarded instruction unfolds to this form. -/
theorem next_ite_of_pred_false {s : State} {g : BitVec 3} (h : s.pred g = false) (t : State) :
    (.next (if s.pred g then t else s.finish) : Out) = .next s.finish := State.guarded_false h fun _ => t

/-- Every instruction that carries a guard reads it before anything else: by cases on the instruction. -/
theorem exec_of_guard_false {i : Instr} {s : State} (h : i.guard.map s.pred = some false) : exec i s = .next s.finish := by
  unfold exec
  cases i with
  | addI64 | subI64 | mulI64 | mulhI64 | mulhW64 | divI64 | divW64 | remI64 | andW64 | orW64 | xorW64 | shlI64 | shrW64 | sraI64
  | cmpEqI64 | cmpNeI64 | cmpLtI64 | cmpGeI64 | cmpLtW64 | cmpGeW64 | pand | por | pxor | pandn | pset | pget
  | addiI64 | andiW64 | oriW64 | xoriW64 | shliI64 | shriW64 | sraiI64 | lea | bxlen | jr | ret | loop
  | ldW8 | ldW16 | ldW32 | ldW64 | ldI8 | ldI32 | stW8 | stW16 | stW32 | stW64 | ldAcqW32 | ldAcqW64 | stRelW32 | stRelW64
  | amoAddW64 | amoMinI64 | amoMaxI64 | amoAndW64 | amoOrW64 | amoXorW64 | amoXchgW64 | amoCasW64 | fence | fenceR | rld
  | setshapeV | setshapeM | asnap | tstat | swalloc | swfree | swquota | rft | endThread | csrr | csrw | resume | qreset
  | tinvPg1 | tinvRg1 | tinvAll1 | tinvPg2 | tinvRg2 | tinvAll2 | einj | takeIb | commitIb | attest =>
    exact next_ite_of_pred_false (Option.some.inj h) _
  | _ => nomatch h

end Sys2Proof.Machine
end

section
open Sys2Proof.Machine

/-- Settles O4: a false guard leaves only the end of the instruction, which changes nothing but the place in the program. -/
theorem falseGuardHasNoEffect : Obligations.FalseGuardHasNoEffect := by
  unfold Obligations.FalseGuardHasNoEffect
  intro i g s hi hg
  have h : i.guard.map s.pred = some false := by rw [hi, Option.map_some, hg]
  exact ⟨s.finish, exec_of_guard_false h, s.finish_advances, s.finish_place⟩

end

section
/-!
SUPPORT. What the end of an instruction leaves of the slices, and what becomes of a group's barriers when a member leaves.
-/
namespace Sys2Proof.Machine

@[simp] theorem State.finish_slice (s : State) (j : Nat) : s.finish.slice j = s.slice j := by
  unfold State.slice
  rw [s.finish_only.1]

@[simp] theorem Slice.group_setBar (sl : Slice) (b g : Nat) (x : SliceBar) : (sl.setBar b x).group g = sl.group g := rfl

@[simp] theorem Slice.bar_setBar (sl : Slice) (b j : Nat) (x : SliceBar) : (sl.setBar b x).bar j = if j = b then x else sl.bar j := by
  simp [Slice.bar, Slice.setBar]

@[simp] theorem Slice.group_tryComplete (sl : Slice) (b g : Nat) : (sl.tryComplete b).group g = sl.group g := by
  unfold Slice.tryComplete
  dsimp only
  split <;> rfl

/-- Completion looks at the group of the barrier's number modulo 64 (R240). -/
theorem Slice.bar_tryComplete (sl : Slice) (b j : Nat) : (sl.tryComplete b).bar j =
    if j = b ∧ (sl.bar b).arr ≠ [] ∧ (sl.group (b % 64)).all (sl.bar b).arr.has = true then
      { gen := (sl.bar b).gen + 1, arr := [], rels := (sl.bar b).rels }
    else sl.bar j := by
  unfold Slice.tryComplete
  simp only [Bool.and_eq_true, decide_eq_true_eq]
  split
  next hc => simp [hc]
  next hc => rw [if_neg fun h => hc h.2]

/-- Both barriers of one of the 64 groups as a member leaves it (R239): what GroupsAndBarriers says of leave, where the group is one that a
word can name. -/
theorem Slice.bar_leaveGroup {sl : Slice} {g core b : Nat} (hg : g < 64) (hb : b = g ∨ b = g + 64) (hm : (sl.group g).has core = true) :
    (sl.leaveGroup g core).bar b =
      if (sl.bar b).arr.del core ≠ [] ∧ ((sl.group g).del core).all ((sl.bar b).arr.del core).has = true then
        { gen := (sl.bar b).gen + 1, arr := [], rels := (sl.bar b).rels }
      else { sl.bar b with arr := (sl.bar b).arr.del core } := by
  have h1 : g % 64 = g := Nat.mod_eq_of_lt hg
  have h2 : (g + 64) % 64 = g := by omega
  have hgroup : Slice.group { sl with groups := Tab.put sl.groups g ((sl.group g).del core) } g = (sl.group g).del core := by
    simp [Slice.group]
  have hbar : ∀ j, Slice.bar { sl with groups := Tab.put sl.groups g ((sl.group g).del core) } j = sl.bar j := fun _ => rfl
  rcases hb with rfl | rfl <;> simp [Slice.leaveGroup, hm, Slice.bar_tryComplete, hgroup, hbar, h1, h2]

end Sys2Proof.Machine
end

section
/-!
SUPPORT. The state that refutes GroupsAndBarriers. A barrier is bound to the group of its number modulo 64 (R240), and leave completes a
generation when its arrivals cover that group. The two are one group only for a group below 64: the statement also speaks of leave g64 and
above, whose words trap in decoding with 0x03 (R239) and which are no well-formed instructions, and there it compares with the wrong group.
-/
namespace Sys2Proof.Machine

/-- Core 0 and core 2 in a table entry 64, past the 64 groups there are, and core 1 in group 0, to which barrier 64 is bound. -/
def strayGroup : Slice := { groups := [(0, [1]), (64, [0, 2])], bars := [(64, { arr := [2] })] }

/-- The acting core 0 runs a thread of the slice. -/
def strayMember : State := { slices := [(0, strayGroup)], cores := [(0, { slice := some 0 })] }

/-- Core 2 has arrived, core 1 of group 0 has not: the generation does not complete as core 0 leaves. -/
theorem bar_leaveGroup_strayGroup : (strayGroup.leaveGroup 64 0).bar 64 = { arr := [2] } := by decide

theorem exec_leave_strayMember : exec (.leave 64) strayMember = .next (strayMember.putSlice 0 (strayGroup.leaveGroup 64 0)).finish := rfl

end Sys2Proof.Machine
end

section
open Sys2Proof.Machine

/-- Refutes O21: leave of a group number above 63, of which every remaining member has arrived, does not complete the generation of the
barrier of that number, whose group is another (R240). -/
theorem not_groupsAndBarriers : ¬ Obligations.GroupsAndBarriers := by
  unfold Obligations.GroupsAndBarriers
  rintro ⟨hmembers, -⟩
  obtain ⟨hthread, -⟩ := hmembers strayMember 0 64 0 0
  obtain ⟨-, t, ht, -, hbar, -⟩ := hthread rfl rfl rfl
  obtain ⟨-, hcompletes, -⟩ := hbar 64 (.inl rfl)
  have hstays : (t.slice 0).bar 64 = { arr := [2] } := by
    rw [exec_leave_strayMember] at ht
    cases ht
    simpa using bar_leaveGroup_strayGroup
  exact absurd (hstays.symm.trans (hcompletes rfl (by decide) (by decide))) (by decide)

end

section
/-!
SUPPORT. The state that refutes GraphsAndThreadsRun: an event of the Weaver or the scheduler whose package has 4,096 requests outstanding to one node stands
back until there is room (R281). The statement says so of no event: its clauses of COPY_NODE_RETIRE, PACK_PLACEMENT_DONE and SCHED_BOUNDARY
have no premise that the Border has room. The counterexample takes the second.
-/
namespace Sys2Proof.Machine

/-- A placement that meets a full Border is tried again later. -/
theorem execPackPlacementDone_of_borderFull {s : State} {node slice req : Nat} {r : Request}
    (hr : (s.slice (skOf node slice)).reqs.get? req = some r) (hf : r.state = .fetch) (hs : (s.slice (skOf node slice)).stop = .running)
    (hb : s.borderFull node = true) :
    execPackPlacementDone node slice req s = .next (s.wake (.event (.packPlacementDone node slice req))) := by
  simp [execPackPlacementDone, hr, hf, hs, hb]

/-- With room at the Border the request is READY once its pack is placed: what GraphsAndThreadsRun says, with the premise that it lacks. -/
theorem execPackPlacementDone_of_room {s u : State} {node slice req : Nat} {r : Request}
    (hr : (s.slice (skOf node slice)).reqs.get? req = some r) (hf : r.state = .fetch) (hs : (s.slice (skOf node slice)).stop = .running)
    (hb : s.borderFull node = false) (hp : s.placePack (skOf node slice) r = (.ok (), u)) :
    ∃ t, execPackPlacementDone node slice req s = .next t ∧
      (t.slice (skOf node slice)).reqs.get? req = some { r with state := .ready } ∧ t.mem = u.mem := by
  simp [execPackPlacementDone, hr, hf, hs, hb, hp]

/-- A store of core 0 on its way to node 1. -/
def onTheWay : Posted :=
  { seq := 0, core := 0, thread := 0, func := 0, fw := false, release := false, counts := false, va := 0, pa := 2 ^ 48, alt := none, sent := 0
    stamps := [], size := 8, value := 0, index := 0, sends := 0, enc := false, chk := false }

/-- A request without a pack, whose placement is due. -/
def fetching : Request :=
  { slot := 0, prio := 0, pack := none, prompt := 0, maxNew := 0, inbuf := 0, outbuf := 0, kvlist := 0, state := .fetch, order := 0
    processed := 0, generated := 0, pos0 := 0, cancel := false, seq := 0, tag := 0, ep := 0 }

/-- Slice 0 of package 0 has the request, and stores of the package are on their way to node 1. -/
def sending (stores : List Posted) : State :=
  { nodes := [1], slices := [(0, { reqs := [(0, fetching)] })], pkgs := [(0, { outstanding := [(1, stores)] })] }

theorem sending_borderFull {stores : List Posted} (h : 4096 ≤ stores.length) : (sending stores).borderFull 0 = true := by
  have hflight : 4096 ≤ (sending stores).inFlight 0 1 := by
    unfold State.inFlight
    exact Nat.le_add_right_of_le (Nat.le_add_right_of_le h)
  exact List.any_eq_true.2 ⟨1, List.mem_singleton_self 1, by simp [hflight]⟩

end Sys2Proof.Machine
end

section
open Sys2Proof.Machine

/-- Refutes O50: with 4,096 requests of its package outstanding to a node (R281), PACK_PLACEMENT_DONE leaves the request in FETCH. -/
theorem not_graphsAndThreadsRun : ¬ Obligations.GraphsAndThreadsRun := by
  unfold Obligations.GraphsAndThreadsRun
  intro h
  have hfull : (sending (List.replicate 4096 onTheWay)).borderFull 0 = true := sending_borderFull (Nat.le_of_eq List.length_replicate.symm)
  obtain ⟨-, -, -, -, -, -, -, -, -, hpack, -⟩ := h (sending (List.replicate 4096 onTheWay)) 0 0 0 0
  obtain ⟨t, ht, hready, -⟩ := hpack 0 fetching _ rfl rfl rfl rfl
  rw [exec_packPlacementDone, execPackPlacementDone_of_borderFull rfl rfl rfl hfull] at ht
  cases ht
  rw [State.wake_slice] at hready
  exact absurd hready (by decide)

end

section
open Sys2Proof.Machine

/-- Settles O60: the tables of the reset state are empty, so every core, slice, package and inbox reads as its default. -/
theorem resetLeavesAnEmptyPod : Obligations.ResetLeavesAnEmptyPod := by
  unfold Obligations.ResetLeavesAnEmptyPod
  exact ⟨State.reset_Inv, fun _ _ _ _ => ⟨rfl, rfl, rfl, rfl, rfl, rfl, rfl, rfl, rfl, rfl, rfl⟩⟩

end

section
/-!
SUPPORT. take.ib and commit.ib (R28): what either answers, one equation per case; of the state, taking a command changes its entry and the
list of commands in hand, and both are kept in the package.
-/
namespace Sys2Proof.Machine

theorem fld_low {w : Nat} (x : BitVec w) (n : Nat) : x.fld 0 n = x.toNat % 2 ^ n := by simp [BitVec.fld]

/-- A trap that names the instruction reports its word (R6). -/
theorem State.wordTrap_trapped {s : State} (hc : s.CanTrap) (h : s.Inv) (cause : Nat) (i : Instr) :
    Trapped s (s.wordTrap cause i) cause (wordOf i) s.pc := State.trap_trapped hc h cause (wordOf i)

/-! ### The inbox of a function -/

@[simp] theorem State.inbox_setInbox (s : State) (node f : Nat) (b : Inbox) : (s.setInbox node f b).inbox node f = b := by
  simp [State.inbox, State.setInbox]

/-- The list of commands in hand stands beside the inboxes. -/
@[simp] theorem State.inbox_putPkg_taken (s : State) (node n f : Nat) (l : List (Nat × Nat × Nat)) :
    (s.putPkg node { s.pkg node with taken := l }).inbox n f = s.inbox n f := by
  unfold State.inbox
  rw [State.pkg_putPkg]
  split
  next hn => rw [hn]
  next => rfl

theorem OnlyMe.inbox {s t : State} (h : OnlyMe s t) (node f : Nat) : t.inbox node f = s.inbox node f := by rw [h.1]; rfl

/-! ### take.ib -/

/-- VALID, REPRISE, SEQ and the place of the entry, as take.ib answers them (R28). -/
def takenWord (f : Nat) (e : InboxEntry) : W64 :=
  BitVec.ofNat 64 (2 ^ 63 + (if e.reprise then 2 ^ 62 else 0) + e.seq * 65536 + f * 256 + e.seq % 256)

theorem State.takeEntry_of_none {s : State} {node f : Nat} (h : (s.inbox node f).eligible = none) : s.takeEntry node f = (0, s) := by
  simp [State.takeEntry, h]

/-- A command that firmware carries out and does not have in hand yet comes into its hand. -/
theorem State.takeEntry_of_eligible {s : State} {node f i : Nat} {e : InboxEntry} (hf : 1 ≤ f) (hf' : f ≤ 36)
    (hi : (s.inbox node f).eligible = some (i, e)) (hop : firmwareOp e.op = true) (hw : e.wellFormed = true) (hh : e.inhand = false) :
    ∃ u, s.takeEntry node f = (takenWord f e, u) ∧ u = { s with pkgs := u.pkgs } ∧
      (u.inbox node f).entries.get? i = some { e with inhand := true } := by
  have h0 : f ≠ 0 := by omega
  have h36 : ¬36 < f := by omega
  simp only [State.takeEntry, hi, hop, hw, hh, h0, h36, decide_false, Bool.not_true, Bool.or_self, Bool.false_eq_true, if_false]
  refine ⟨_, rfl, ?_, ?_⟩
  · split <;> rfl
  · split <;> simp

theorem execTakeIb_of_firmware {s : State} {g : BitVec 3} (hg : s.pred g = true) (hf : s.asFirmware = true) (d a : BitVec 5) {v : W64} {u : State}
    (h : s.takeEntry s.node ((s.reg a).toNat % 64) = (v, u)) : execTakeIb d a g s = .next (u.setNext d v) := by
  rw [execTakeIb, State.guarded_true hg]
  simp [hf, fld_low, h, State.setNext]

/-! ### commit.ib -/

theorem State.commitHand_of_none {s : State} {node f i : Nat} (h : (s.inbox node f).entries.get? i = none) (v : W64) :
    s.commitHand node f i v = (false, s) := by
  simp [State.commitHand, h]

theorem State.commitHand_of_inhand {s : State} {node f i : Nat} {e : InboxEntry} (hf : f ≤ 36) (h : (s.inbox node f).entries.get? i = some e)
    (hh : e.inhand = true) (v : W64) :
    s.commitHand node f i v =
      (true, (s.commitEntry node f i e (v.toNat % 256) (BitVec.ofNat 64 (v.toNat / 256))).runInbox node f) := by
  simp [State.commitHand, h, hh, hf, fld_low]

theorem execCommitIb_of_firmware {s : State} {g : BitVec 3} (hg : s.pred g = true) (hf : s.asFirmware = true) (d a b : BitVec 5) {ok : Bool}
    {u : State} (h : s.commitHand s.node ((s.reg a).toNat / 256 % 64) ((s.reg a).toNat % 256) (s.reg b) = (ok, u)) :
    execCommitIb d a b g s = .next (u.setNext d (if ok then 1 else 0)) := by
  have hfunc : (s.reg a).fld 8 6 = (s.reg a).toNat / 256 % 64 := rfl
  rw [execCommitIb, State.guarded_true hg]
  simp [hf, hfunc, fld_low, h, State.setNext]

/-! ### On a core of a tenant -/

/-- Each of the two traps on a core that is not of the firmware complex. -/
theorem exec_inbox_privileged {s : State} {g : BitVec 3} {d a b : BitVec 5} {i : Instr} (hg : s.pred g = true) (hf : isFirmware s.cur = false)
    (hi : i ∈ [Instr.takeIb d a g, .commitIb d a b g]) : exec i s = .next (s.wordTrap 0x11 i) := by
  have has : s.asFirmware = false := by simp [State.asFirmware, hf]
  simp only [List.mem_cons, List.not_mem_nil, or_false] at hi
  rcases hi with rfl | rfl
  · rw [exec_takeIb, execTakeIb, State.guarded_true hg]
    simp [has]
  · rw [exec_commitIb, execCommitIb, State.guarded_true hg]
    simp [has]

end Sys2Proof.Machine
end

section
open Sys2Proof.Machine

/-- Settles O28, case by case: the answer goes to the destination as any result does, behind what the inbox has done. -/
theorem firmwareTakesAndCommitsCommands : Obligations.FirmwareTakesAndCommitsCommands := by
  unfold Obligations.FirmwareTakesAndCommitsCommands
  intro s d a b g hg f
  refine ⟨?takes, ?noneToTake, ?noEntry, ?commits, ?traps⟩
  case takes =>
    intro i e hfw hf hf' hi hop hw hh
    obtain ⟨u, htake, hu, hentry⟩ := State.takeEntry_of_eligible hf hf' hi hop hw hh
    obtain ⟨hregs, hadvances, honly, -⟩ := u.setNext_result d (takenWord f e)
    have hme : u.me = s.me := by rw [hu]; rfl
    refine ⟨_, (exec_takeIb ..).trans (execTakeIb_of_firmware hg hfw d a htake), ?_, ?_, ?_, ?_⟩
    · rw [honly.mem, hu]
    · simpa [Advances, State.pc, hme] using hadvances
    · intro q
      rw [hregs q, State.reg, hme]
      rfl
    · rw [honly.inbox]
      exact hentry
  case noneToTake =>
    intro hfw hi
    exact ⟨_, (exec_takeIb ..).trans (execTakeIb_of_firmware hg hfw d a (State.takeEntry_of_none hi)), s.setNext_result d 0⟩
  case noEntry =>
    intro hfw he
    exact ⟨_, (exec_commitIb ..).trans (execCommitIb_of_firmware hg hfw d a b (State.commitHand_of_none he _)), s.setNext_result d 0⟩
  case commits =>
    intro e hfw hf he hh
    exact ⟨_, _, (exec_commitIb ..).trans (execCommitIb_of_firmware hg hfw d a b (State.commitHand_of_inhand hf he hh _)),
      State.setNext_result _ d 1, rfl⟩
  case traps =>
    intro hf hc hinv i hi
    exact ⟨_, exec_inbox_privileged hg hf hi, State.wordTrap_trapped hc hinv 0x11 i⟩

end

section
/-!
SUPPORT. What becomes of a command message (R26), and the state that refutes CommandsAreCarriedOut. The inbox of a slice that is stopped and
saved for a migration stores its commands, which move with the image, and delivers none (R326); the statement says of every slice that is not
held that its command is delivered. It lacks two more premises: a slice in teardown drops the message (R333), and a package whose boot has
failed answers none (R337). With the three premises it holds (exec_commandMessage_delivers).
-/
namespace Sys2Proof.Machine

/-! ### A message at an attached endpoint -/

/-- The entry as which a command of good form is stored (R26, Table 3.1). -/
def storedCommand (host seq op : Nat) (tag : W64) (p : List W64) : InboxEntry :=
  { seq := seq, op := op, tag := tag, ep := host, hdr := BitVec.ofNat 64 (seq * 2 ^ 32 + op * 2 ^ 24 + p.length * 2 ^ 16), payload := p
    wellFormed := true }

theorem execCommandMessage_of_attached {s : State} {node func ep host seq op sk : Nat} {tag : W64} {p : List W64} (h0 : 0 < func)
    (h37 : func < 37) (hsk : s.sliceOfFunc node func = some sk) (hstop : (s.slice sk).stop ≠ .ending) (hawait : (s.slice sk).await = false)
    (hep : (s.pkg node).endpoints.get? ep = some func) (hboot : s.bootFailed node = false) (hop : op < 256) (hp : p.length ≤ 62)
    (hseq : seq < 2 ^ 32) :
    execCommandMessage node func ep host seq op p.length 0 (p.length * 8 + 16) tag p s =
      .next (s.arrive node func (storedCommand host seq op tag p)) := by
  have hlen : p.length % 256 = p.length := Nat.mod_eq_of_lt (by omega)
  have hreceived : (decide (p.length * 8 + 16 < 16) || decide (36 < func) || s.bootFailed node) = false := by
    rw [decide_eq_false (by omega), decide_eq_false (by omega), hboot]
    rfl
  have hattached : ((s.slice sk).stop == .ending || decide (s.funcAt node ep ≠ some func)) = false := by
    rw [beq_eq_false_iff_ne.2 hstop, State.funcAt, hep, decide_eq_false (not_not_intro rfl)]
    rfl
  simp only [execCommandMessage, storedCommand, Nat.mod_eq_of_lt hseq, Nat.mod_eq_of_lt hop, hlen, Nat.zero_mod, Nat.add_zero,
    List.take_of_length_le hp, decide_eq_true hp, beq_self_eq_true, Bool.and_self, hreceived, Bool.false_eq_true, if_false, Nat.ne_of_gt h0, hsk,
    hattached, hawait]

/-- The command that comes next in sequence, where the inbox is empty, is stored at its place of the window. -/
theorem State.arrive_of_next {s : State} {node func : Nat} {e : InboxEntry} (hnext : (s.inbox node func).next = e.seq)
    (hempty : (s.inbox node func).entries = []) :
    s.arrive node func e = ((s.entryBytes node func (e.seq % 256) e).setInbox node func
      { s.inbox node func with entries := [(e.seq % 256, e)] }).runInbox node func := by
  have hd : seqDiff e.seq e.seq = 0 := by unfold seqDiff; omega
  simp [State.arrive, hnext, hempty, hd, Tab.put]

/-! ### An inbox that delivers nothing, and one that delivers -/

theorem State.runInbox_of_held {s : State} {node func : Nat} (h : s.inboxHeld node func = true) : s.runInbox node func = s := by
  simp [State.runInbox, h]

theorem State.inboxHeld_eq {s : State} {node func sk : Nat} (h : s.sliceOfFunc node func = some sk) :
    s.inboxHeld node func = ((s.slice sk).stop == .held || (s.slice sk).kept) := by
  simp [State.inboxHeld, h]

@[simp] theorem State.inboxHeld_setInbox (s : State) (node func n f : Nat) (b : Inbox) :
    (s.setInbox node func b).inboxHeld n f = s.inboxHeld n f := rfl

theorem Inbox.deliver_of_absent {b : Inbox} (h : b.entries.get? (b.next % 256) = none) (n : Nat) : b.deliver n = b := by
  cases n with
  | zero => rfl
  | succ n => simp [Inbox.deliver, h]

/-- The next command in sequence is delivered, and none behind it. -/
theorem Inbox.deliver_single {b : Inbox} {e : InboxEntry} (hb : b.entries = [(e.seq % 256, e)]) (hnext : b.next = e.seq)
    (hd : e.delivered = false) (n : Nat) :
    b.deliver (n + 1) = { b with entries := [(e.seq % 256, { e with delivered := true })], next := (e.seq + 1) % 2 ^ 32 } := by
  have habsent : (e.seq + 1) % 256 ≠ e.seq % 256 := by omega
  rw [Inbox.deliver]
  simp only [hb, hnext, Tab.get?, Tab.put, hd, if_true, Nat.lt_irrefl, if_false, Bool.not_false, decide_true, Bool.and_self]
  rw [Inbox.deliver_of_absent]
  simp [Tab.get?, habsent]

theorem hardwareOp_of_firmwareOp {op : Nat} (h : firmwareOp op = true) : hardwareOp op = false := by
  simp only [firmwareOp, List.mem_cons, List.not_mem_nil, or_false, decide_eq_true_eq] at h
  rcases h with rfl | rfl | rfl | rfl | rfl | rfl <;> decide

/-- The inbox itself carries out no command that firmware takes (R27). -/
theorem State.serve_of_firmware {s : State} {node func i : Nat} {e : InboxEntry} (hf : func ≠ 0)
    (hi : (s.inbox node func).eligible = some (i, e)) (hw : e.wellFormed = true) (hop : firmwareOp e.op = true) (n : Nat) :
    s.serve node func n = s := by
  have hnone : s.inboxAnswer node func e = none := by simp [State.inboxAnswer, hf, hw, hop, hardwareOp_of_firmwareOp hop]
  cases n with
  | zero => rfl
  | succ n => simp [State.serve, hi, hnone]

/-- An inbox that delivers and holds the next command alone, one for firmware: the command is delivered, and waits to be taken. -/
theorem State.runInbox_of_single {s : State} {node func : Nat} {e : InboxEntry} (hf : func ≠ 0) (hheld : s.inboxHeld node func = false)
    (hb : (s.inbox node func).entries = [(e.seq % 256, e)]) (hnext : (s.inbox node func).next = e.seq) (hd : e.delivered = false)
    (hw : e.wellFormed = true) (hop : firmwareOp e.op = true) :
    s.runInbox node func = s.setInbox node func
      { s.inbox node func with entries := [(e.seq % 256, { e with delivered := true })], next := (e.seq + 1) % 2 ^ 32 } := by
  rw [State.runInbox, hheld, if_neg Bool.false_ne_true, Inbox.deliver_single hb hnext hd 255]
  exact State.serve_of_firmware hf (i := e.seq % 256) (e := { e with delivered := true }) (by simp [Inbox.eligible]) hw hop 512

/-- What CommandsAreCarriedOut says of a command message, with the premises that it lacks. -/
theorem exec_commandMessage_delivers {s : State} {node func ep host seq op sk : Nat} {tag : W64} {p : List W64} (h0 : 0 < func)
    (h37 : func < 37) (hsk : s.sliceOfFunc node func = some sk) (hheld : (s.slice sk).stop ≠ .held) (hkept : (s.slice sk).kept = false)
    (hending : (s.slice sk).stop ≠ .ending) (hawait : (s.slice sk).await = false) (hboot : s.bootFailed node = false)
    (hep : (s.pkg node).endpoints.get? ep = some func) (hop : firmwareOp op = true) (hp : p.length ≤ 62)
    (hempty : (s.inbox node func).entries = []) (hnext : (s.inbox node func).next = seq) (hseq : seq < 2 ^ 32)
    (hafter : (s.entryBytes node func (seq % 256) (storedCommand host seq op tag p)).sliceOfFunc node func = some sk) :
    ∃ t, exec (.commandMessage node func ep host seq op p.length 0 (p.length * 8 + 16) tag p) s = .next t ∧
      (t.inbox node func).next = (seq + 1) % 2 ^ 32 ∧
      (t.inbox node func).entries = [(seq % 256, { storedCommand host seq op tag p with delivered := true })] := by
  have hop256 : op < 256 := by
    simp only [firmwareOp, List.mem_cons, List.not_mem_nil, or_false, decide_eq_true_eq] at hop
    omega
  have hdelivers : (s.entryBytes node func (seq % 256) (storedCommand host seq op tag p)).inboxHeld node func = false := by
    rw [State.inboxHeld_eq hafter]
    simp [State.entryBytes, hheld, hkept]
  refine ⟨_, (exec_commandMessage ..).trans (execCommandMessage_of_attached h0 h37 hsk hending hawait hep hboot hop256 hp hseq), ?_⟩
  rw [State.arrive_of_next hnext hempty, State.runInbox_of_single (e := storedCommand host seq op tag p) (Nat.ne_of_gt h0)]
  · simp [storedCommand]
  · exact hdelivers
  · simp [storedCommand]
  · rw [State.inbox_setInbox]
    exact hnext
  · rfl
  · rfl
  · exact hop

/-! ### A slice that is stopped and saved for a migration -/

/-- Slice 0 of package 0 is bound for function 1, has been stopped and saved, and endpoint 5 is still attached to the function. -/
def migrating : State :=
  { mem := [(ctl 0 0x10007, 4)], slices := [(0, { bound := true, stop := .stopped, saved := some 0, kept := true })]
    pkgs := [(0, { booted := true, endpoints := [(5, 1)] })] }

/-- The first command of function 1: SLOT_QUERY of slot 0. -/
def slotQuery : InboxEntry := storedCommand 0 0 0x03 0 [0]

theorem migrating_sliceOfFunc : migrating.sliceOfFunc 0 1 = some 0 := by decide

/-- The entry's bytes leave the binding record as it stands. -/
theorem migrating_stored_sliceOfFunc : (migrating.entryBytes 0 1 0 slotQuery).sliceOfFunc 0 1 = some 0 := by decide

/-- The command is stored, and NEXT stays: nothing is delivered. -/
theorem exec_commandMessage_migrating : exec (.commandMessage 0 1 5 0 0 0x03 1 0 24 0 [0]) migrating =
    .next ((migrating.entryBytes 0 1 0 slotQuery).setInbox 0 1 { entries := [(0, slotQuery)] }) := by
  have hheld : (migrating.entryBytes 0 1 0 slotQuery).inboxHeld 0 1 = true := State.inboxHeld_eq migrating_stored_sliceOfFunc
  calc exec (.commandMessage 0 1 5 0 0 0x03 1 0 24 0 [0]) migrating
    _ = .next (migrating.arrive 0 1 slotQuery) := (exec_commandMessage ..).trans
      (execCommandMessage_of_attached (p := [0]) (by decide) (by decide) migrating_sliceOfFunc (by decide) rfl rfl rfl (by decide) (by decide)
        (by decide))
    _ = .next (((migrating.entryBytes 0 1 0 slotQuery).setInbox 0 1 { entries := [(0, slotQuery)] }).runInbox 0 1) :=
      congrArg _ (State.arrive_of_next rfl rfl)
    _ = .next ((migrating.entryBytes 0 1 0 slotQuery).setInbox 0 1 { entries := [(0, slotQuery)] }) :=
      congrArg _ (State.runInbox_of_held hheld)

end Sys2Proof.Machine
end

section
open Sys2Proof.Machine

/-- Refutes O49: the inbox of a slice that is stopped and saved stores its next command and does not deliver it (R326), so NEXT stays 0. -/
theorem not_commandsAreCarriedOut : ¬ Obligations.CommandsAreCarriedOut := by
  unfold Obligations.CommandsAreCarriedOut
  rintro ⟨hmessage, -⟩
  obtain ⟨t, ht, hnext, -⟩ := hmessage migrating 0 1 5 0 0 0x03 1 24 0 0 [0] {} (by decide) (by decide) migrating_sliceOfFunc (by decide) rfl rfl
    (by decide) (by decide) rfl rfl rfl rfl rfl (by decide) migrating_stored_sliceOfFunc
  rw [exec_commandMessage_migrating] at ht
  cases ht
  rw [State.inbox_setInbox] at hnext
  exact absurd hnext (by decide)

end

section
/-!
SUPPORT. setshape (R49 to R54): what it leaves of the acting core, what Definition grant of R51 gives, and the fields of the words that it
writes (Table 4.4).
-/
namespace Sys2Proof.Machine

/-- A shape register takes a word and a scalar register the granted extent, and the next instruction follows. -/
def State.setShapeNext (s : State) (n : BitVec 3) (v : W64) (d : BitVec 5) (x : W64) : State := (s.setShape n v).setNext d x

@[simp] theorem State.setShape_me (s : State) (n : BitVec 3) (v : W64) :
    (s.setShape n v).me = { s.me with sh := s.me.sh.set n.toNat v n.isLt } := s.me_setMe _

theorem State.setShapeNext_me (s : State) (n : BitVec 3) (v : W64) (d : BitVec 5) (x : W64) :
    let t := s.setShapeNext n v d x
    t.me = { s.me with
      s := t.me.s, sh := s.me.sh.set n.toNat v n.isLt, pc := t.me.pc, loops := t.me.loops, watchdog := t.me.watchdog } := by
  obtain ⟨-, -, -, hme⟩ := (s.setShape n v).setNext_result d x
  rw [State.setShape_me] at hme
  exact hme

@[simp] theorem State.setShapeNext_sh (s : State) (n : BitVec 3) (v : W64) (d : BitVec 5) (x : W64) :
    (s.setShapeNext n v d x).me.sh = s.me.sh.set n.toNat v n.isLt := by rw [State.setShapeNext_me]

/-- What both forms of setshape have in common: all of ShapesAreGranted but the fields of the word. -/
theorem State.setShapeNext_result (s : State) (n : BitVec 3) (v : W64) (d : BitVec 5) (x : W64) :
    let t := s.setShapeNext n v d x
    OnlyMe s t ∧ Advances s t ∧ t.me.sh[n.toNat]'n.isLt = v ∧ (∀ q, t.reg q = if q = d ∧ q ≠ 0 then x else s.reg q) ∧
      t.me = { s.me with
        s := t.me.s, sh := s.me.sh.set n.toNat v n.isLt, pc := t.me.pc, loops := t.me.loops, watchdog := t.me.watchdog } := by
  obtain ⟨hreg, hadv, honly, -⟩ := (s.setShape n v).setNext_result d x
  have hpc : (s.setShape n v).pc = s.pc := by simp [State.pc]
  have hregs (q : BitVec 5) : (s.setShape n v).reg q = s.reg q := by simp [State.reg, Core.reg]
  refine ⟨(OnlyMe.setMe s _).trans honly, fun hl => ?_, by simp, fun q => ?_, s.setShapeNext_me n v d x⟩
  · rw [← hpc]
    exact hadv (by simpa using hl)
  · rw [← hregs]
    exact hreg q

/-! ### grant (R51) -/

/-- Where the maximum is a multiple of the granule, the padded extent is the granted one, rounded up. -/
theorem grantOf_eq {max gran : Nat} (hg : 0 < gran) (hd : gran ∣ max) (x : Nat) :
    grantOf x max gran = (min max x, (min max x + gran - 1) / gran * gran) := by
  unfold grantOf
  split
  next h =>
    obtain ⟨k, rfl⟩ := hd
    have hround : (gran * k + gran - 1) / gran = k := by
      rw [Nat.add_sub_assoc hg, Nat.mul_add_div hg, Nat.div_eq_of_lt (by omega), Nat.add_zero]
    rw [Nat.min_eq_left h, hround, Nat.mul_comm k]
  next h => rw [Nat.min_eq_right (by omega)]

/-- The padded extent of a granted one does not exceed the maximum either. -/
theorem roundUp_le {max gran x : Nat} (hg : 0 < gran) (hd : gran ∣ max) (h : x ≤ max) : (x + gran - 1) / gran * gran ≤ max := by
  obtain ⟨k, rfl⟩ := hd
  have hk : (x + gran - 1) / gran < k + 1 := (Nat.div_lt_iff_lt_mul hg).2 (by rw [Nat.add_mul, Nat.mul_comm k]; omega)
  rw [Nat.mul_comm gran k]
  exact Nat.mul_le_mul_right gran (by omega)

/-! ### The words (Table 4.4) -/

/-- The word of a vector shape of a format, with its granted and padded lanes. -/
def vectorShape (f lp lg : Nat) : W64 := BitVec.ofNat 64 (2 ^ 63 + f * 2 ^ 56 + lp * 2 ^ 10 + lg)

theorem vectorShape_fields {f lp lg : Nat} (hf : f < 2 ^ 5) (hp : lp < 2 ^ 10) (hl : lg < 2 ^ 10) :
    let v := vectorShape f lp lg
    v.fld 63 1 = 1 ∧ v.fld 62 1 = 0 ∧ v.fld 61 1 = 0 ∧ v.fld 56 5 = f ∧ shLGR v = lg ∧ shLPAD v = lp := by
  simp only [vectorShape, shLGR, shLPAD, BitVec.fld, BitVec.toNat_ofNat]
  omega

/-- The word of a matrix shape of a format, with its granted and padded extents. -/
def matrixShape (f kp kg np ng mp mg : Nat) : W64 :=
  BitVec.ofNat 64 (2 ^ 63 + 2 ^ 61 + f * 2 ^ 56 + kp * 2 ^ 42 + kg * 2 ^ 32 + np * 2 ^ 24 + ng * 2 ^ 16 + mp * 2 ^ 8 + mg)

theorem matrixShape_fields {f kp kg np ng mp mg : Nat} (hf : f < 2 ^ 5) (hkp : kp < 2 ^ 10) (hkg : kg < 2 ^ 10) (hnp : np < 2 ^ 8)
    (hng : ng < 2 ^ 8) (hmp : mp < 2 ^ 8) (hmg : mg < 2 ^ 8) :
    let v := matrixShape f kp kg np ng mp mg
    v.fld 63 1 = 1 ∧ v.fld 62 1 = 0 ∧ v.fld 61 1 = 1 ∧ shFMT v = f ∧ shMGR v = mg ∧ shMPAD v = mp ∧ shNGR v = ng ∧ shNPAD v = np ∧
      shKGR v = kg ∧ shKPAD v = kp := by
  simp only [matrixShape, shFMT, shMGR, shMPAD, shNGR, shNPAD, shKGR, shKPAD, BitVec.fld, BitVec.toNat_ofNat]
  omega

/-! ### The limits (Tables 4.2 and 4.3, R54) -/

theorem laneLimits_of_mem {f max gran : Nat} (h : (f, max, gran) ∈ [(0x10, 512, 64), (0x11, 256, 32), (0x12, 128, 16)]) :
    vectorCode f = true ∧ laneLimits f = (max, gran) ∧ f < 2 ^ 5 ∧ max < 2 ^ 10 ∧ 0 < gran ∧ gran ∣ max := by
  simp only [List.mem_cons, List.not_mem_nil, or_false, Prod.mk.injEq] at h
  rcases h with ⟨rfl, rfl, rfl⟩ | ⟨rfl, rfl, rfl⟩ | ⟨rfl, rfl, rfl⟩ <;> decide

theorem State.nMax_le (s : State) : s.nMax ≤ 64 := by
  unfold State.nMax
  split <;> decide

theorem State.dvd_nMax (s : State) : 8 ∣ s.nMax := by
  unfold State.nMax
  split <;> decide

/-! ### The two instructions -/

theorem execSetshapeV_of_pos {s : State} {g : BitVec 3} (hg : s.pred g = true) (d : BitVec 5) (n : BitVec 3) {a b : BitVec 5} {max gran : Nat}
    (hf : vectorCode b.toNat = true) (hlim : laneLimits b.toNat = (max, gran)) (h0 : 0 < gran) (hd : gran ∣ max) (ha : s.reg a ≠ 0) :
    let L := min max (s.reg a).toNat
    execSetshapeV d a b g n s =
      .next (s.setShapeNext n (vectorShape b.toNat ((L + gran - 1) / gran * gran) L) d (BitVec.ofNat 64 L)) := by
  have ha' : (s.reg a).toNat ≠ 0 := fun h => ha (BitVec.eq_of_toNat_eq h)
  rw [execSetshapeV, State.guarded_true hg]
  simp only [hf, ha', hlim, grantOf_eq h0 hd, Bool.not_true, Bool.false_eq_true, if_false]
  rfl

theorem execSetshapeV_of_otherCode {s : State} {g : BitVec 3} (hg : s.pred g = true) (d : BitVec 5) (n : BitVec 3) {a b : BitVec 5}
    (hf : vectorCode b.toNat = false) : execSetshapeV d a b g n s = .next (s.trap 0x33 (BitVec.ofNat 64 b.toNat)) := by
  rw [execSetshapeV, State.guarded_true hg]
  simp [hf]

theorem execSetshapeV_of_zero {s : State} {g : BitVec 3} (hg : s.pred g = true) (d : BitVec 5) (n : BitVec 3) {a b : BitVec 5}
    (hf : vectorCode b.toNat = true) (ha : s.reg a = 0) : execSetshapeV d a b g n s = .next (s.trap 0x34 (BitVec.ofNat 64 a.toNat)) := by
  rw [execSetshapeV, State.guarded_true hg]
  simp [hf, ha]

/-- At bf16 (0x01). -/
theorem execSetshapeM_of_pos {s : State} {g : BitVec 3} (hg : s.pred g = true) (d : BitVec 5) (n : BitVec 3) {a : BitVec 5}
    (hm : 0 < (s.reg a).toNat) (hc : 0 < (s.reg (a + 1)).toNat) (hk : 0 < (s.reg (a + 2)).toNat) :
    let M := min 128 (s.reg a).toNat
    let N := min s.nMax (s.reg (a + 1)).toNat
    let K := min 128 (s.reg (a + 2)).toNat
    execSetshapeM d a 0x01 g n s =
      .next (s.setShapeNext n (matrixShape 0x01 ((K + 15) / 16 * 16) K ((N + 7) / 8 * 8) N ((M + 7) / 8 * 8) M) d (BitVec.ofNat 64 K)) := by
  have hcode : matrixCode (0x01 : BitVec 5).toNat = true := rfl
  have hlim : kLimits (0x01 : BitVec 5).toNat = (128, 16) := rfl
  rw [execSetshapeM, State.guarded_true hg]
  simp only [hcode, hlim, Nat.ne_of_gt hm, Nat.ne_of_gt hc, Nat.ne_of_gt hk, Bool.not_true, Bool.false_eq_true, if_false,
    grantOf_eq (max := 128) (gran := 8) (by decide) (by decide), grantOf_eq (max := 128) (gran := 16) (by decide) (by decide),
    grantOf_eq (by decide) s.dvd_nMax]
  rfl

theorem execSetshapeM_of_zero {s : State} {g : BitVec 3} (hg : s.pred g = true) (d : BitVec 5) (n : BitVec 3) {a : BitVec 5}
    (hm : (s.reg a).toNat = 0) : execSetshapeM d a 0x01 g n s = .next (s.trap 0x34 (BitVec.ofNat 64 a.toNat)) := by
  have hcode : matrixCode (0x01 : BitVec 5).toNat = true := rfl
  rw [execSetshapeM, State.guarded_true hg]
  simp only [hcode, hm, Bool.not_true, Bool.false_eq_true, if_false, if_true]

end Sys2Proof.Machine
end

section
open Sys2Proof.Machine

/-- Settles O22: the extents are rounded up within maxima that are multiples of their granules, so every field fits its place in the word. -/
theorem shapesAreGranted : Obligations.ShapesAreGranted := by
  unfold Obligations.ShapesAreGranted
  refine ⟨fun s d a b g n hg => ⟨fun F max gran hF hb ha => ?_, fun hf hc hi => ?_, fun hf ha hc hi => ?_⟩, fun s d a g n hg _ => ?_⟩
  · subst hb
    obtain ⟨hf, hlim, hf5, hmax, h0, hd⟩ := laneLimits_of_mem hF
    have hL : min max (s.reg a).toNat ≤ max := Nat.min_le_left ..
    obtain ⟨honly, hadv, hsh, hreg, hme⟩ := s.setShapeNext_result n _ d _
    refine ⟨_, (exec_setshapeV ..).trans (execSetshapeV_of_pos hg d n hf hlim h0 hd ha), honly, hadv, ?_⟩
    rw [hsh]
    obtain ⟨h63, h62, h61, h56, hlg, hlp⟩ := vectorShape_fields hf5 (Nat.lt_of_le_of_lt (roundUp_le h0 hd hL) hmax) (Nat.lt_of_le_of_lt hL hmax)
    exact ⟨h63, h62, h61, h56, hlg, hlp, hreg, hme⟩
  · exact ⟨_, (exec_setshapeV ..).trans (execSetshapeV_of_otherCode hg d n hf), State.trap_trapped hc hi ..⟩
  · exact ⟨_, (exec_setshapeV ..).trans (execSetshapeV_of_zero hg d n hf ha), State.trap_trapped hc hi ..⟩
  · refine ⟨fun hm hc hk => ?_, fun hm hc hi => ?_⟩
    · have hM : min 128 (s.reg a).toNat ≤ 128 := Nat.min_le_left ..
      have hN : min s.nMax (s.reg (a + 1)).toNat ≤ s.nMax := Nat.min_le_left ..
      have hK : min 128 (s.reg (a + 2)).toNat ≤ 128 := Nat.min_le_left ..
      have hmax := s.nMax_le
      have hMpad := roundUp_le (gran := 8) (by decide) (by decide) hM
      have hNpad := roundUp_le (by decide) s.dvd_nMax hN
      have hKpad := roundUp_le (gran := 16) (by decide) (by decide) hK
      obtain ⟨honly, hadv, hsh, hreg, hme⟩ := s.setShapeNext_result n _ d _
      refine ⟨_, (exec_setshapeM ..).trans (execSetshapeM_of_pos hg d n hm hc hk), honly, hadv, ?_⟩
      rw [hsh]
      obtain ⟨h63, h62, h61, hfmt, hmg, hmp, hng, hnp, hkg, hkp⟩ := matrixShape_fields (f := 0x01) (by decide)
        (Nat.lt_of_le_of_lt hKpad (by decide)) (Nat.lt_of_le_of_lt hK (by decide)) (Nat.lt_of_le_of_lt hNpad (by omega))
        (Nat.lt_of_le_of_lt hN (by omega)) (Nat.lt_of_le_of_lt hMpad (by decide)) (Nat.lt_of_le_of_lt hM (by decide))
      exact ⟨h63, h62, h61, hfmt, hmg, hmp, hng, hnp, hkg, hkp, hreg, hme⟩
    · exact ⟨_, (exec_setshapeM ..).trans (execSetshapeM_of_zero hg d n hm), State.trap_trapped hc hi ..⟩

end

section
/-!
SUPPORT. SLFREE of a slice that is not bound, and the state that refutes SlicesAreBoundStoppedAndMoved. The statement says that STATUS 2 is
answered at once (R333). A turn of SLFREE looks first whether the slice is being torn down with stores of its cores on their way, and waits
then (step 5 of R333), bound or not. The model's own operations do not make such a slice: SLFREE begins with bound slices alone and takes the
slice away at its end. But the statement assumes of the state only the invariant, which does not exclude it.
-/
namespace Sys2Proof.Machine

@[simp] theorem State.pcsr_setPcsr_same (s : State) (node n : Nat) (v : W64) : (s.setPcsr node n v).pcsr node n = v := by
  simp [State.pcsr, State.setPcsr]

/-- A STATUS reads back. -/
theorem State.setStatus_fld (s : State) (node n : Nat) {status : Nat} (h : status < 2 ^ 8) (v : W64) :
    ((s.setStatus node n status v).pcsr node n).fld 56 8 = status := by
  rw [State.setStatus, State.pcsr_setPcsr_same, BitVec.fld, BitVec.toNat_ofNat]
  omega

@[simp] theorem State.wake_pcsr (s : State) (h : Happening) (node n : Nat) : (s.wake h).pcsr node n = s.pcsr node n := by
  simp [State.pcsr]

theorem State.slfreeStart_of_unbound {s : State} {node : Nat} {v : W64} (hb : (s.slice (skOf node (v.fld 0 6))).bound = false) :
    s.slfreeStart node v = s := by
  simp [State.slfreeStart, hb]

theorem State.slfreeWaits_of_not_ending {s : State} {node n : Nat} (h : (s.slice (skOf node n)).stop ≠ .ending) :
    s.slfreeWaits node n = false := by
  simp [State.slfreeWaits, h]

/-- What SlicesAreBoundStoppedAndMoved says of SLFREE of a slice that is not bound, with the premise that it lacks. -/
theorem exec_slfree_of_unbound {s : State} {node : Nat} {w : W64} (hb : (s.slice (skOf node (w.fld 0 6))).bound = false)
    (hstop : (s.slice (skOf node (w.fld 0 6))).stop ≠ .ending) :
    ∃ t, exec (.slfree node w) s = .next t ∧ (t.pcsr node 0x107).fld 56 8 = 2 ∧ t.slices = s.slices ∧ t.mem = s.mem := by
  have hturn : s.slfreeTurn node w = s.setStatus node 0x107 2 (BitVec.ofNat 64 (w.fld 0 6)) := by
    simp [State.slfreeTurn, State.slfreeStart_of_unbound hb, State.slfreeWaits_of_not_ending hstop, State.slfreeWrite, hb]
  refine ⟨_, exec_slfree .., ?_⟩
  rw [hturn]
  exact ⟨s.setStatus_fld node 0x107 (by decide) _, rfl, rfl⟩

/-- A teardown with stores on their way stays. -/
theorem exec_slfree_of_unbound_waits {s : State} {node : Nat} {w : W64} (hb : (s.slice (skOf node (w.fld 0 6))).bound = false)
    (hwaits : s.slfreeWaits node (w.fld 0 6) = true) : exec (.slfree node w) s = .next (s.wake (.teardown node w)) := by
  rw [exec_slfree, execSlfree, State.slfreeTurn, State.slfreeStart_of_unbound hb, if_pos hwaits]

/-- Slice 0 of package 0 has quad 0, is not bound and is being torn down; a store of its core 0 is on its way. -/
def endingUnbound : State :=
  { mem := [(ctl 0 0x10002, 1)], slices := [(0, { stop := .ending })], pkgs := [(0, { outstanding := [(1, [onTheWay])] })] }

theorem endingUnbound_slfreeWaits : endingUnbound.slfreeWaits 0 ((0 : W64).fld 0 6) = true := by decide

theorem exec_slfree_endingUnbound : exec (.slfree 0 0) endingUnbound = .next (endingUnbound.wake (.teardown 0 0)) :=
  exec_slfree_of_unbound_waits (by decide) endingUnbound_slfreeWaits

end Sys2Proof.Machine
end

section
open Sys2Proof.Machine

/-- Refutes O53: SLFREE of a slice that is not bound, but is being torn down with a store on its way, writes no STATUS. -/
theorem not_slicesAreBoundStoppedAndMoved : ¬ Obligations.SlicesAreBoundStoppedAndMoved := by
  unfold Obligations.SlicesAreBoundStoppedAndMoved
  intro h
  obtain ⟨-, -, -, -, -, -, -, -, -, -, hfree⟩ := h endingUnbound 0 0 0 ⟨by decide, by decide⟩ (by decide)
  obtain ⟨hunbound, -⟩ := hfree 0 rfl
  obtain ⟨⟨t, ht, hstatus, -⟩, -⟩ := hunbound rfl
  rw [exec_slfree_endingUnbound] at ht
  cases ht
  rw [State.wake_pcsr] at hstatus
  exact absurd hstatus (by decide)

end

section
/-!
SUPPORT. The state that refutes CoresAndHomesHaveEvents. Every course of a cause also advances the cause's counter (R299, R314), and so the
watchdog counts 0xD0 before it ends the thread (R249). The statement's clause of WATCHDOG_EXPIRE ends the thread of a state in which nothing
has been counted: the two differ in the counter's byte in the control region.
-/
namespace Sys2Proof.Machine

/-- An expired watchdog counts its cause and ends what the core runs: what CoresAndHomesHaveEvents says, with the count that it lacks. -/
theorem exec_watchdogExpire_of_overdue {s : State} {node core : Nat} (hrun : (s.core (node * 256 + core)).run = .running)
    (hslice : (s.core (node * 256 + core)).slice.isSome = true) (hzero : (s.core (node * 256 + core)).watchdog = 0) :
    exec (.watchdogExpire node core) s =
      .next ((s.count node 0xD0).endOf (node * 256 + core) 0xD0 (s.core (node * 256 + core)).pc 0 0xD0) := by
  simp [exec_watchdogExpire, execWatchdogExpire, hrun, hslice, hzero]

/-- Core 0 of package 0 runs a thread of slice 0 whose watchdog has reached zero; the record ring is disabled. -/
def overdue : State := { cores := [(0, { run := .running, slice := some 0 })] }

/-- The end of the thread itself writes no memory. -/
theorem endOf_overdue_mem : (overdue.endOf 0 0xD0 0 0 0xD0).mem = [] := by decide +kernel

/-- Behind the count, the counter of 0xD0 stands at 1. -/
theorem endOf_count_overdue_mem : ((overdue.count 0 0xD0).endOf 0 0xD0 0 0 0xD0).mem = [(ctl 0 (0x200000 + 8 * 0xD0), 1)] := by decide +kernel

end Sys2Proof.Machine
end

section
open Sys2Proof.Machine

/-- Refutes O51: an expired watchdog advances the counter of 0xD0 (R299, R314), which the statement leaves as it was. -/
theorem not_coresAndHomesHaveEvents : ¬ Obligations.CoresAndHomesHaveEvents := by
  unfold Obligations.CoresAndHomesHaveEvents
  intro h
  obtain ⟨-, -, -, -, -, -, hwatchdog, -⟩ := h overdue 0 0
  have hexpire := hwatchdog rfl rfl rfl
  rw [exec_watchdogExpire_of_overdue rfl rfl rfl] at hexpire
  have hmem := congrArg State.mem (Host.Outcome.next.inj hexpire)
  exact absurd (endOf_count_overdue_mem.symm.trans (hmem.trans endOf_overdue_mem)) (by decide)

end

section
/-!
SUPPORT. The matrix unit that a slot-writing epilogue form leaves (R195): the granted elements of a slot written, its status bits joined, its
pass count and CKV cleared. Each form without a fault leaves this one unit, for its own function of the elements.
-/
namespace Sys2Proof.Machine

/-! ### Tables and states written twice -/

theorem Tab.put_put_same {α : Type} (t : Tab α) (a : Nat) (v w : α) : Tab.put (Tab.put t a v) a w = Tab.put t a w := by
  induction t with
  | nil => simp [Tab.put]
  | cons e t ih =>
    obtain ⟨k, x⟩ := e
    rcases Nat.lt_trichotomy a k with hlt | rfl | hgt
    · simp [Tab.put, hlt]
    · simp [Tab.put]
    · simp [Tab.put, Nat.not_lt.2 (Nat.le_of_lt hgt), Nat.ne_of_gt hgt, ih]

@[simp] theorem State.setMe_setMe (s : State) (c d : Core) : (s.setMe c).setMe d = s.setMe d := by
  simp [State.setMe, State.putCore, Tab.put_put_same]

/-- A unit that a form writes before its end makes way for the one at its end. -/
theorem State.matDone_setMe (s : State) (u v : MatUnit) : (s.setMe { s.me with mat := u }).matDone v = s.matDone v := by
  simp [State.matDone]

@[simp] theorem MatUnit.slot_setSlot (u : MatUnit) (i : Nat) (x : Slot) : (u.setSlot i x).slot i = x := by
  simp [MatUnit.slot, MatUnit.setSlot]

@[simp] theorem MatUnit.setSlot_setSlot (u : MatUnit) (i : Nat) (x y : Slot) : (u.setSlot i x).setSlot i y = u.setSlot i y := by
  simp [MatUnit.setSlot]

/-! ### The granted elements of a shape (R182) -/

theorem mem_granted {sh : W64} {m n : Nat} : (m, n) ∈ granted sh ↔ m < shMGR sh ∧ n < shNGR sh := by
  simp [granted]

/-- The pairs of two ranges, row by row, are numbered by row times width plus column. -/
theorem flatMap_range_pairs (M N : Nat) :
    ((List.range M).flatMap fun m => (List.range N).map fun n => (m, n)) = (List.range (M * N)).map fun i => (i / N, i % N) := by
  induction M with
  | zero => simp
  | succ M ih =>
    have hrow : (List.range N).map (fun n => (M, n)) = ((List.range N).map (M * N + ·)).map fun i => (i / N, i % N) := by
      rw [List.map_map]
      refine List.map_congr_left fun n hn => ?_
      have hlt := List.mem_range.1 hn
      have hdiv : (M * N + n) / N = M := by
        rw [Nat.mul_comm, Nat.mul_add_div (Nat.zero_lt_of_lt hlt), Nat.div_eq_of_lt hlt, Nat.add_zero]
      have hmod : (M * N + n) % N = n := by rw [Nat.mul_add_mod', Nat.mod_eq_of_lt hlt]
      simp [hdiv, hmod]
    simp only [List.range_succ, List.flatMap_append, ih, List.flatMap_singleton, hrow, Nat.succ_mul, List.range_add, List.map_append]

theorem length_granted (sh : W64) : (granted sh).length = shMGR sh * shNGR sh := by
  simp [granted, flatMap_range_pairs]

/-- A list of one value for each granted element, row by row. -/
theorem map_granted_getD {sh : W64} {l : List Nat} (h : l.length = shMGR sh * shNGR sh) :
    ((granted sh).map fun p => l.getD (p.1 * shNGR sh + p.2) 0) = l := by
  rw [granted, flatMap_range_pairs, List.map_map, ← h]
  refine List.ext_getElem (by simp) fun i _ hi => ?_
  simp [Nat.div_add_mod', hi]

theorem length_unpackBytes (w n : Nat) (bs : List Byte) : (unpackBytes w n bs).length = n := by
  unfold unpackBytes
  generalize leNat bs = x
  induction n generalizing x with
  | zero => rfl
  | succ n ih => rw [unpackBits, List.length_cons, ih]

/-! ### The granted elements of a slot take new values -/

/-- The slot with the value g m n in its element (m, n), for each pair of a list. -/
def Slot.putEach (sl : Slot) (l : List (Nat × Nat)) (g : Nat → Nat → Nat) : Slot :=
  { sl with elems := l.foldl (fun t p => Tab.put t (p.1 * 64 + p.2) (BitVec.ofNat 32 (g p.1 p.2))) sl.elems }

theorem Slot.foldl_put (sl : Slot) (l : List (Nat × Nat)) (g : Nat → Nat → Nat) :
    l.foldl (fun x p => x.put p.1 p.2 (g p.1 p.2)) sl = sl.putEach l g := by
  induction l generalizing sl with
  | nil => rfl
  | cons p l ih => exact ih _

theorem Slot.foldl_put_map (sl : Slot) (l : List (Nat × Nat)) (g : Nat → Nat → Nat) :
    (l.map fun p => (p, g p.1 p.2)).foldl (fun (x : Slot) q => x.put q.1.1 q.1.2 q.2) sl = sl.putEach l g := by
  rw [List.foldl_map, ← Slot.foldl_put]

/-- Pairs with columns below 64 have places of their own: an element of the list takes its value. -/
theorem getD_foldl_put_of_mem {l : List (Nat × Nat)} {g : Nat → Nat → Nat} {m n : Nat} (hl : ∀ p ∈ l, p.2 < 64) (hn : n < 64) {t : Tab W32}
    (h : (m, n) ∈ l ∨ Tab.getD t (m * 64 + n) 0 = BitVec.ofNat 32 (g m n)) :
    Tab.getD (l.foldl (fun t p => Tab.put t (p.1 * 64 + p.2) (BitVec.ofNat 32 (g p.1 p.2))) t) (m * 64 + n) 0 = BitVec.ofNat 32 (g m n) := by
  induction l generalizing t with
  | nil => exact h.resolve_left List.not_mem_nil
  | cons p l ih =>
    obtain ⟨a, b⟩ := p
    have hb : b < 64 := hl (a, b) List.mem_cons_self
    refine ih (fun q hq => hl q (List.mem_cons_of_mem _ hq)) ?_
    by_cases hp : m * 64 + n = a * 64 + b
    · obtain ⟨rfl, rfl⟩ : m = a ∧ n = b := by omega
      simp
    · rcases h with h | h
      · rcases List.mem_cons.1 h with h | h
        · cases h
          exact absurd rfl hp
        · exact .inl h
      · exact .inr (by simpa [hp] using h)

/-- A place of none of the pairs keeps its value. -/
theorem getD_foldl_put_of_ne {l : List (Nat × Nat)} {g : Nat → Nat → Nat} {k : Nat} {t : Tab W32} (h : ∀ p ∈ l, k ≠ p.1 * 64 + p.2) :
    Tab.getD (l.foldl (fun t p => Tab.put t (p.1 * 64 + p.2) (BitVec.ofNat 32 (g p.1 p.2))) t) k 0 = Tab.getD t k 0 := by
  induction l generalizing t with
  | nil => rfl
  | cons p l ih =>
    rw [List.foldl_cons, ih fun q hq => h q (List.mem_cons_of_mem _ hq), Tab.getD_put, if_neg (h p List.mem_cons_self)]

/-- A slot whose granted elements have taken the values g, put back into its unit. -/
theorem slotTakes_setSlot {u : MatUnit} {sh : W64} {c : BitVec 3} {g : Nat → Nat → Nat} {x : Slot} (hN : shNGR sh ≤ 64)
    (hx : x.elems = ((u.slot c.toNat).putEach (granted sh) g).elems) : SlotTakes u (u.setSlot c.toNat x) sh c.toNat g := by
  refine ⟨rfl, rfl, rfl, fun i hi => ?_, fun m n hm hn => ?_, fun k hk => ?_⟩
  · have hne : (Fin.ofNat 8 c.toNat).val ≠ i.val := by
      rw [Fin.val_ofNat, Nat.mod_eq_of_lt c.isLt]
      exact hi.symm
    exact Vector.getElem_set_ne (Fin.isLt _) i.isLt hne
  · rw [MatUnit.slot_setSlot, hx]
    exact getD_foldl_put_of_mem (fun p hp => Nat.lt_of_lt_of_le (mem_granted.1 hp).2 hN) (Nat.lt_of_lt_of_le hn hN) (.inl (mem_granted.2 ⟨hm, hn⟩))
  · rw [MatUnit.slot_setSlot, hx]
    exact getD_foldl_put_of_ne fun p hp => hk p.1 p.2 (mem_granted.1 hp).1 (mem_granted.1 hp).2

/-! ### The end of an epilogue form -/

theorem Slot.overflowed_false (sl : Slot) (now : Nat) : sl.overflowed now false = sl := by
  simp [Slot.overflowed, Slot.join]

/-- The values of a slot's granted elements. -/
def Slot.values (sl : Slot) (sh : W64) : List Nat := (granted sh).map fun p => sl.at_ p.1 p.2

/-- The matrix unit that an epilogue form leaves which gives the granted elements of slot c the values g, has read the values of a list, and
has overflowed or not. -/
def State.epilogueUnit (s : State) (c : BitVec 3) (g : Nat → Nat → Nat) (read : List Nat) (ovf : Bool) : MatUnit :=
  let sh := (s.entry 1).shape
  let sl := (((s.me.mat.slot c.toNat).overflowed s.clock ovf).putEach (granted sh) g).examine s.clock
    (read ++ (granted sh).map fun p => g p.1 p.2)
  s.me.mat.setSlot c.toNat { sl with pass := 0, ckv := false }

theorem State.epilogueUnit_done {s : State} {c : BitVec 3} {g : Nat → Nat → Nat} {read : List Nat} {ovf : Bool}
    (hN : shNGR (s.entry 1).shape ≤ 64) :
    EpilogueDone s (.next (s.matDone (s.epilogueUnit c g read ovf))) c.toNat g read ovf := by
  refine ⟨_, rfl, slotTakes_setSlot hN rfl, ?_⟩
  simp [State.epilogueUnit, Slot.examine, Slot.overflowed, Slot.putEach, Slot.join]

theorem State.epilogue_eq (s : State) (c : BitVec 3) (extra : List Nat) (f : Nat → Nat → Nat → Nat) :
    s.epilogue c extra f = s.matDone (s.epilogueUnit c (fun m n => f m n ((s.me.mat.slot c.toNat).at_ m n))
      ((s.me.mat.slot c.toNat).values (s.entry 1).shape ++ extra) false) := by
  unfold State.epilogue State.epilogueEnd State.epilogueNew State.epilogueUnit
  simp only [Slot.foldl_put_map _ _ fun m n => f m n ((s.me.mat.slot c.toNat).at_ m n), Slot.overflowed_false, List.map_map]
  rfl

/-- The forms that multiply or add end like the others where no fault is in store for the epilogue (R307). -/
theorem State.residue_healthy {s : State} (h : s.Healthy 3) (c : BitVec 3) (extra : List Nat) (f : Nat → Nat → Nat → Nat) :
    s.residue c extra f = s.epilogue c extra f := by
  simp [State.residue, State.epilogueFault, State.upset, State.takeUpset_healthy h, State.epilogue]

/-- An epilogue form without a check gives each granted element f of it. -/
theorem State.epilogue_done {s : State} {c : BitVec 3} (extra : List Nat) {f : Nat → Nat → Nat → Nat} (hN : shNGR (s.entry 1).shape ≤ 64) :
    EpilogueDone s (.next (s.epilogue c extra f)) c.toNat (fun m n => f m n ((s.me.mat.slot c.toNat).at_ m n))
      ((s.me.mat.slot c.toNat).values (s.entry 1).shape ++ extra) false := by
  rw [State.epilogue_eq]
  exact State.epilogueUnit_done hN

/-- A form that reads nothing beside the slot. -/
theorem State.epilogue_done_nil {s : State} {c : BitVec 3} {f : Nat → Nat → Nat → Nat} (hN : shNGR (s.entry 1).shape ≤ 64) :
    EpilogueDone s (.next (s.epilogue c [] f)) c.toNat (fun m n => f m n ((s.me.mat.slot c.toNat).at_ m n))
      ((s.me.mat.slot c.toNat).values (s.entry 1).shape) false := by
  simpa using State.epilogue_done [] hN

/-- An overflow noted in the slot beforehand joins its bits, and changes no element. -/
theorem State.epilogue_overflowed (s : State) (c : BitVec 3) (ovf : Bool) (f : Nat → Nat → Nat → Nat) :
    (s.setMe { s.me with mat := s.me.mat.setSlot c.toNat ((s.me.mat.slot c.toNat).overflowed s.clock ovf) }).epilogue c [] f =
      s.matDone (s.epilogueUnit c (fun m n => f m n ((s.me.mat.slot c.toNat).at_ m n)) ((s.me.mat.slot c.toNat).values (s.entry 1).shape) ovf) := by
  have hat : ∀ m n, ((s.me.mat.slot c.toNat).overflowed s.clock ovf).at_ m n = (s.me.mat.slot c.toNat).at_ m n := fun _ _ => rfl
  rw [State.epilogue_eq, State.matDone_setMe, List.append_nil]
  simp [State.epilogueUnit, State.entry, State.ring, Core.ring, Slot.overflowed_false, Slot.values, hat]

/-! ### Each form -/

theorem exec_macc_healthy {s : State} (h : s.Healthy 3) (b c sh : BitVec 3) :
    exec (.macc b c sh) s = .next (s.epilogue c ((s.me.mat.slot b.toNat).values (s.entry 1).shape)
      fun m n e => addF 0 e ((s.me.mat.slot b.toNat).at_ m n)) := by
  rw [exec_macc, execMacc, State.residue_healthy h]
  rfl

theorem exec_mescale_healthy {s : State} (h : s.Healthy 3) (c sh : BitVec 3) :
    exec (.mescale c sh) s = .next (s.epilogue c [] fun _ _ e => mulF 0 e ((s.entry 1).capa.toNat % 2 ^ 32)) := by
  rw [exec_mescale, execMescale, State.residue_healthy h]

theorem exec_meact_healthy {s : State} (h : s.Healthy 3) (c sh : BitVec 3) (x : BitVec 4) :
    exec (.meact c sh x) s = .next (s.epilogue c [] fun _ _ e => actF x.toNat e) := by
  simp [exec_meact, execMeact, State.upset, State.takeUpset_healthy h]

/-- The state that a pad read leaves is the one it began in: then the vector at CAPA is at hand. -/
theorem State.vector32_eq {s : State} {n : Nat} {bs : List Byte}
    (h : s.padRead 1 (span ((s.entry 1).capa.toNat % 2 ^ 22) (4 * n)) = .ok bs s) : s.vector32 n = .ok (unpackBytes 32 n bs) s := by
  rw [State.vector32, h]

theorem exec_mescv_healthy {s : State} (h : s.Healthy 3) (c sh : BitVec 3) {v : List Nat}
    (hv : s.vector32 (shNGR (s.entry 1).shape) = .ok v s) :
    exec (.mescv c sh) s = .next (s.epilogue c [] fun _ n e => mulF 0 e (v.getD n 0)) := by
  rw [exec_mescv, execMescv, hv, Res.run, State.residue_healthy h]

theorem exec_mebias_healthy {s : State} (h : s.Healthy 3) (c sh : BitVec 3) {v : List Nat}
    (hv : s.vector32 (shNGR (s.entry 1).shape) = .ok v s) :
    exec (.mebias c sh) s = .next (s.epilogue c [] fun _ n e => addF 0 e (v.getD n 0)) := by
  rw [exec_mebias, execMebias, hv, Res.run, State.residue_healthy h]

/-- mecvt notes an overflow in the slot first, and then ends like the others. -/
theorem exec_mecvt_eq (c sh : BitVec 3) (t : BitVec 1) (r : BitVec 2) (f : BitVec 5) (s : State) :
    let fm := (fmtOf f.toNat).getD f32
    let conv (m n : Nat) := fm.convert r.toNat (t == 1) (v32 ((s.me.mat.slot c.toNat).at_ m n))
    exec (.mecvt c sh t r f) s = .next (s.matDone (s.epilogueUnit c (fun m n => f32.round 0 (fm.value (conv m n).1))
      ((s.me.mat.slot c.toNat).values (s.entry 1).shape) ((granted (s.entry 1).shape).any fun p => (conv p.1 p.2).2))) := by
  rw [exec_mecvt, execMecvt]
  dsimp only
  rw [State.epilogue_overflowed]

/-- mldacc takes the values that it reads as they stand, and reads nothing of the slot. -/
theorem exec_mldacc_eq {s : State} (c sh : BitVec 3) {bs : List Byte} :
    let shape := (s.entry 1).shape
    let vs := unpackBytes 32 (shMGR shape * shNGR shape) bs
    s.padRead 1 ((granted shape).flatMap fun p => span ((s.entry 1).capa.toNat % 2 ^ 22 + 4 * (p.1 * shNPAD shape + p.2)) 4) = .ok bs s →
    exec (.mldacc c sh) s = .next (s.matDone (s.epilogueUnit c (fun m n => vs.getD (m * shNGR shape + n) 0) [] false)) := by
  intro shape vs hread
  have hvs : (granted shape).map (fun p => vs.getD (p.1 * shNGR shape + p.2) 0) = vs := map_granted_getD (length_unpackBytes ..)
  have hzip : (granted shape).zip vs = (granted shape).map fun p => (p, vs.getD (p.1 * shNGR shape + p.2) 0) := by
    rw [List.map_prod_left_eq_zip, hvs]
  rw [exec_mldacc, execMldacc, hread]
  simp only [Res.run, length_granted, State.epilogueUnit, Slot.overflowed_false, List.nil_append]
  rw [hvs, hzip, Slot.foldl_put_map _ _ fun m n => vs.getD (m * shNGR shape + n) 0]

/-- mzero clears the status bits with the elements, and both checksums. -/
theorem exec_mzero_done {s : State} (c sh : BitVec 3) (hN : shNGR (s.entry 1).shape ≤ 64) :
    ∃ v, exec (.mzero c sh) s = .next (s.matDone v) ∧ SlotTakes s.me.mat v (s.entry 1).shape c.toNat (fun _ _ => 0) ∧
      (v.slot c.toNat).pass = 0 ∧ (v.slot c.toNat).ckv = true ∧ (v.slot c.toNat).rows = [] ∧ (v.slot c.toNat).cols = [] ∧
      (v.slot c.toNat).nan = false ∧ (v.slot c.toNat).inf = false ∧ (v.slot c.toNat).ovf = false := by
  rw [exec_mzero, execMzero]
  simp only [Slot.foldl_put _ _ fun _ _ => 0]
  refine ⟨_, rfl, slotTakes_setSlot hN rfl, ?_⟩
  simp [Slot.putEach, Slot.clearBits]

end Sys2Proof.Machine
end

section
open Sys2Proof.Machine

/-- Settles O40: each form leaves the one unit of a slot-writing epilogue form for its own function (R195), and mzero its own. -/
theorem epiloguesWriteTheSlot : Obligations.EpiloguesWriteTheSlot := by
  unfold Obligations.EpiloguesWriteTheSlot
  intro s b c sh t r f x hs hN
  refine ⟨?macc, ?mescale, ?meact, ?meclamp, ?mecvt, fun bs hbs => ?vector, fun bs hbs => ?mldacc, exec_mzero_done c sh hN⟩
  case macc =>
    rw [exec_macc_healthy hs]
    exact State.epilogue_done _ hN
  case mescale =>
    rw [exec_mescale_healthy hs]
    exact State.epilogue_done_nil hN
  case meact =>
    rw [exec_meact_healthy hs]
    exact State.epilogue_done_nil hN
  case meclamp =>
    rw [exec_meclamp]
    exact State.epilogue_done_nil hN
  case mecvt =>
    rw [exec_mecvt_eq]
    exact State.epilogueUnit_done hN
  case vector =>
    have hv := State.vector32_eq hbs
    rw [exec_mescv_healthy hs c sh hv, exec_mebias_healthy hs c sh hv]
    exact ⟨State.epilogue_done_nil hN, State.epilogue_done_nil hN⟩
  case mldacc =>
    rw [exec_mldacc_eq c sh hbs]
    exact State.epilogueUnit_done hN

end

section
/-!
SUPPORT. The rings of the acting core: reading one after writing it or another.
-/
namespace Sys2Proof.Machine

@[simp] theorem Core.ring_setRing_same (c : Core) (r : Nat) (x : Ring) : (c.setRing r x).ring r = x := by
  unfold Core.setRing Core.ring
  split
  · rfl
  · split <;> rfl

theorem Core.ring_setRing_ne (c : Core) {r o : Nat} (hr : r < 3) (ho : o < 3) (h : o ≠ r) (x : Ring) : (c.setRing r x).ring o = c.ring o := by
  obtain rfl | rfl | rfl : r = 0 ∨ r = 1 ∨ r = 2 := by omega
  · simp [Core.setRing, Core.ring, h]
  · simp [Core.setRing, Core.ring, h]
  · obtain rfl | rfl : o = 0 ∨ o = 1 := by omega
    · rfl
    · rfl

theorem Core.setRing_eq (c : Core) (r : Nat) (x : Ring) :
    c.setRing r x = { c with vring := (c.setRing r x).vring, mring := (c.setRing r x).mring, cring := (c.setRing r x).cring } := by
  unfold Core.setRing
  split
  · rfl
  · split <;> rfl

@[simp] theorem Core.setRing_tokens (c : Core) (r : Nat) (x : Ring) : (c.setRing r x).tokens = c.tokens := by rw [Core.setRing_eq]
@[simp] theorem Core.setRing_token (c : Core) (r : Nat) (x : Ring) (k : Nat) : (c.setRing r x).token k = c.token k := by simp [Core.token]

@[simp] theorem State.setRing_me (s : State) (r : Nat) (x : Ring) : (s.setRing r x).me = s.me.setRing r x := by simp [State.setRing]
@[simp] theorem State.setRing_mem (s : State) (r : Nat) (x : Ring) : (s.setRing r x).mem = s.mem := rfl
@[simp] theorem State.ring_setRing_same (s : State) (r : Nat) (x : Ring) : (s.setRing r x).ring r = x := by
  simp [State.ring, State.setRing]

end Sys2Proof.Machine
end

section
/-!
SUPPORT. The vector entries of blocks, ports and partition (R161, R162, R173, R174, R178), each by what its body commits, and the repeat of the
entries before one (R154).
-/
namespace Sys2Proof.Machine

/-! ### Bodies -/

/-- An entry whose body commits completes (R149). -/
theorem vec_of_ok {b : VBody} {s v : State} (h : b (s.entry 0) (s.wakeBanks (s.entry 0).word) = .ok () v) : vec b s = .next (v.entryDone 0) := by
  rw [vec, h, Res.run_ok]

/-- Results of a form without a check are the results themselves where no fault is in store (R307). -/
theorem State.unchecked_healthy {s : State} (h : s.Healthy 2) (l : List (Option Nat)) : s.unchecked l = .ok l s := by
  simp [State.unchecked, State.upset, State.takeUpset_healthy h]

/-- Under vm0 every lane below L is produced (R159). -/
theorem Core.produced_zero (c : Core) (ent : Entry) (f : Nat → Nat) :
    c.produced ent 0 f = (List.range ent.lp).map fun j => if j < ent.lg then some (f j) else none := by
  simp [Core.produced, Core.maskBit]

theorem vecBscale_of_ok {ent : Entry} {d a f x : Nat} {s u v : State} {vals : PortVals}
    (hread : s.readPorts (imageBytes f (blocksOf f ent.lp)) [a] [] = .ok vals u) (hu : u.Healthy 2)
    (hput : u.deliverV d vals (.lanes 32 ((List.range ent.lp).map fun j => if j < ent.lg then
      some (f32.round x (imageElem f (blocksOf f ent.lp) (u.me.source ent vals 32 128 a) j)) else none) false) = .ok () v) :
    vecBscale d a f x ent s = .ok () v := by
  simp only [vecBscale, hread, State.unchecked_healthy hu, Core.produced_zero, hput]

theorem vecQuant_of_ok {ent : Entry} {d a f x : Nat} {s u v : State} {xs : List (List Nat)} {vals : PortVals}
    (hread : s.sources ent 32 [a] = .ok (xs, vals) u)
    (hput : u.deliverV d vals (.image (imageOf f ((chunks (blockG f) (blocksOf f ent.lp)
      (xs.getD 0 [] ++ List.replicate (blocksOf f ent.lp * blockG f - ent.lp) 0)).map (quantise f x)))) = .ok () v) :
    vecQuant d a f x ent s = .ok () v := by
  simp only [vecQuant, hread, hput]

/-- What vpart writes to a port: the lanes of a list, filled up with all ones (R178). -/
def partOut (ent : Entry) (x : List Nat) (l : List Nat) : VRes :=
  .lanes 32 ((List.range ent.lp).map fun j => if j < ent.lg then
    some (lane (l.map (lane x) ++ List.replicate (ent.lg - l.length) 0xFFFFFFFF) j) else none) false

theorem vecPart_of_ok {ent : Entry} {d a b m : Nat} {s u u1 u2 u3 : State} {xs : List (List Nat)} {vals : PortVals}
    (hread : s.sources ent 32 [a] = .ok (xs, vals) u) (hmay : u.portMay (b - 8) (if b = d then 1 else 0) (4 * ent.lg) = .ok () u1)
    (hyes : u1.portWrite (d - 8) (partOut ent (xs.getD 0 []) ((List.range ent.lg).filter (u.me.maskBit m))) = .ok () u2)
    (hnay : u2.portWrite (b - 8) (partOut ent (xs.getD 0 []) ((List.range ent.lg).filter fun j => !u.me.maskBit m j)) = .ok () u3) :
    vecPart d a b m ent s = .ok () (u3.setMe { u3.me.popPorts vals with
      vec := (u3.me.popPorts vals).vec.push (((List.range ent.lg).filter (u.me.maskBit m)).length +
        2 ^ 32 * (ent.lg - ((List.range ent.lg).filter (u.me.maskBit m)).length)) }) := by
  unfold partOut at hyes hnay
  simp only [vecPart, hread, hmay, partLists, List.length_map, hyes, hnay]

theorem vecPort_of_walk {ent : Entry} {d : Nat} {s : State} {p : Port} (h : ent.walk = some p) :
    vecPort d ent s = .ok () (s.setMe { s.me with vec := { s.me.vec with ports := s.me.vec.ports.put d p } }) := by
  simp only [vecPort, h]

/-! ### Ring repeat (R154) -/

/-- The progress of a repeat of n entries behind k of them. -/
def Progress.after (n k : Nat) : Progress := { rep := k / n, pos := k % n }

theorem Progress.after_zero (n : Nat) : Progress.after n 0 = {} := by simp [Progress.after]

theorem Progress.after_succ {n : Nat} (hn : 0 < n) (k : Nat) :
    (if (Progress.after n k).pos + 1 < n then { Progress.after n k with pos := (Progress.after n k).pos + 1 }
      else { Progress.after n k with pos := 0, rep := (Progress.after n k).rep + 1 }) = Progress.after n (k + 1) := by
  have hk := Nat.mod_add_div k n
  have hlt := Nat.mod_lt k hn
  unfold Progress.after
  dsimp only
  split
  · next h =>
    obtain ⟨hdiv, hmod⟩ := (Nat.div_mod_unique (a := k + 1) (c := k % n + 1) (d := k / n) hn).2 ⟨by omega, h⟩
    rw [hdiv, hmod]
  · next h =>
    obtain ⟨hdiv, hmod⟩ := (Nat.div_mod_unique (a := k + 1) (c := 0) (d := k / n + 1) hn).2 ⟨by rw [Nat.mul_add]; omega, hn⟩
    rw [hdiv, hmod]

/-- From state t a body entry leads to state t': the one of the n before the head whose turn it is behind k of them executes, and leaves the ring
to the repeat. -/
def BodyStep (before : List Entry) (n k : Nat) (t t' : State) : Prop :=
  ∃ body i u, before[k % n]? = some body ∧ decodeVector body.word = .ok i ∧ vbody i body (t.wakeBanks body.word) = .ok () u ∧
    u.ring 0 = t.ring 0 ∧ t' = u.setRing 0 { u.ring 0 with prog := Progress.after n (k + 1) }

section
variable {σ : Nat → State} {n count : Nat}

/-- Behind k body entries the ring is as before, with the progress of k entries. -/
theorem ring_of_bodySteps (hprog : ((σ 0).ring 0).prog = {}) (hσ : ∀ k, k < count * n → BodyStep (((σ 0).ring 0).before n) n k (σ k) (σ (k + 1)))
    {k : Nat} (hk : k ≤ count * n) : (σ k).ring 0 = { (σ 0).ring 0 with prog := Progress.after n k } := by
  induction k with
  | zero => rw [Progress.after_zero, ← hprog]
  | succ k ih =>
    obtain ⟨_, _, u, -, -, -, hring, hnext⟩ := hσ k hk
    rw [hnext, State.ring_setRing_same, hring, ih (Nat.le_of_lt hk)]

/-- The fuel left, one above the entries left, is enough. -/
theorem repeatAll_of_bodySteps (hn : 0 < n) (hprog : ((σ 0).ring 0).prog = {})
    (hσ : ∀ k, k < count * n → BodyStep (((σ 0).ring 0).before n) n k (σ k) (σ (k + 1))) {left k : Nat} (hk : k + left = count * n) :
    (σ k).repeatAll n count (left + 1) = (σ (count * n)).entryDone 0 := by
  have hring := ring_of_bodySteps hprog hσ (k := k) (by omega)
  induction left generalizing k with
  | zero =>
    obtain rfl : k = count * n := hk
    have hdone : count ≤ ((σ (count * n)).ring 0).prog.rep := by
      rw [hring]
      exact Nat.le_of_eq (Nat.mul_div_cancel count hn).symm
    rw [State.repeatAll, if_pos hdone]
  | succ left ih =>
    have hgoes : ¬count ≤ ((σ k).ring 0).prog.rep := by
      rw [hring]
      exact Nat.not_le.2 ((Nat.div_lt_iff_lt_mul hn).2 (by omega))
    obtain ⟨body, i, u, hbody, hdec, hrun, hkept, hnext⟩ := hσ k (by omega)
    have hone : (σ k).repeatOne n = .ok () u := by
      unfold State.repeatOne
      rw [hring]
      simp only [Ring.before, Progress.after] at hbody ⊢
      simp only [hbody, hdec, hrun]
    have hturn : u.setRing 0 { u.ring 0 with prog := Progress.after n (k + 1) } = σ (k + 1) := hnext.symm
    rw [State.repeatAll, if_neg hgoes, hone]
    dsimp only
    rw [show (u.ring 0).prog = Progress.after n k by rw [hkept, hring], Progress.after_succ hn, hturn]
    exact ih (by omega) (ring_of_bodySteps hprog hσ (by omega))

end

end Sys2Proof.Machine
end

section
open Sys2Proof.Machine

/-- Settles O35: what each body commits is what its rule gives; a repeat by induction on the body entries left. -/
theorem vectorBlocksPortsAndRepeats : Obligations.VectorBlocksPortsAndRepeats := by
  unfold Obligations.VectorBlocksPortsAndRepeats
  intro s d a b f sh m x ent w lanes
  refine ⟨fun vals u v hread hu hput => ?vbscale, fun xs vals u v hread => ?vquant, fun xs vals u u1 u2 u3 hread => ?vpart,
    fun p hp => ⟨?vport, ?vportd⟩, ?vnop, fun n σ hn h0 hprog hlen hσ => ?vrep⟩
  case vbscale =>
    rw [exec_vbscale]
    exact vec_of_ok (vecBscale_of_ok hread hu hput)
  case vquant =>
    intro nb hput
    rw [exec_vquant]
    exact vec_of_ok (vecQuant_of_ok hread hput)
  case vpart =>
    intro sel yes nay out hmay hyes hnay
    rw [exec_vpart]
    exact vec_of_ok (vecPart_of_ok hread (by simpa [BitVec.toNat_inj] using hmay) hyes hnay)
  case vport =>
    rw [exec_vport]
    exact vec_of_ok (vecPort_of_walk hp)
  case vportd =>
    rw [exec_vportd]
    exact vec_of_ok (vecPort_of_walk hp)
  case vnop =>
    rw [exec_vnop]
    exact vec_of_ok rfl
  case vrep =>
    subst h0
    rw [exec_vrep, execVrep, repeatAll_of_bodySteps hn hprog hσ (Nat.zero_add _)]

end

section
/-!
SUPPORT. A raise of a token (R147, R149, R235): the claims that look again, the record of a raise that cannot count, and the token that takes
one that can.
-/
namespace Sys2Proof.Machine

/-! ### What the reliability engine neither reads nor writes -/

/-- A state with the cores, the agenda, the acting core and the output of another. -/
def State.withRun (s u : State) : State := { s with cores := u.cores, agenda := u.agenda, cur := u.cur, out := u.out }

theorem State.keyBytes_withRun (s u : State) (key : Option Key) (a n : Nat) : (s.withRun u).keyBytes key a n = s.keyBytes key a n := by
  induction n generalizing a with
  | zero => rfl
  | succ n ih => exact congrArg (s.keyByte key a :: ·) (ih (a + 1))

theorem State.rekey_withRun (s u : State) (key : Option Key) (line : Nat) : (s.withRun u).rekey key line = (s.rekey key line).withRun u := by
  unfold State.rekey
  rw [State.keyBytes_withRun, apply_ite (State.withRun · u)]
  cases key <;> rfl

theorem State.poke_withRun (s u : State) (key : Option Key) (a : Nat) (bs : List Byte) : (s.withRun u).poke key a bs = (s.poke key a bs).withRun u := by
  unfold State.poke
  rw [State.rekey_withRun, apply_ite (State.withRun · u)]
  rfl

theorem State.count_withRun (s u : State) (node cause : Nat) : (s.withRun u).count node cause = (s.count node cause).withRun u := by
  unfold State.count
  simp only [apply_ite (State.withRun · u)]
  rfl

theorem State.pkg_withRun (s u : State) (node : Nat) : (s.withRun u).pkg node = s.pkg node := rfl
theorem State.putPkg_withRun (s u : State) (node : Nat) (p : Package) : (s.withRun u).putPkg node p = (s.putPkg node p).withRun u := rfl
theorem State.cycle_withRun (s u : State) (node : Nat) : (s.withRun u).cycle node = s.cycle node := rfl
theorem State.pcsr_withRun (s u : State) (node n : Nat) : (s.withRun u).pcsr node n = s.pcsr node n := rfl
theorem State.setPcsr_withRun (s u : State) (node n : Nat) (v : W64) : (s.withRun u).setPcsr node n v = (s.setPcsr node n v).withRun u := rfl
theorem State.relSize_withRun (s u : State) (node : Nat) : (s.withRun u).relSize node = s.relSize node := rfl
theorem State.relFull_withRun (s u : State) (node : Nat) : (s.withRun u).relFull node = s.relFull node := rfl
theorem State.relLose_withRun (s u : State) (node : Nat) : (s.withRun u).relLose node = (s.relLose node).withRun u := rfl

theorem State.relPut_withRun (s u : State) (node : Nat) (r : Rec) : (s.withRun u).relPut node r = (s.relPut node r).withRun u := by
  simp only [State.relPut, State.pcsr_withRun, State.pkg_withRun, State.cycle_withRun, State.relSize_withRun, State.poke_withRun,
    State.putPkg_withRun, State.setPcsr_withRun]

/-- A record goes with the cores of any other state. -/
theorem State.record_withRun (s u : State) (node : Nat) (r : Rec) : (s.withRun u).record node r = (s.record node r).withRun u := by
  simp only [State.record, State.writeRecord, State.count_withRun, State.relFull_withRun, State.pcsr_withRun, State.relLose_withRun,
    State.relPut_withRun, State.setPcsr_withRun, apply_ite (State.withRun · u)]

/-! ### The frames of a record -/

theorem State.record_eq_withRun (s : State) (node : Nat) (r : Rec) : s.record node r = (s.record node r).withRun s := s.record_withRun s node r

@[simp] theorem State.record_cur (s : State) (node : Nat) (r : Rec) : (s.record node r).cur = s.cur := by rw [State.record_eq_withRun]; rfl
@[simp] theorem State.record_out (s : State) (node : Nat) (r : Rec) : (s.record node r).out = s.out := by rw [State.record_eq_withRun]; rfl
@[simp] theorem State.record_core (s : State) (node : Nat) (r : Rec) (ck : Nat) : (s.record node r).core ck = s.core ck := by
  rw [State.record_eq_withRun]; rfl
@[simp] theorem State.record_me (s : State) (node : Nat) (r : Rec) : (s.record node r).me = s.me := by rw [State.record_eq_withRun]; rfl

theorem OnlyMe.record {s t : State} (h : OnlyMe s t) (node : Nat) (r : Rec) : OnlyMe (s.record node r) (t.record node r) := by
  have ht : t = s.withRun t := by rw [h.1]; rfl
  have hrun : t.record node r = (s.record node r).withRun t := by rw [← State.record_withRun, ← ht]
  refine ⟨?_, fun ck hk => ?_⟩
  · rw [hrun, State.withRun, h.cur, show t.out = s.out by rw [h.1], ← State.record_cur s node r, ← State.record_out s node r]
  · simpa using h.2 ck (by simpa using hk)

/-- The record about a core speaks of nothing of the cores but the slice. -/
theorem OnlyMe.coreRec {s t : State} (h : OnlyMe s t) {ck : Nat} (hc : (t.core ck).slice = (s.core ck).slice) (cause unit : Nat) :
    t.coreRec ck cause unit = s.coreRec ck cause unit := by
  have hf : t.sliceFunc = s.sliceFunc := by rw [h.1]; rfl
  unfold State.coreRec
  rw [hc, hf]

/-! ### What looks again at a token -/

theorem State.wake_agenda_only (s : State) (h : Happening) : s.wake h = { s with agenda := (s.wake h).agenda } := by
  unfold State.wake
  split <;> rfl

theorem State.wakeClaims_agenda_only (s : State) (ck k : Nat) : s.wakeClaims ck k = { s with agenda := (s.wakeClaims ck k).agenda } := by
  unfold State.wakeClaims
  refine List.foldlRecOn (motive := fun t : State => t = { s with agenda := t.agenda }) _ _ rfl fun t ht x _ => ?_
  cases x with
  | access => exact ht
  | entry r seq =>
    dsimp only
    rw [State.wake_agenda_only, ht]

theorem State.checkDrained_agenda_only (s : State) (ck : Nat) : s.checkDrained ck = { s with agenda := (s.checkDrained ck).agenda } := by
  unfold State.checkDrained
  split
  · exact State.wake_agenda_only ..
  · rfl

@[simp] theorem State.wakeClaims_core (s : State) (ck k j : Nat) : (s.wakeClaims ck k).core j = s.core j := by
  rw [State.wakeClaims_agenda_only]; rfl
@[simp] theorem State.wakeClaims_me (s : State) (ck k : Nat) : (s.wakeClaims ck k).me = s.me := by rw [State.wakeClaims_agenda_only]; rfl
@[simp] theorem State.wakeClaims_cur (s : State) (ck k : Nat) : (s.wakeClaims ck k).cur = s.cur := by rw [State.wakeClaims_agenda_only]
@[simp] theorem State.wakeClaims_mem (s : State) (ck k : Nat) : (s.wakeClaims ck k).mem = s.mem := by rw [State.wakeClaims_agenda_only]
@[simp] theorem State.checkDrained_me (s : State) (ck : Nat) : (s.checkDrained ck).me = s.me := by rw [State.checkDrained_agenda_only]; rfl
@[simp] theorem State.checkDrained_mem (s : State) (ck : Nat) : (s.checkDrained ck).mem = s.mem := by rw [State.checkDrained_agenda_only]

theorem OnlyMe.wakeClaims (s : State) (ck k : Nat) : OnlyMe s (s.wakeClaims ck k) :=
  ⟨by rw [State.wakeClaims_agenda_only], fun _ _ => s.wakeClaims_core ..⟩

/-! ### Tokens -/

@[simp] theorem Core.token_setToken (c : Core) (k j : Nat) (x : Token) : (c.setToken k x).token j = if j = k then x else c.token j := by
  simp [Core.token, Core.setToken]

@[simp] theorem Core.setToken_setToken (c : Core) (k : Nat) (x y : Token) : (c.setToken k x).setToken k y = c.setToken k y := by
  simp [Core.setToken, Tab.put_put_same]

theorem Core.token_setToken_self (c : Core) (k j : Nat) : (c.setToken k (c.token k)).token j = c.token j := by
  rw [Core.token_setToken]
  split
  · next h => rw [h]
  · rfl

/-- A VALUE at its greatest stays, and the raise is recorded (R235). -/
theorem State.raiseToken_of_full {s : State} {k : Nat} (h : (s.me.token k).value = BitVec.allOnes 32) :
    s.raiseToken s.cur k = ((s.setMe s.me).wakeClaims s.cur k).record s.node { s.coreRec s.cur 0x93 1 with addr := BitVec.ofNat 64 k } := by
  have hadd : (s.core s.cur).addValue k = (true, s.me) := by simp [Core.addValue, ← State.me_eq, h]
  have hrec := ((OnlyMe.setMe s s.me).trans (OnlyMe.wakeClaims _ s.cur k)).coreRec (ck := s.cur) (by simp [State.me_eq]) 0x93 1
  simp only [State.raiseToken, hadd, if_true]
  rw [← hrec]
  rfl

/-- Another VALUE takes 1 (R147). -/
theorem State.raiseToken_of_room {s : State} {k : Nat} (h : (s.me.token k).value ≠ BitVec.allOnes 32) :
    s.raiseToken s.cur k = (s.setMe (s.me.setToken k { s.me.token k with value := (s.me.token k).value + 1 })).wakeClaims s.cur k := by
  have hadd : (s.core s.cur).addValue k = (false, s.me.setToken k { s.me.token k with value := (s.me.token k).value + 1 }) := by
    rw [← State.me_eq, Core.addValue]
    exact if_neg h
  simp only [State.raiseToken, hadd]
  rfl

/-- A raise leaves a core all but its tokens, and of these all but the one it names. -/
theorem State.raiseToken_me (s : State) (k : Nat) :
    (s.raiseToken s.cur k).me = { s.me with tokens := (s.raiseToken s.cur k).me.tokens } ∧
      ∀ j, j ≠ k → (s.raiseToken s.cur k).me.token j = s.me.token j := by
  by_cases h : (s.me.token k).value = BitVec.allOnes 32
  · rw [State.raiseToken_of_full h]
    simp
  · rw [State.raiseToken_of_room h]
    exact ⟨by simp [Core.setToken], fun j hj => by simp [hj]⟩

end Sys2Proof.Machine
end

section
/-!
SUPPORT. The end of an entry (R145, R149, R183): the ring behind it, and its raise.
-/
namespace Sys2Proof.Machine

/-- A ring behind the completion of its head entry. -/
def Ring.done (x : Ring) : Ring := if x.aside = [] then x.retire else x.finish

/-- The raise of a completed entry. -/
def State.raiseOf (s : State) (e : Entry) : State :=
  if e.raisek = 0 || e.raised then s
  else
    let k := e.raisek.toNat
    let c := s.me.setToken k { s.me.token k with praise := (s.me.token k).praise - 1 }
    (s.setMe c).raiseToken s.cur k

theorem State.entryDone_eq (s : State) (r : Nat) :
    let u := (s.setRing r (s.ring r).done).raiseOf (s.entry r)
    s.entryDone r = (u.wake (.ring u.cur r)).checkDrained u.cur := by
  unfold State.entryDone State.raiseOf Ring.done
  rfl

theorem State.entryDone_me (s : State) (r : Nat) : (s.entryDone r).me = ((s.setRing r (s.ring r).done).raiseOf (s.entry r)).me := by
  simp [State.entryDone_eq]

theorem State.entryDone_mem (s : State) (r : Nat) : (s.entryDone r).mem = ((s.setRing r (s.ring r).done).raiseOf (s.entry r)).mem := by
  simp [State.entryDone_eq]

/-! ### The ring -/

theorem Ring.done_of_aside_nil {x : Ring} {e : Entry} {l : List Entry} (hq : x.queue = e :: l) (h : x.aside = []) :
    x.done.queue = l ∧ x.done.rp = x.rp + 1 ∧ x.done.prog = (l.headD {}).prog ∧ x.done.past.head? = some e := by
  simp [Ring.done, Ring.retire, h, hq, Nat.add_comm 63]

theorem Ring.done_of_aside {x : Ring} {e : Entry} {l : List Entry} (hq : x.queue = e :: l) (h : x.aside ≠ []) :
    x.done.queue = x.aside ++ { e with finished := true, raised := true } :: l ∧ x.done.aside = [] ∧ x.done.rp = x.rp ∧ x.done.past = x.past := by
  simp [Ring.done, Ring.finish, h, hq]

theorem Ring.done_wp (x : Ring) : x.done.wp = x.wp := by
  unfold Ring.done Ring.retire Ring.finish
  split
  · split <;> rfl
  · split <;> rfl

/-! ### The raise -/

theorem State.raiseOf_of_raisek_zero {s : State} {e : Entry} (h : e.raisek = 0) : s.raiseOf e = s := by simp [State.raiseOf, h]

theorem State.raiseOf_me (s : State) (e : Entry) :
    (s.raiseOf e).me = { s.me with tokens := (s.raiseOf e).me.tokens } ∧ ∀ j, j ≠ e.raisek.toNat → (s.raiseOf e).me.token j = s.me.token j := by
  unfold State.raiseOf
  split
  · exact ⟨rfl, fun _ _ => rfl⟩
  · obtain ⟨hme, htok⟩ := State.raiseToken_me
      (s.setMe (s.me.setToken e.raisek.toNat { s.me.token e.raisek.toNat with praise := (s.me.token e.raisek.toNat).praise - 1 })) e.raisek.toNat
    rw [State.setMe_cur] at hme htok
    refine ⟨?_, fun j hj => ?_⟩
    · rw [hme]; simp [Core.setToken]
    · rw [htok j hj]; simp [hj]

theorem State.raiseOf_token {s : State} {e : Entry} (hk : e.raisek ≠ 0) (hr : e.raised = false)
    (hv : (s.me.token e.raisek.toNat).value ≠ BitVec.allOnes 32) :
    ((s.raiseOf e).me.token e.raisek.toNat).value = (s.me.token e.raisek.toNat).value + 1 ∧
      ((s.raiseOf e).me.token e.raisek.toNat).praise = (s.me.token e.raisek.toNat).praise - 1 ∧ (s.raiseOf e).mem = s.mem := by
  have hraise := State.raiseToken_of_room
    (s := s.setMe (s.me.setToken e.raisek.toNat { s.me.token e.raisek.toNat with praise := (s.me.token e.raisek.toNat).praise - 1 }))
    (k := e.raisek.toNat) (by simpa using hv)
  rw [State.setMe_cur] at hraise
  have hcond : (e.raisek = 0 || e.raised) = false := by simpa [hr] using hk
  rw [State.raiseOf, hcond]
  simp [hraise]

end Sys2Proof.Machine
end

section
open Sys2Proof.Machine

/-- Settles O36: the ring takes its next value, and the raise changes the tokens alone. -/
theorem entriesRetireAndRaise : Obligations.EntriesRetireAndRaise := by
  unfold Obligations.EntriesRetireAndRaise
  intro s r e l hq hr t ahead
  have hentry : s.entry r = e := by simp [State.entry, hq]
  have hraised : t.me = ((s.setRing r (s.ring r).done).raiseOf e).me := hentry ▸ s.entryDone_me r
  have hmem : t.mem = ((s.setRing r (s.ring r).done).raiseOf e).mem := hentry ▸ s.entryDone_mem r
  obtain ⟨hme, htokens⟩ := (s.setRing r (s.ring r).done).raiseOf_me e
  rw [← hraised, State.setRing_me] at hme
  have hring (o : Nat) : t.ring o = (s.me.setRing r (s.ring r).done).ring o := by
    rw [State.ring, hme]
    rfl
  have hself : t.ring r = (s.ring r).done := by rw [hring, Core.ring_setRing_same]
  rw [Core.setRing_eq] at hme
  refine ⟨fun h => hself ▸ Ring.done_of_aside_nil hq h, fun h => hself ▸ Ring.done_of_aside hq h, hself ▸ Ring.done_wp _,
    fun o ho hne => ?others, by rw [hme], by rw [hme], by rw [hme], by rw [hme], by rw [hme], by rw [hme], fun h0 => ?none, fun k hk => ?tokens,
    fun hk hfirst hv => ?raise⟩
  case others =>
    rw [hring, Core.ring_setRing_ne _ hr ho hne]
    rfl
  case none =>
    rw [hraised, hmem, State.raiseOf_of_raisek_zero h0]
    exact ⟨by simp, rfl⟩
  case tokens =>
    rw [hraised, htokens k hk]
    simp
  case raise =>
    have hroom : (s.me.token e.raisek.toNat).value ≠ BitVec.allOnes 32 := fun h => by simp [h] at hv
    simpa [hraised, hmem] using State.raiseOf_token (s := s.setRing r (s.ring r).done) hk hfirst (by simpa using hroom)

end

section
/-!
SUPPORT. sig.tk and wait.tk (R233, R235, R236): the state in which a claim stands, and its end, met or timed out.
-/
namespace Sys2Proof.Machine

/-! ### Ends -/

/-- An instruction that has changed the tokens of its core, and nothing else of it, completes. -/
theorem State.finish_of_only {s u : State} (h : OnlyMe s u) (hme : u.me = { s.me with tokens := u.me.tokens }) :
    OnlyMe s u.finish ∧ Advances s u.finish ∧ (∀ j, u.finish.me.token j = u.me.token j) ∧ u.finish.me.s = s.me.s ∧ u.finish.me.p = s.me.p := by
  have hplace := u.finish_place.2
  refine ⟨h.trans u.finish_only, fun hl => ?_, fun j => ?_, ?_, ?_⟩
  · rw [State.finish_pc _ (by rw [hme]; exact hl), State.pc, hme]; rfl
  · rw [hplace]; rfl
  · rw [hplace, hme]
  · rw [hplace, hme]

/-- An instruction that has changed nothing of its core completes. -/
theorem State.finish_place_of_only {s u : State} (h : OnlyMe s u) (hme : u.me = s.me) : PlaceOnly s u.finish :=
  ⟨h.trans u.finish_only, by rw [← hme]; exact u.finish_place.2⟩

/-- An instruction that has left the predicates and its place in the program sets a predicate and completes. -/
theorem State.setPredNext_of_only {s u : State} (h : OnlyMe s u) (hp : u.me.p = s.me.p) (hpc : u.me.pc = s.me.pc) (hl : u.me.loops = s.me.loops)
    (p : BitVec 3) (v : Bool) :
    OnlyMe s (u.setPredNext p v) ∧ Advances s (u.setPredNext p v) ∧
      (∀ r, (u.setPredNext p v).pred r = if r = p ∧ r ≠ 0 then v else s.pred r) ∧
      ∃ q pc l w, (u.setPredNext p v).me = { u.me with p := q, pc := pc, loops := l, watchdog := w } := by
  obtain ⟨hpred, hadv, honly, hme⟩ := u.setPredNext_result p v
  refine ⟨h.trans honly, fun hs => ?_, fun r => ?_, _, _, _, _, hme⟩
  · rw [hadv (hl.trans hs), State.pc, hpc]; rfl
  · rw [hpred]
    simp only [State.pred, Core.pred, hp]

/-- sig.tk behind every earlier access of the core (R235). -/
theorem exec_sigTk_of_performed {s : State} (hr : s.me.rldLeft = false) (hp : s.postedLeft = false) (k : BitVec 7) :
    exec (.sigTk k) s = .next (s.raiseToken s.cur k.toNat).finish := by
  rw [exec_sigTk, execSigTk, if_neg (by simp [hr, hp])]

/-! ### A claim that stands -/

/-- The access core's claim stands behind the others of a token, and its wait has begun. -/
def State.claimingToken (s : State) (k : Nat) (w : Wait) : State :=
  s.setMe { s.me.setToken k { s.me.token k with claims := (s.me.token k).claims ++ [.access] } with wait := some w }

theorem execWaitTk_of_claim {s : State} {p : BitVec 3} {k : BitVec 7} {t : BitVec 5} (hw : s.me.wait = none)
    (h : 1 + (s.me.token k.toNat).pwait ≤ (s.me.token k.toNat).value.toNat + (s.me.token k.toNat).praise) :
    execWaitTk p k t s =
      .next ((s.claimingToken k.toNat { start := s.clock, word := (encode (.waitTk p k t)).headD 0 }).tokenWait p k.toNat t) := by
  have hw' : (s.me.setToken k.toNat { s.me.token k.toNat with claims := (s.me.token k.toNat).claims ++ [.access] }).wait = none := hw
  simp [execWaitTk, hw, Nat.not_lt.2 h, State.beginWait, hw', State.claimingToken]

/-- A claim that is withdrawn leaves the token as it was. -/
theorem State.claimingToken_dropClaim {s : State} {k : Nat} (h : Claim.access ∉ (s.me.token k).claims) (w : Wait) :
    (s.claimingToken k w).me.dropClaim k = { s.me.setToken k (s.me.token k) with wait := some w } := by
  have hothers : ∀ x ∈ (s.me.token k).claims, decide (x ≠ Claim.access) = true := fun x hx =>
    decide_eq_true fun e : x = Claim.access => h (e ▸ hx)
  have hkeep : ((s.me.token k).claims ++ [Claim.access]).filter (· ≠ Claim.access) = (s.me.token k).claims := by
    rw [List.filter_append, List.filter_eq_self.2 hothers]
    simp
  rw [State.claimingToken, State.me_setMe]
  show { (s.me.setToken k _).dropClaim k with wait := some w } = _
  rw [Core.dropClaim, Core.token_setToken, if_pos rfl, Core.setToken_setToken, hkeep]

/-- A token gives 1 of its VALUE. -/
def Core.takeCount (c : Core) (k : Nat) : Core := c.setToken k { c.token k with value := (c.token k).value - 1 }

theorem Core.takeCount_setToken (c : Core) (k : Nat) (x : Token) : (c.setToken k x).takeCount k = c.setToken k { x with value := x.value - 1 } := by
  simp [Core.takeCount]

theorem Core.takeCount_wait (c : Core) (w : Option Wait) (k : Nat) : ({ c with wait := w } : Core).takeCount k = { c.takeCount k with wait := w } :=
  rfl

/-- The access core's claim is the first of its token, and VALUE can be taken from. -/
theorem State.tokenWait_met {s : State} {p : BitVec 3} {k : Nat} {t : BitVec 5} (hc : (s.me.token k).claims.head? = some .access)
    (hv : (s.me.token k).value ≠ 0) :
    ∃ u, s.tokenWait p k t = u.setPredNext p false ∧ OnlyMe s u ∧
      u.me = { ((s.me.dropClaim k).takeCount k).dropPad s.cur with wait := none } := by
  have hcond : ((s.me.token k).claims.head? == some .access && (s.me.token k).value != 0) = true := by simpa [hc] using hv
  refine ⟨_, by rw [State.tokenWait, State.timedWait, hcond, if_pos rfl]; rfl, ?_, ?_⟩
  · exact ((OnlyMe.setMe s _).trans (OnlyMe.wakeClaims ..)).trans (OnlyMe.setMe _ _)
  · simp [State.endWait, Core.takeCount]

/-- Nothing meets the access core's claim before its time is over. -/
theorem State.tokenWait_expired {s : State} {p : BitVec 3} {k : Nat} {t : BitVec 5}
    (hc : (s.me.token k).value = 0 ∨ (s.me.token k).claims.head? ≠ some .access) (ht : s.expired t = true) :
    ∃ u, s.tokenWait p k t = u.setPredNext p true ∧ OnlyMe s u ∧ u.me = { s.me.dropClaim k with wait := none } := by
  have hcond : ((s.me.token k).claims.head? == some .access && (s.me.token k).value != 0) = false := by
    rcases hc with hc | hc
    · simp [hc]
    · simp [beq_eq_false_iff_ne.2 hc]
  refine ⟨_, by rw [State.tokenWait, State.timedWait, hcond, if_neg Bool.false_ne_true, if_pos ht]; rfl, ?_, ?_⟩
  · exact ((OnlyMe.setMe s _).trans (OnlyMe.wakeClaims ..)).trans (OnlyMe.setMe _ _)
  · simp [State.endWait]

@[simp] theorem State.claimingToken_token (s : State) (k : Nat) (w : Wait) :
    (s.claimingToken k w).me.token k = { s.me.token k with claims := (s.me.token k).claims ++ [.access] } := by
  rw [State.claimingToken, State.me_setMe]
  exact (Core.token_setToken ..).trans (if_pos rfl)

@[simp] theorem State.claimingToken_cur (s : State) (k : Nat) (w : Wait) : (s.claimingToken k w).cur = s.cur := rfl

/-- A wait of no cycles is over with the turn in which it begins. -/
theorem State.claimingToken_expired {s : State} {t : BitVec 5} (h : s.reg t = 0) (k : Nat) (w : Wait) : (s.claimingToken k w).expired t = true := by
  have hreg : (s.claimingToken k w).reg t = 0 := by
    rw [← h, State.reg, State.claimingToken, State.me_setMe]
    rfl
  have hwait : (s.claimingToken k w).me.wait = some w := by simp [State.claimingToken]
  simp [State.expired, hreg, hwait]

/-- wait.tk on a token without claims that has a count to take. -/
theorem exec_waitTk_met {s : State} {p : BitVec 3} {k : BitVec 7} {t : BitVec 5} (hw : s.me.wait = none)
    (hc : (s.me.token k.toNat).claims = []) (hv : (s.me.token k.toNat).value ≠ 0)
    (hle : 1 + (s.me.token k.toNat).pwait ≤ (s.me.token k.toNat).value.toNat + (s.me.token k.toNat).praise) :
    ∃ u, exec (.waitTk p k t) s = .next (u.setPredNext p false) ∧ OnlyMe s u ∧
      u.me = { (s.me.setToken k.toNat { s.me.token k.toNat with value := (s.me.token k.toNat).value - 1 }).dropPad s.cur with wait := none } := by
  obtain ⟨u, hturn, honly, hme⟩ := State.tokenWait_met (p := p) (t := t)
    (s := s.claimingToken k.toNat { start := s.clock, word := (encode (.waitTk p k t)).headD 0 }) (k := k.toNat) (by simp [hc]) (by simpa using hv)
  refine ⟨u, by rw [exec_waitTk, execWaitTk_of_claim hw hle, hturn], (OnlyMe.setMe s _).trans honly, ?_⟩
  rw [hme, State.claimingToken_dropClaim (by simp [hc]), Core.takeCount_wait, Core.takeCount_setToken]
  rfl

/-- wait.tk on a token that no count meets, or that other claims stand before, for no cycles. -/
theorem exec_waitTk_expired {s : State} {p : BitVec 3} {k : BitVec 7} {t : BitVec 5} (hw : s.me.wait = none)
    (hle : 1 + (s.me.token k.toNat).pwait ≤ (s.me.token k.toNat).value.toNat + (s.me.token k.toNat).praise)
    (hc : (s.me.token k.toNat).value = 0 ∨ (s.me.token k.toNat).claims ≠ []) (hno : Claim.access ∉ (s.me.token k.toNat).claims)
    (ht : s.reg t = 0) :
    ∃ u, exec (.waitTk p k t) s = .next (u.setPredNext p true) ∧ OnlyMe s u ∧
      u.me = { s.me.setToken k.toNat (s.me.token k.toNat) with wait := none } := by
  have hhead : (s.me.token k.toNat).claims ≠ [] → ((s.me.token k.toNat).claims ++ [Claim.access]).head? ≠ some .access := fun hne h => by
    obtain ⟨y, l, hl⟩ := List.exists_cons_of_ne_nil hne
    rw [hl, List.cons_append, List.head?_cons, Option.some.injEq] at h
    exact hno (by rw [hl, h]; exact List.mem_cons_self)
  obtain ⟨u, hturn, honly, hme⟩ := State.tokenWait_expired (p := p) (t := t)
    (s := s.claimingToken k.toNat { start := s.clock, word := (encode (.waitTk p k t)).headD 0 }) (k := k.toNat)
    (by simpa using hc.imp_right hhead) (State.claimingToken_expired ht _ _)
  refine ⟨u, by rw [exec_waitTk, execWaitTk_of_claim hw hle, hturn], (OnlyMe.setMe s _).trans honly, ?_⟩
  rw [hme, State.claimingToken_dropClaim hno]

/-- The lines that a drop of the own scratchpad leaves. -/
theorem Core.mem_dropPad {c : Core} {ck : Nat} {e : Nat × CacheLine} (h : e ∈ (c.dropPad ck).dcache) :
    e ∈ c.dcache ∧ (padBase ck + padSize ≤ e.1 * 64 ∨ e.1 * 64 + 64 ≤ padBase ck) := by
  simpa [Core.dropPad, Core.dropLines] using h

end Sys2Proof.Machine
end

section
open Sys2Proof.Machine

/-- Settles O19: a raise or a claim ends as its own lemma says, and the instruction completes. -/
theorem tokensCountAndWait : Obligations.TokensCountAndWait := by
  unfold Obligations.TokensCountAndWait
  refine ⟨fun s k => ⟨fun h => ?waits, fun hr hp hv => ?full, fun hr hp hv => ?room⟩, fun s p k t hw => ?wait⟩
  case waits => rw [exec_sigTk, execSigTk, if_pos (by simpa using h)]
  case full =>
    refine ⟨_, exec_sigTk_of_performed hr hp k, ?_⟩
    rw [State.raiseToken_of_full hv]
    have honly := ((OnlyMe.setMe s s.me).trans (OnlyMe.wakeClaims _ s.cur k.toNat)).record s.node
      { s.coreRec s.cur 0x93 1 with addr := BitVec.ofNat 64 k.toNat }
    obtain ⟨hall, hadv, htok, hs, hps⟩ := State.finish_of_only honly (by simp)
    refine ⟨fun j => by rw [htok]; simp, by simpa using hs, by simpa using hps, by simpa [Advances, State.pc] using hadv,
      (congrArg State.out hall.1).trans (s.record_out ..), State.finish_place_of_only honly (by simp)⟩
  case room =>
    obtain ⟨hme, hothers⟩ := s.raiseToken_me k.toNat
    have honly : OnlyMe s (s.raiseToken s.cur k.toNat) := by
      rw [State.raiseToken_of_room hv]
      exact (OnlyMe.setMe s _).trans (OnlyMe.wakeClaims ..)
    have hvalue : ((s.raiseToken s.cur k.toNat).me.token k.toNat).value = (s.me.token k.toNat).value + 1 := by
      rw [State.raiseToken_of_room hv]
      simp
    obtain ⟨hall, hadv, htok, hs, hps⟩ := State.finish_of_only honly hme
    exact ⟨_, exec_sigTk_of_performed hr hp k, hall, hadv, by rw [htok, hvalue], fun j hj => by rw [htok, hothers j hj], hs, hps⟩
  case wait =>
    intro x
    refine ⟨fun hc hv hle => ?met, fun hlt => ?hopeless, fun hle hc hno ht => ?expired⟩
    case met =>
      obtain ⟨u, hexec, honly, hme⟩ := exec_waitTk_met (p := p) (t := t) hw hc hv hle
      obtain ⟨hall, hadv, hpred, q, pc, l, w, hend⟩ :=
        State.setPredNext_of_only honly (by rw [hme]; rfl) (by rw [hme]; rfl) (by rw [hme]; rfl) p false
      have htok : (u.setPredNext p false).me.token k.toNat = { x with value := x.value - 1 } := by
        rw [hend, hme]
        exact (Core.token_setToken ..).trans (if_pos rfl)
      refine ⟨_, hexec, hall, hadv, by rw [htok], by rw [htok]; exact hc, hpred, by rw [hend, hme]; rfl, fun e he => ?_⟩
      rw [hend, hme] at he
      exact Core.mem_dropPad (c := s.me) he
    case hopeless => exact ⟨_, by rw [exec_waitTk, execWaitTk, hw]; exact congrArg _ (if_pos hlt), s.setPredNext_result p true⟩
    case expired =>
      obtain ⟨u, hexec, honly, hme⟩ := exec_waitTk_expired (p := p) hw hle hc hno ht
      obtain ⟨hall, hadv, hpred, q, pc, l, w, hend⟩ :=
        State.setPredNext_of_only honly (by rw [hme]; rfl) (by rw [hme]; rfl) (by rw [hme]; rfl) p true
      refine ⟨_, hexec, hall, hadv, fun j => ?_, by rw [hend, hme], hpred, by rw [hend, hme]; rfl⟩
      rw [hend, hme]
      exact Core.token_setToken_self ..

end

section
/-!
SUPPORT. Lanes of a vector operand (R157, R158): what a lane of packed, unpacked and merged lanes holds, a result in a 4,096-bit place, and the
parts of a delivery.
-/
namespace Sys2Proof.Machine

/-! ### Lanes of a number -/

/-- Lane 0 of a lane set in front of others. -/
theorem lane_cons_zero (w x r : Nat) : bits (x % 2 ^ w + 2 ^ w * r) (w * 0) w = x % 2 ^ w := by simp [bits]

/-- The other lanes of a lane set in front of others. -/
theorem lane_cons_succ (w x r j : Nat) : bits (x % 2 ^ w + 2 ^ w * r) (w * (j + 1)) w = bits r (w * j) w := by
  have hdiv : (x % 2 ^ w + 2 ^ w * r) / 2 ^ w = r := by
    rw [Nat.add_mul_div_left _ _ (Nat.two_pow_pos w), Nat.mod_div_self, Nat.zero_add]
  rw [bits, bits, Nat.mul_succ, Nat.add_comm (w * j) w, Nat.pow_add, ← Nat.div_div_eq_div_mul, hdiv]

/-- The lanes of a number's upper part are its own, one place on. -/
theorem lane_div (w x j : Nat) : bits (x / 2 ^ w) (w * j) w = bits x (w * (j + 1)) w := by
  rw [bits, bits, Nat.div_div_eq_div_mul, ← Nat.pow_add, Nat.mul_succ, Nat.add_comm w]

/-- A place of n bits keeps the lanes that lie in it. -/
theorem bits_ofNat_toNat {n lo w : Nat} (h : lo + w ≤ n) (x : Nat) : bits (BitVec.ofNat n x).toNat lo w = bits x lo w := by
  refine Nat.eq_of_testBit_eq fun i => ?_
  simp only [bits, BitVec.toNat_ofNat, Nat.testBit_mod_two_pow, Nat.testBit_div_two_pow]
  by_cases hi : i < w
  · have : i + lo < n := by omega
    simp [hi, this]
  · simp [hi]

@[simp] theorem length_unpackBits (w x n : Nat) : (unpackBits w x n).length = n := by
  induction n generalizing x with
  | zero => rfl
  | succ n ih => rw [unpackBits, List.length_cons, ih]

theorem lane_unpackBits (w x : Nat) {n j : Nat} (h : j < n) : lane (unpackBits w x n) j = bits x (w * j) w := by
  induction n generalizing x j with
  | zero => omega
  | succ n ih =>
    cases j with
    | zero => simp [unpackBits, lane, bits]
    | succ j => exact (ih (x / 2 ^ w) (Nat.lt_of_succ_lt_succ h)).trans (lane_div w x j)

/-- Of packed lanes each holds its value; absent ones are 0. -/
theorem bits_packBits (w : Nat) (l : List Nat) (j : Nat) : bits (packBits w l) (w * j) w = l.getD j 0 % 2 ^ w := by
  induction l generalizing j with
  | nil => simp [packBits, bits]
  | cons x t ih =>
    cases j with
    | zero => exact lane_cons_zero ..
    | succ j => exact (lane_cons_succ ..).trans (ih j)

/-- Every lane of a repeated value holds it. -/
theorem bits_repeatLanes (e v : Nat) {n j : Nat} (h : j < n) : bits (repeatLanes e n v) (e * j) e = v % 2 ^ e := by
  rw [repeatLanes, bits_packBits]
  simp [h]

/-- A merge gives produced lanes their values and leaves the others (R158). -/
theorem bits_mergeLanes (w old : Nat) (l : List (Option Nat)) (j : Nat) :
    bits (mergeLanes w old l) (w * j) w = (l.getD j none).elim (bits old (w * j) w) (· % 2 ^ w) := by
  induction l generalizing old j with
  | nil => rfl
  | cons x t ih =>
    cases x with
    | none =>
      cases j with
      | zero => exact (lane_cons_zero ..).trans (by simp [bits])
      | succ j => exact (lane_cons_succ ..).trans ((ih _ j).trans (by rw [lane_div]; rfl))
    | some v =>
      cases j with
      | zero => exact lane_cons_zero ..
      | succ j => exact (lane_cons_succ ..).trans ((ih _ j).trans (by rw [lane_div]; rfl))

/-! ### Sources (R157) -/

theorem lane_lanesOf_below (e P x : Nat) {L j : Nat} (h : j < L) : lane (lanesOf e L P x) j = bits x (e * j) e := by
  have hlen : j < (unpackBits e x L).length := (length_unpackBits e x L).symm ▸ h
  rw [← lane_unpackBits e x h, lanesOf, lane, lane, List.getD_eq_getElem?_getD, List.getElem?_append_left hlen,
    ← List.getD_eq_getElem?_getD]

theorem lane_lanesOf_above (e P x : Nat) {L j : Nat} (h : L ≤ j) : lane (lanesOf e L P x) j = 0 := by
  have hlen : (unpackBits e x L).length ≤ j := (length_unpackBits e x L).symm ▸ h
  rw [lanesOf, lane, List.getD_eq_getElem?_getD, List.getElem?_append_right hlen, List.getElem?_replicate]
  split <;> rfl

/-- Only a port is read from memory or a load queue. -/
theorem State.sources_of_no_port (s : State) (ent : Entry) (e : Nat) {v : Nat} (h : v < 0x30 ∨ 0x38 ≤ v) :
    s.sources ent e [v] = .ok ([lanesOf e ent.lg ent.lp (s.me.source ent [] e ent.lp v)], []) s := by
  have hport : (decide (0x30 ≤ v) && decide (v < 0x38)) = false := by
    rw [Bool.and_eq_false_iff, decide_eq_false_iff_not, decide_eq_false_iff_not]
    omega
  simp [State.sources, State.readPorts, hport]

section
variable {c : Core} {ent : Entry} {vals : PortVals} {e n : Nat}

theorem Core.source_register {v : Nat} (h : v < 0x20) : c.source ent vals e n v = (c.vec.v[Fin.ofNat 32 v]).toNat := if_pos h

theorem Core.source_queue {v : Nat} (h : 0x20 ≤ v) (h' : v < 0x30) : c.source ent vals e n v = (c.vec.q[Fin.ofNat 16 v]).toNat :=
  (if_neg (Nat.not_lt.2 h)).trans (if_pos h')

theorem Core.source_c0 : c.source ent vals e n 0x38 = repeatLanes e n ent.capa.toNat := rfl

theorem Core.source_c1 : c.source ent vals e n 0x39 = repeatLanes e n ent.capb.toNat := rfl

end

/-! ### Destinations (R158) -/

@[simp] theorem Core.popPorts_nil (c : Core) : c.popPorts [] = c := rfl

theorem VecUnit.push_head (u : VecUnit) (v : Nat) : (u.push v).q[0] = BitVec.ofNat 4096 v := by simp [VecUnit.push]

theorem VecUnit.push_tail (u : VecUnit) (v : Nat) (k : Fin 15) : (u.push v).q[k.val + 1] = u.q[k.val] := by simp [VecUnit.push]

/-- A vector unit with a result in register d. -/
def VecUnit.setReg (u : VecUnit) (d : Nat) (r : VRes) : VecUnit :=
  { u with v := u.v.set (Fin.ofNat 32 d) (BitVec.ofNat 4096 (r.onto (u.v[Fin.ofNat 32 d]).toNat)) }

theorem VecUnit.setReg_same (u : VecUnit) (d : Nat) (r : VRes) :
    (u.setReg d r).v[Fin.ofNat 32 d] = BitVec.ofNat 4096 (r.onto (u.v[Fin.ofNat 32 d]).toNat) := by
  simp [VecUnit.setReg]

theorem VecUnit.setReg_other (u : VecUnit) {d : Nat} (r : VRes) {k : Fin 32} (hd : d < 0x20) (h : k.val ≠ d) :
    (u.setReg d r).v[k] = u.v[k] :=
  Vector.getElem_set_ne (Fin.isLt _) k.isLt (by simpa [Nat.mod_eq_of_lt hd] using Ne.symm h)

/-- Of an entry that read no port, a result for a register goes into it and into the queue. -/
theorem State.deliverV_register (s : State) {d : Nat} (r : VRes) (h : d < 0x20) :
    s.deliverV d [] r = .ok () (s.setMe { s.me with vec := (s.me.vec.setReg d r).push (r.onto 0) }) := by
  simp [State.deliverV, h, VecUnit.setReg]

/-- A result for a place that is no register and no output port goes into the queue alone. -/
theorem State.deliverV_nowhere (s : State) {d : Nat} (r : VRes) (h : (0x20 ≤ d ∧ d < 0x30) ∨ 0x34 ≤ d) :
    s.deliverV d [] r = .ok () (s.setMe { s.me with vec := s.me.vec.push (r.onto 0) }) := by
  have hreg : ¬d < 0x20 := by omega
  have hport : ¬(0x30 ≤ d ∧ d < 0x34) := by omega
  simp [State.deliverV, hreg, hport]

/-- The lanes of a result in a place of 4,096 bits. -/
theorem bits_onto {w old j : Nat} {l : List (Option Nat)} (hl : w * l.length ≤ 4096) (hj : j < l.length) :
    bits (BitVec.ofNat 4096 ((VRes.lanes w l false).onto old)).toNat (w * j) w = (l.getD j none).elim (bits old (w * j) w) (· % 2 ^ w) := by
  have hlane : w * j + w ≤ 4096 := Nat.le_trans (Nat.mul_le_mul_left w hj) hl
  rw [bits_ofNat_toNat hlane]
  exact bits_mergeLanes w old l j

end Sys2Proof.Machine
end

section
open Sys2Proof Sys2Proof.Machine

/-- Settles O32: sources by their kind, destinations by where the result goes. -/
theorem vectorSourcesAndDestinations : Obligations.VectorSourcesAndDestinations := by
  unfold Obligations.VectorSourcesAndDestinations
  intro s ent e hL _
  refine ⟨fun v => s.sources_of_no_port ent e, fun v j hv hj => ?register, fun v j hv hv' hj => ?queue, fun j hj => ?c0, fun j hj => ?c1,
    fun v j => lane_lanesOf_above _ _ _, fun d l hd hl => ?toRegister, fun d r => s.deliverV_nowhere r⟩
  case register => rw [lane_lanesOf_below _ _ _ hj, Core.source_register hv, bits]
  case queue => rw [lane_lanesOf_below _ _ _ hj, Core.source_queue hv hv', bits]
  case c0 => rw [lane_lanesOf_below _ _ _ hj, Core.source_c0, bits_repeatLanes _ _ (by omega)]
  case c1 => rw [lane_lanesOf_below _ _ _ hj, Core.source_c1, bits_repeatLanes _ _ (by omega)]
  case toRegister =>
    refine ⟨_, s.deliverV_register _ hd, OnlyMe.setMe s _, fun k hk => ?others, fun j hj => ?lanes, fun j hj => ?head, fun k => ?tail⟩
    all_goals rw [State.me_setMe]
    case others => exact VecUnit.setReg_other _ _ hd hk
    case lanes =>
      have hlane := bits_onto (old := (s.me.vec.v[Fin.ofNat 32 d]).toNat) hl hj
      rw [← VecUnit.setReg_same] at hlane
      refine hlane.trans ?_
      cases l.getD j none <;> rfl
    case head =>
      have hlane := bits_onto (old := 0) hl hj
      rw [VecUnit.push_head]
      refine hlane.trans ?_
      cases l.getD j none with
      | none => simp [bits]
      | some x => rfl
    case tail => exact VecUnit.push_tail ..

end

section
/-!
SUPPORT. Vector compares and mask combinations by the mask register that they leave (R168), and reductions and scans of a unit without a fault in
store by the tree and the running values of their rules (R175, R176, R180).
-/
namespace Sys2Proof.Machine

/-! ### Mask registers (R168) -/

theorem bit_eq_testBit (w i : Nat) : bit w i = w.testBit i := by
  rw [Nat.testBit_eq_decide_div_mod_eq]
  rfl

/-- The number whose bits below n are those of a function. -/
def maskNat (n : Nat) (f : Nat → Bool) : Nat := (List.range n).foldl (fun acc j => if f j then acc + 2 ^ j else acc) 0

theorem maskNat_succ (n : Nat) (f : Nat → Bool) : maskNat (n + 1) f = if f n then maskNat n f + 2 ^ n else maskNat n f := by
  simp only [maskNat, List.range_succ, List.foldl_append, List.foldl_cons, List.foldl_nil]

theorem maskNat_lt (n : Nat) (f : Nat → Bool) : maskNat n f < 2 ^ n := by
  induction n with
  | zero => exact Nat.one_pos
  | succ n ih =>
    rw [maskNat_succ, Nat.pow_succ]
    split <;> omega

theorem testBit_maskNat (f : Nat → Bool) {n j : Nat} (h : j < n) : (maskNat n f).testBit j = f j := by
  induction n with
  | zero => omega
  | succ n ih =>
    have hlast : (maskNat n f).testBit n = false := Nat.testBit_lt_two_pow (maskNat_lt n f)
    rw [maskNat_succ]
    rcases Nat.lt_succ_iff_lt_or_eq.1 h with hj | rfl
    · rw [← ih hj]
      split
      · rw [Nat.add_comm, Nat.testBit_two_pow_add_gt hj]
      · rfl
    · cases hf : f j
      · simp [hlast]
      · simp [Nat.add_comm _ (2 ^ j), Nat.testBit_two_pow_add_eq, hlast]

theorem Core.setMask_m (c : Core) (d : Nat) (f : Nat → Bool) :
    (c.setMask d f).vec.m = c.vec.m.set (Fin.ofNat 8 d) (BitVec.ofNat 512 (maskNat 512 f)) := rfl

/-- A core with mask register d set differs in that register alone, whose bits are those of the function. -/
theorem State.setMask_result (s : State) (c : Core) (d : Nat) (f : Nat → Bool) :
    let t := s.setMe (c.setMask d f)
    t = s.setMe { c with vec := { c.vec with m := t.me.vec.m } } ∧
      (∀ k : Fin 8, k.val ≠ d % 8 → t.me.vec.m[k] = c.vec.m[k]) ∧ ∀ j, j < 512 → (t.me.vec.m[Fin.ofNat 8 d]).getLsbD j = f j := by
  intro t
  have hm : t.me.vec.m = c.vec.m.set (Fin.ofNat 8 d) (BitVec.ofNat 512 (maskNat 512 f)) := by
    rw [State.me_setMe, Core.setMask_m]
  refine ⟨?_, fun k hk => ?_, fun j hj => ?_⟩
  · rw [hm]
    rfl
  · rw [hm]
    exact Vector.getElem_set_ne (Fin.isLt _) k.isLt (Ne.symm hk)
  · have hsame : t.me.vec.m[Fin.ofNat 8 d] = BitVec.ofNat 512 (maskNat 512 f) := by simp [hm]
    rw [hsame, BitVec.getLsbD_ofNat, testBit_maskNat f hj]
    simp [hj]

theorem Core.takePort_vec (c : Core) (p : Nat) : (c.takePort p).vec = c.vec := by
  unfold Core.takePort
  split
  · rfl
  · split <;> rfl

theorem VecUnit.advance_m (u : VecUnit) (p n : Nat) : (u.advance p n).m = u.m := by
  unfold VecUnit.advance
  split <;> rfl

/-- Taking the operands of ports leaves the mask registers. -/
theorem Core.popPorts_m (c : Core) (vals : PortVals) : (c.popPorts vals).vec.m = c.vec.m := by
  unfold Core.popPorts
  induction vals generalizing c with
  | nil => rfl
  | cons x t ih => exact (ih _).trans ((VecUnit.advance_m ..).trans (congrArg VecUnit.m (c.takePort_vec x.1)))

/-- A compare commits the bits of its rule, and the operands that it took. -/
theorem vecCmp_result {ent : Entry} {d a b m : Nat} {f : Nat → Nat → Nat → Bool} {s u : State} {xs : List (List Nat)} {vals : PortVals}
    (hread : s.sources ent ent.e [a, b] = .ok (xs, vals) u) :
    ∃ t, vecCmp d a b m f ent s = .ok () t ∧
      t = u.setMe { u.me.popPorts vals with vec := { (u.me.popPorts vals).vec with m := t.me.vec.m } } ∧
      (∀ k : Fin 8, k.val ≠ d % 8 → t.me.vec.m[k] = u.me.vec.m[k]) ∧
      ∀ j, j < 512 → (t.me.vec.m[Fin.ofNat 8 d]).getLsbD j =
        if ent.lg ≤ j then false
        else if u.me.maskBit m j then f ent.e (lane (xs.getD 0 []) j) (lane (xs.getD 1 []) j)
        else (u.me.vec.m[Fin.ofNat 8 d]).getLsbD j := by
  obtain ⟨hall, hothers, hbits⟩ := u.setMask_result (u.me.popPorts vals) d fun j =>
    if ent.lg ≤ j then false
    else if u.me.maskBit m j then f ent.e (lane (xs.getD 0 []) j) (lane (xs.getD 1 []) j)
    else bit (u.me.vec.m[Fin.ofNat 8 d]).toNat j
  refine ⟨_, by simp only [vecCmp, hread], hall, fun k hk => ?_, fun j hj => ?_⟩
  · rw [hothers k hk, Core.popPorts_m]
  · rw [hbits j hj, bit_eq_testBit]
    rfl

/-- A combination of mask registers commits the bits of its rule. -/
theorem vecMask_result (d a b : Nat) (o : BitVec 2) (ent : Entry) (s : State) :
    ∃ t, vecMask d a b o.toNat ent s = .ok () t ∧ t = s.setMe { s.me with vec := { s.me.vec with m := t.me.vec.m } } ∧
      (∀ k : Fin 8, k.val ≠ d % 8 → t.me.vec.m[k] = s.me.vec.m[k]) ∧
      ∀ j, j < 512 → (t.me.vec.m[Fin.ofNat 8 d]).getLsbD j =
        (decide (j < ent.lg) && (
          let x := s.me.maskBit a j
          let y := s.me.maskBit b j
          if o = 0 then x && y else if o = 1 then x || y else if o = 2 then Bool.xor x y else x && !y)) := by
  obtain ⟨hall, hothers, hbits⟩ := s.setMask_result s.me d _
  refine ⟨_, rfl, hall, hothers, fun j hj => (hbits j hj).trans (congrArg (decide (j < ent.lg) && ·) ?_)⟩
  have hcases : ∀ o : BitVec 2, o = 0 ∨ o = 1 ∨ o = 2 ∨ o = 3 := by decide
  rcases hcases o with rfl | rfl | rfl | rfl
  case inr.inr.inl => cases s.me.maskBit a j <;> cases s.me.maskBit b j <;> rfl
  all_goals rfl

/-! ### Reductions and scans (R175, R176) -/

theorem State.upset_healthy {s : State} (h : s.Healthy 2) : s.upset 2 = (none, s) := State.takeUpset_healthy h

/-- The values that take part in a reduction or a scan of lanes x. -/
theorem Core.parts_eq (c : Core) (ent : Entry) (m : Nat) (x : List Nat) :
    c.parts ent m x = (List.range ent.lp).map fun j => if j < ent.lg ∧ c.maskBit m j = true then some (lane x j) else none := by
  simp [Core.parts]

section
variable {ent : Entry} {d a m : Nat} {opOf : Nat → Nat → Nat → Nat} {idOf : Nat → Nat} {div : Nat → Nat → Nat → Bool} {s u v : State}
  {xs : List (List Nat)} {vals : PortVals}

theorem vecRed_of_ok (hread : s.sources ent ent.e [a] = .ok (xs, vals) u) (hu : u.Healthy 2)
    (hdiv : treeDiverges (opOf ent.e) div 10 1 (u.me.parts ent m (xs.getD 0 [])) = none)
    (hput : u.deliverV d vals (.lanes ent.e ((List.range ent.lp).map fun j => if j < ent.lg then
      some (if j = 0 then (tree (opOf ent.e) 10 (u.me.parts ent m (xs.getD 0 []))).getD (idOf ent.e) else 0) else none) false) = .ok () v) :
    vecRed d a m opOf idOf div ent s = .ok () v := by
  have hop : faulty none (opOf ent.e) = fun _ => opOf ent.e := rfl
  unfold treeDiverges at hdiv
  unfold tree at hput
  simp only [vecRed, hread, State.upset_healthy hu, hop, hdiv, Core.produced_zero, hput]

theorem vecScan_of_ok (hread : s.sources ent ent.e [a] = .ok (xs, vals) u) (hu : u.Healthy 2)
    (hdiv : scanDiverges (opOf ent.e) div 0 (idOf ent.e) (u.me.parts ent m (xs.getD 0 [])) = none)
    (hput : u.deliverV d vals (.lanes ent.e ((List.range ent.lp).map fun j => if j < ent.lg then
      some (lane (scanList (opOf ent.e) (idOf ent.e) (u.me.parts ent m (xs.getD 0 []))) j) else none) false) = .ok () v) :
    vecScan d a m opOf idOf div ent s = .ok () v := by
  have hop : faulty none (opOf ent.e) = fun _ => opOf ent.e := rfl
  unfold scanDiverges at hdiv
  unfold scanList at hput
  simp only [vecScan, hread, State.upset_healthy hu, hop, hdiv, Core.produced_zero, hput]

end

/-! ### No divergence where the shadow does not watch (R180) -/

theorem treePairs_noDiv (comb : Nat → Nat → Nat → Nat) (step j : Nat) (l : List (Option Nat)) :
    treeDivergesFrom.pairs comb noDiv step j l = none := by
  induction j, l using treeDivergesFrom.pairs.induct comb noDiv step with
  | case1 j a b t h => exact absurd h Bool.false_ne_true
  | case2 j a b t h ih => rw [treeDivergesFrom.pairs, if_neg h, ih]
  | case3 j x y t h ih => rw [treeDivergesFrom.pairs, ih]; exact h
  | case4 j l h h' => rw [treeDivergesFrom.pairs] <;> assumption

theorem treeDivergesFrom_noDiv (comb : Nat → Nat → Nat → Nat) (n step : Nat) (l : List (Option Nat)) :
    treeDivergesFrom comb noDiv n step l = none := by
  induction n generalizing step l with
  | zero => rfl
  | succ n ih =>
    rw [treeDivergesFrom, treePairs_noDiv, ih]
    exact ite_self _

theorem scanDivergesFrom_noDiv (op : Nat → Nat → Nat → Nat) (j acc : Nat) (l : List (Option Nat)) :
    scanDivergesFrom op noDiv j acc l = none := by
  induction l generalizing j acc with
  | nil => rfl
  | cons x t ih =>
    cases x with
    | none => exact ih ..
    | some x => exact ih ..

end Sys2Proof.Machine
end

section
open Sys2Proof Sys2Proof.Machine

/-- Settles O34: each form by what its body commits. -/
theorem vectorMasksReductionsAndScans : Obligations.VectorMasksReductionsAndScans := by
  unfold Obligations.VectorMasksReductionsAndScans
  intro s d a b sh m c o n ent e w old compare across
  have hcompare {i : Instr} (f : Nat → Nat → Nat → Bool) (hi : exec i s = vec (vecCmp d.toNat a.toNat b.toNat m.toNat f) s) :
      compare i (f e) := by
    intro xs vals u hread
    obtain ⟨t, hrun, ht⟩ := vecCmp_result (d := d.toNat) (m := m.toNat) (f := f) hread
    exact ⟨t, hi.trans (vec_of_ok hrun), ht⟩
  have hred {i : Instr} {ok : List (Option Nat) → Prop} (opOf : Nat → Nat → Nat → Nat) (idOf : Nat → Nat) (div : Nat → Nat → Nat → Bool)
      (hi : exec i s = vec (vecRed d.toNat a.toNat m.toNat opOf idOf div) s) (hok : ∀ l, ok l → treeDiverges (opOf e) div 10 1 l = none) :
      across i (fun l j => if j = 0 then (tree (opOf e) 10 l).getD (idOf e) else 0) ok := by
    intro xs vals u v hread hu
    rw [← Core.parts_eq]
    exact fun hl hput => hi.trans (vec_of_ok (vecRed_of_ok hread hu (hok _ hl) hput))
  have hscan {i : Instr} {ok : List (Option Nat) → Prop} (opOf : Nat → Nat → Nat → Nat) (idOf : Nat → Nat) (div : Nat → Nat → Nat → Bool)
      (hi : exec i s = vec (vecScan d.toNat a.toNat m.toNat opOf idOf div) s) (hok : ∀ l, ok l → scanDiverges (opOf e) div 0 (idOf e) l = none) :
      across i (fun l j => lane (scanList (opOf e) (idOf e) l) j) ok := by
    intro xs vals u v hread hu
    rw [← Core.parts_eq]
    exact fun hl hput => hi.trans (vec_of_ok (vecScan_of_ok hread hu (hok _ hl) hput))
  refine ⟨hcompare (fun _ => condF c.toNat) (exec_vcmpF32 ..),
    hcompare (fun e p q => condI c.toNat (intOf true e p) (intOf true e q)) (exec_vcmpSigned ..),
    hcompare (fun e p q => condI c.toNat (intOf false e p) (intOf false e q)) (exec_vcmpUnsigned ..),
    ?vmask,
    hred (fun _ => redOpF o.toNat) (fun _ => redIdF o.toNat) (divOp o.toNat) (exec_vredF32 ..) fun _ h => h,
    hred (ok := fun _ => True) (redOpI n.toNat o.toNat) (redIdI n.toNat o.toNat) noDiv (exec_vredInt ..) fun _ _ => treeDivergesFrom_noDiv ..,
    hscan (fun _ => redOpF o.toNat) (fun _ => redIdF o.toNat) (divOp o.toNat) (exec_vscanF32 ..) fun _ h => h,
    hscan (ok := fun _ => True) (redOpI n.toNat o.toNat) (redIdI n.toNat o.toNat) noDiv (exec_vscanInt ..) fun _ _ => scanDivergesFrom_noDiv ..⟩
  obtain ⟨t, hrun, ht⟩ := vecMask_result d.toNat a.toNat b.toNat o ent w
  exact ⟨t, (exec_vmask ..).trans (vec_of_ok hrun), ht⟩

end
